-- ==== Sys2Proof/Word.lean ====
section
/-! DEFINITION. The words of the BM-900: the width of a scalar register, a vector register, a byte and an
instruction word (R5, R22, R83). -/

namespace Sys2Proof

/-- A scalar register, an address, a doubleword of memory (R22). -/
abbrev Word := BitVec 64

/-- A byte of memory (R5). -/
abbrev Byte := BitVec 8

/-- A vector register (R22). -/
abbrev Vec := BitVec 512

/-- An instruction word (R83). -/
abbrev Insn := BitVec 32

end Sys2Proof
end

