-- ==== Sys2Proof/Config.lean ====
section
/-! DEFINITION. What one implementation of the part fixes, and the values the spec leaves open. A free value is an
opaque constant: nothing in Lean can see what it is, so a claim that holds holds whatever it is (log entry 18). -/

namespace Sys2Proof.Config

/-- Number of tiles of the logical array (R17). -/
def tiles : Nat := 900

/-- The firmware level that fwcall 0x0000 and the mailbox command LEVELS report: the firmware's own number, which the
spec does not give (R374, R385). UNVERIFIED: a free value, log entry 18. -/
opaque firmwareLevel : Nat → BitVec 16

/-- A 64-bit value the spec leaves open at one use; each use takes the next number of the state's counter (log entry 18). -/
opaque freeWord : Nat → Word

/-- Does the signature trailer of a gang image verify under the module's keys (R368)? The keys are not the spec's to give: a
free value of the image (log entry 18). -/
opaque signatureOk : List Byte → Bool

/-- The 16-bit hash of source and destination fabric ids that picks an output port (R379); the spec does not give it: a free
value of the pair (log entry 18). -/
opaque routeHash : Nat → Nat → BitVec 16

/-- Does the board mark a firmware of a level as unkeyed, which is all that a module without keys boots (R369)? A free value (log
entry 18). -/
opaque markedUnkeyed : BitVec 16 → Bool

/-- Does a firmware of a level accept the state table's version that the active complex's firmware wrote, of the second level
(R384)? A free value of the two (log entry 18). -/
opaque acceptsTable : BitVec 16 → BitVec 16 → Bool

/-- The bytes of the resident handler image, 16 KiB, which bring-up multicasts to every tile (R386 step 5): the kernel's, not the
spec's. A free value (log entry 18). -/
opaque handlerByte : Nat → BitVec 8

/-- Physical address of the device information block (R371). -/
def dib : Nat := 0

/-- Physical address of the slot table, chosen by firmware (R395). DESIGN CHOICE, log entry 6. -/
def slotTable : Nat := 0x2000

/-- Physical address of the initial translation anchor (R371, R395). DESIGN CHOICE, log entry 6. -/
def anchor : Nat := 0x4000

/-- Physical address of the level-1 node of the initial anchor (R357). DESIGN CHOICE, log entry 6. -/
def node1 : Nat := 0x10000

/-- Physical address of the level-2 node. DESIGN CHOICE, log entry 6. -/
def node2 : Nat := 0x20000

/-- Physical address of the level-3 node. DESIGN CHOICE, log entry 6. -/
def node3 : Nat := 0x30000

/-- Physical address of the context registry (R366). DESIGN CHOICE, log entry 6. -/
def registry : Nat := 0x100000

/-- Length of the firmware range (R395). DESIGN CHOICE, log entry 6. -/
def firmwareRange : Nat := 0x200000

/-- The kernel entry that the board image names (R386). DESIGN CHOICE, log entry 5. -/
def kernelEntry : Word := 0x1000_0000_0020_0000

/-- Domain number of the device: 0, outside any load-store domain (R371). DESIGN CHOICE, log entry 6. -/
def domain : Nat := 0

/-- EOA of the board image: erase keys on alarm (R368). DESIGN CHOICE, log entry 6. -/
def eraseOnAlarm : Bool := false

/-- RSG of the board image: require signed gangs (R368). DESIGN CHOICE, log entry 6. -/
def requireSigned : Bool := false

/-- Capacity of HBM: 512 GiB (R7, R359). -/
def hbmBytes : Nat := 0x80_0000_0000

/-- First byte of the Signet's window (R368). -/
def signetBase : Nat := 0xFF_FFFF_0000

end Sys2Proof.Config
end

