-- ==== Sys2Proof/Machine/Bits.lean ====
section
/-! DEFINITION. Bit fields, sign extension, byte order and lanes: the helpers that every later file shares
(R5, R6, R138). -/

namespace Sys2Proof

/-- Bits hi down to lo of a natural number. -/
def bitsN (v hi lo : Nat) : Nat := v / 2 ^ lo % 2 ^ (hi + 1 - lo)

/-- Bits(v, hi, lo) as a number (R6). -/
def bits {w : Nat} (v : BitVec w) (hi lo : Nat) : Nat := bitsN v.toNat hi lo

/-- One bit of a word. -/
def bit {w : Nat} (v : BitVec w) (i : Nat) : Bool := v.getLsbD i

/-- A number as a scalar register, modulo 2^64. -/
def toWord (n : Nat) : Word := BitVec.ofNat 64 n

/-- SignExt(v, n): the low n bits of v as a signed number (R6). -/
def signedN (v n : Nat) : Int :=
  let m := v % 2 ^ n
  if 2 * m < 2 ^ n then (m : Int) else (m : Int) - 2 ^ n

/-- SignExt(v, n) to a whole register (R6). -/
def signExt (v n : Nat) : Word := BitVec.ofInt 64 (signedN v n)

/-- A Boolean as a register value. -/
def boolWord (b : Bool) : Word := if b then 1 else 0

/-- All ones: the register value that stands for "none". -/
def allOnes : Word := 0xFFFF_FFFF_FFFF_FFFF

/-- The value of a little-endian run of bytes (R5). -/
def fromBytes : List Byte → Nat
  | [] => 0
  | b :: rest => b.toNat + 256 * fromBytes rest

/-- The n little-endian bytes of a value (R5). -/
def toBytes : Nat → Nat → List Byte
  | 0, _ => []
  | n + 1, v => BitVec.ofNat 8 v :: toBytes n (v / 256)

/-- Replace bits [lo, lo + width) of a number. -/
def putBitsN (v lo width x : Nat) : Nat :=
  v - v / 2 ^ lo % 2 ^ width * 2 ^ lo + x % 2 ^ width * 2 ^ lo

/-- Element i of a vector register of elements of `bits` bits (R138). -/
def laneOf (v : Vec) (width i : Nat) : Nat := v.toNat / 2 ^ (width * i) % 2 ^ width

/-- The vector register whose elements are those of the list, from element 0 (R138). -/
def vecOfLanes (width : Nat) : List Nat → Nat
  | [] => 0
  | x :: rest => x % 2 ^ width + 2 ^ width * vecOfLanes width rest

/-- The elements of a vector register (R138). -/
def lanesOf (v : Vec) (width : Nat) : List Nat :=
  (List.range (512 / width)).map (laneOf v width)

/-- Count of one bits among the low n bits. -/
def popCountN : Nat → Nat → Nat
  | 0, _ => 0
  | n + 1, v => v % 2 + popCountN n (v / 2)

/-- Trailing zero bits of v, n if the low n bits are 0. -/
def ctzN : Nat → Nat → Nat
  | 0, _ => 0
  | n + 1, v => if v % 2 = 1 then 0 else 1 + ctzN n (v / 2)

/-- Leading zero bits of an n-bit v, n if v = 0. -/
def clzN (n v : Nat) : Nat := if v = 0 then n else n - 1 - Nat.log2 v

/-- Ceiling division. -/
def ceilDiv (a b : Nat) : Nat := (a + b - 1) / b

/-- Round a number up to a multiple. -/
def roundUp (a m : Nat) : Nat := ceilDiv a m * m

end Sys2Proof
end

