-- ==== Sys2Proof/Machine/Board.lean ====
section
/-! DEFINITION. What memory reads as where nothing has written it: the firmware range as bring-up left it (R371, R395,
R366), the resident handler image of every tile (R386), and zero elsewhere (DESIGN CHOICE, log entries 3 and 4). -/

namespace Sys2Proof.Machine

/-- Physical column and row of a tile id when no tile is excluded: the easternmost column of each die, the
southernmost row of dies 0 and 1 and the northernmost row of dies 2 and 3 are spare (R16, R17). -/
def nominalPosition (tile : Nat) : Nat × Nat :=
  let lx := tile % 30
  let ly := tile / 30
  (if lx < 15 then lx else lx + 1, if ly < 15 then ly else ly + 2)

/-- The 16-bit map entry of a position (R18). -/
def mapEntry (p : Nat × Nat) : Nat := p.1 + p.2 * 32

/-- The doublewords of the device information block at reset (R371). -/
def dibWord (i : Nat) : Nat :=
  if i = 0 then 0x4B4C_4249_4E49_4146
  else if i = 1 then 0x0001_0001
  else if i = 2 then Config.domain
  else if i = 3 then Config.anchor
  else if i = 4 then Config.slotTable
  else if i = 5 then Config.registry
  else if i = 6 then 1
  else if i = 7 then Config.firmwareRange
  else if 0x20 ≤ i ∧ i < 0x20 + 225 then
    let t := (i - 0x20) * 4
    mapEntry (nominalPosition t) + mapEntry (nominalPosition (t + 1)) * 2 ^ 16 +
      mapEntry (nominalPosition (t + 2)) * 2 ^ 32 + mapEntry (nominalPosition (t + 3)) * 2 ^ 48
  else 0

/-- The doubleword at a doubleword-aligned physical address after bring-up: DIB, the initial anchor, its nodes and the
registry's magic (R366, R371). The level-3 leaves map 512 MiB each with V, L, R, W and X set and U clear. -/
def resetWord (a : Nat) : Nat :=
  if a < 0x1000 then dibWord (a / 8)
  else if a = Config.anchor then Config.node1
  else if a = Config.node1 + 8 * 32 then Config.node2 + 1
  else if a = Config.node2 then Config.node3 + 1
  else if Config.node3 ≤ a ∧ a < Config.node3 + 8 * 1024 then (a - Config.node3) / 8 * 2 ^ 29 + 0x1F
  else if a = Config.registry then 0x5952_5453_4947_4552
  else 0

/-- Is a location one of the resident handler image of a tile: 0x3C_0000 to 0x3C_3FFF of its local memory (R386)? -/
def isHandler (a : Nat) : Bool :=
  decide (2 ^ 40 ≤ a) && decide (0x3C_0000 ≤ a % 2 ^ 22) && decide (a % 2 ^ 22 < 0x3C_4000)

/-- The byte that an unlisted location reads as. -/
def resetByte (a : Nat) : Byte :=
  if a < Config.firmwareRange then BitVec.ofNat 8 (resetWord (a / 8 * 8) / 2 ^ (a % 8 * 8))
  else if isHandler a then Config.handlerByte (a % 2 ^ 22 - 0x3C_0000) else 0

end Sys2Proof.Machine
end

