-- ==== Sys2Proof/Machine/Table.lean ====
section
/-! DEFINITION. Sparse tables of things by number, kept in rising order of their keys: the many contexts, tiles and
units of the part, of which a state lists those that have been used. -/

namespace Sys2Proof.Machine

/-- A sparse table: keys in rising order; a key not listed stands for a default value its reader names. -/
structure Table (α : Type) where
  cells : List (Nat × α)
deriving DecidableEq, Repr

/-- The table that lists nothing. -/
def Table.empty {α : Type} : Table α := ⟨[]⟩

/-- The first entry of a list with the given key. -/
def lookup {α : Type} (k : Nat) : List (Nat × α) → Option α
  | [] => none
  | (j, v) :: rest => if j = k then some v else lookup k rest

/-- Drop every entry with the given key. -/
def erase {α : Type} (k : Nat) : List (Nat × α) → List (Nat × α)
  | [] => []
  | (j, v) :: rest => if j = k then erase k rest else (j, v) :: erase k rest

/-- Insert an entry before the first greater key. -/
def insertKey {α : Type} (k : Nat) (v : α) : List (Nat × α) → List (Nat × α)
  | [] => [(k, v)]
  | (j, w) :: rest => if k < j then (k, v) :: (j, w) :: rest else (j, w) :: insertKey k v rest

/-- The value at a key, or the default. -/
def Table.get {α : Type} (t : Table α) (d : α) (k : Nat) : α := (lookup k t.cells).getD d

/-- The value at a key, if listed. -/
def Table.find {α : Type} (t : Table α) (k : Nat) : Option α := lookup k t.cells

/-- Set the value at a key. -/
def Table.put {α : Type} (t : Table α) (k : Nat) (v : α) : Table α := ⟨insertKey k v (erase k t.cells)⟩

/-- Drop a key. -/
def Table.del {α : Type} (t : Table α) (k : Nat) : Table α := ⟨erase k t.cells⟩

end Sys2Proof.Machine
end

