-- ==== Sys2Proof/Machine/Memory.lean ====
section
/-! DEFINITION. The bytes of the part: HBM by physical address and every tile's local memory, in one list of
(location, byte) pairs in one canonical form (R7, R21, R36). A location is a number: a physical address below
2^39 is itself; offset `off` of tile `t` is 2^40 + t * 2^22 + off. -/

namespace Sys2Proof.Machine

/-- The bytes that differ from what an unlisted location reads as, locations strictly rising. -/
structure Memory where
  cells : List Host.Cell
deriving DecidableEq, Repr

/-- The location of an HBM byte (R7: 512 GiB). -/
def hbmLoc (pa : Nat) : Nat := pa

/-- The location of a byte of a tile's local memory (R21). -/
def lmLoc (tile off : Nat) : Nat := 2 ^ 40 + tile * 2 ^ 22 + off

/-- Canonical form: locations strictly rising, no entry equal to what an unlisted location reads as. -/
def wfCells : List Host.Cell → Bool
  | [] => true
  | (a, b) :: rest => decide (b ≠ resetByte a) && wfCells rest &&
      (match rest with
       | [] => true
       | (a', _) :: _ => decide (a < a'))

/-- The canonical form of a memory. -/
def Memory.wf (m : Memory) : Bool := wfCells m.cells

/-- The byte at a location of a list of cells. -/
def readCell (a : Nat) (cells : List Host.Cell) : Byte := (lookup a cells).getD (resetByte a)

/-- Put a byte into a list of cells, keeping the canonical form: writing what an unlisted location reads as removes the
entry. -/
def writeCell (a : Nat) (v : Byte) (cells : List Host.Cell) : List Host.Cell :=
  if v = resetByte a then erase a cells else insertKey a v (erase a cells)

/-- One byte (R42: of whatever home). -/
def Memory.byte (m : Memory) (a : Nat) : Byte := readCell a m.cells

/-- Write one byte. -/
def Memory.setByte (m : Memory) (a : Nat) (v : Byte) : Memory := ⟨writeCell a v m.cells⟩

/-- The n bytes from a location on. -/
def Memory.bytes (m : Memory) (a : Nat) : Nat → List Byte
  | 0 => []
  | n + 1 => m.byte a :: m.bytes (a + 1) n

/-- The little-endian value of n bytes (R5). -/
def Memory.read (m : Memory) (a n : Nat) : Nat := fromBytes (m.bytes a n)

/-- Write a run of bytes. -/
def Memory.setBytes (m : Memory) (a : Nat) : List Byte → Memory
  | [] => m
  | b :: rest => (m.setByte a b).setBytes (a + 1) rest

/-- Write a value as n little-endian bytes (R5). -/
def Memory.write (m : Memory) (a n v : Nat) : Memory := m.setBytes a (toBytes n v)

end Sys2Proof.Machine
end

