-- ==== Sys2Proof/Machine/Flags.lean ====
section
/-! DEFINITION. The sticky flags of fflags (R80) and how an instruction raises them (R79). -/

namespace Sys2Proof.Machine

/-- The six sticky flags of fflags (R80). -/
abbrev Flags := BitVec 6

/-- Inexact. -/
def Flags.nx : Flags := 1
/-- Underflow. -/
def Flags.uf : Flags := 2
/-- Overflow. -/
def Flags.of : Flags := 4
/-- Divide by zero. -/
def Flags.dz : Flags := 8
/-- Invalid operation. -/
def Flags.nv : Flags := 16
/-- Clamped. -/
def Flags.cl : Flags := 32

/-- A set of flags raised when a condition holds. -/
def raiseIf (b : Bool) (f : Flags) : Flags := if b then f else 0

/-- The flags of several lanes, ORed (R79). -/
def Flags.all (fs : List Flags) : Flags := fs.foldl (fun acc f => acc ||| f) 0

end Sys2Proof.Machine
end

