-- ==== Sys2Proof/Machine/Num.lean ====
section
/-! DEFINITION. Number formats and arithmetic (R65 to R81): decoding of every format, Round(), the flags it raises, the
stochastic generator, and exact sums, products, quotients and square roots that are rounded once. -/

namespace Sys2Proof.Machine

/-! ### Values -/

/-- The value of an encoding, or an exact result: NaN, an infinity, or (-1)^neg * m * 2^e; `sticky` says that the exact
magnitude lies strictly between m and m + 1 units of 2^e (a quotient or a root cut after more bits than any rounding
needs). -/
inductive Val where
  | nan (signalling : Bool)
  | inf (neg : Bool)
  | fin (neg : Bool) (m : Nat) (e : Int) (sticky : Bool)
deriving DecidableEq, Repr

/-- A zero of a sign. -/
def Val.zero (neg : Bool) : Val := .fin neg 0 0 false

/-- An exact integer. -/
def Val.ofInt (i : Int) : Val := .fin (decide (i < 0)) i.natAbs 0 false

/-- Is it NaN? -/
def Val.isNan : Val → Bool
  | .nan _ => true
  | _ => false

/-- Is it a signalling NaN? -/
def Val.isSignalling : Val → Bool
  | .nan s => s
  | _ => false

/-- Is it a zero? -/
def Val.isZero : Val → Bool
  | .fin _ m _ sticky => m = 0 && !sticky
  | _ => false

/-- The sign of a value that is no NaN. -/
def Val.sign : Val → Bool
  | .nan _ => false
  | .inf n => n
  | .fin n _ _ _ => n

/-- The value with its sign inverted. -/
def Val.neg : Val → Val
  | .nan s => .nan s
  | .inf n => .inf (!n)
  | .fin n m e s => .fin (!n) m e s

/-! ### Formats (R65, R66, R67) -/

/-- How a floating-point format encodes what is not finite (R66). -/
inductive Special where
  | ieee | e4m3 | e2m1
deriving DecidableEq, Repr

/-- A floating-point format: exponent bits, fraction bits, bias (R66). -/
structure FloatFmt where
  exp : Nat
  frac : Nat
  bias : Nat
  special : Special
  signals : Bool
deriving DecidableEq, Repr

/-- The floating-point format of a format code (R65, R66). -/
def floatFmt : Nat → Option FloatFmt
  | 0 => some ⟨11, 52, 1023, .ieee, true⟩
  | 1 => some ⟨8, 23, 127, .ieee, true⟩
  | 2 => some ⟨5, 10, 15, .ieee, true⟩
  | 3 => some ⟨8, 7, 127, .ieee, true⟩
  | 4 => some ⟨4, 3, 7, .e4m3, false⟩
  | 5 => some ⟨5, 2, 15, .ieee, false⟩
  | 6 => some ⟨2, 1, 1, .e2m1, false⟩
  | _ => none

/-- FP64, FP32, E4M3: format codes used by name. -/
def fp64 : Nat := 0
/-- The code of FP32. -/
def fp32 : Nat := 1
/-- The code of E8M0. -/
def e8m0 : Nat := 8

/-- The width in bits of an element of a format (R66, R68, R69, R70). -/
def fmtBits : Nat → Nat
  | 0 => 64 | 1 => 32 | 2 => 16 | 3 => 16 | 4 => 8 | 5 => 8 | 6 => 4 | 7 => 16 | 8 => 8 | 9 => 8 | 10 => 8 | 11 => 32 | 12 => 64
  | _ => 0

/-- The range of an integer format (R70). -/
def intRange : Nat → Option (Int × Int)
  | 9 => some (-128, 127)
  | 10 => some (0, 255)
  | 11 => some (-2147483648, 2147483647)
  | 12 => some (-9223372036854775808, 9223372036854775807)
  | _ => none

/-- The value of a floating-point encoding (R66, R67). -/
def decodeFloat (f : FloatFmt) (raw : Nat) : Val :=
  let neg := decide (raw / 2 ^ (f.exp + f.frac) % 2 = 1)
  let e := raw / 2 ^ f.frac % 2 ^ f.exp
  let m := raw % 2 ^ f.frac
  let top := 2 ^ f.exp - 1
  if f.special = .ieee && e = top then
    if m = 0 then .inf neg else .nan (f.signals && decide (m < 2 ^ (f.frac - 1)))
  else if f.special = .e4m3 && e = top && m = 2 ^ f.frac - 1 then .nan false
  else if e = 0 then .fin neg m (1 - (f.bias : Int) - f.frac) false
  else .fin neg (m + 2 ^ f.frac) ((e : Int) - f.bias - f.frac) false

/-- The value of an element of any format but LQ2, with scale 127 (R66, R69, R70, R116). -/
def decodeFmt (code raw : Nat) : Val :=
  match floatFmt code with
  | some f => decodeFloat f raw
  | none =>
    if code = 8 then (if raw % 256 = 255 then .nan false else .fin false 1 ((raw % 256 : Nat) - 127) false)
    else if code = 10 then .ofInt ((raw % 256 : Nat) : Int)
    else .ofInt (signedN raw (fmtBits code))

/-- The canonical NaN of a floating-point format (R67). -/
def canonicalNan (f : FloatFmt) : Nat :=
  match f.special with
  | .ieee => (2 ^ f.exp - 1) * 2 ^ f.frac + 2 ^ (f.frac - 1)
  | .e4m3 => 0x7F
  | .e2m1 => 0

/-- The encoding of an infinity (R67). -/
def infCode (f : FloatFmt) (neg : Bool) : Nat :=
  (if neg then 2 ^ (f.exp + f.frac) else 0) + (2 ^ f.exp - 1) * 2 ^ f.frac

/-- The encoding of the largest finite value, positive (R67). -/
def maxCode (f : FloatFmt) : Nat :=
  match f.special with
  | .ieee => (2 ^ f.exp - 1) * 2 ^ f.frac - 1
  | .e4m3 => 0x7E
  | .e2m1 => 0x7

/-- The sign bit of a format, if the sign is set. -/
def signCode (f : FloatFmt) (neg : Bool) : Nat := if neg then 2 ^ (f.exp + f.frac) else 0

/-! ### The generator (R74) -/

/-- One draw: the next state of srgen and r, its low 16 bits (R74). -/
def draw (s : Word) : Word × Nat :=
  let s1 := s ^^^ (s <<< 13)
  let s2 := s1 ^^^ (s1 >>> 7)
  let s3 := s2 ^^^ (s2 <<< 17)
  (s3, s3.toNat % 65536)

/-! ### Rounding -/

/-- An encoding, the flags raised, and the generator after any draw. -/
structure Rounded where
  code : Nat
  flags : Flags
  gen : Word
deriving DecidableEq, Repr

/-- A magnitude cut at spacing 2^q: the whole units, whether anything is lost, how the loss compares with half a unit
(0 below, 1 equal, 2 above) and its top 16 bits (R74). -/
structure Cut where
  t : Nat
  inexact : Bool
  half : Nat
  f16 : Nat
deriving DecidableEq, Repr

/-- Cut m * 2^e (a little more if sticky) at spacing 2^q. -/
def cutAt (m : Nat) (e : Int) (sticky : Bool) (q : Int) : Cut :=
  if q ≤ e then ⟨m * 2 ^ (e - q).toNat, sticky, 0, 0⟩
  else
    let sh := (q - e).toNat
    let r := m % 2 ^ sh
    let h := 2 ^ (sh - 1)
    ⟨m / 2 ^ sh, r ≠ 0 || sticky,
     if r > h || (r = h && sticky) then 2 else if r = h then 1 else 0,
     r * 65536 / 2 ^ sh⟩

/-- Does the mode move the cut magnitude one unit away from zero, and the generator after a draw (R73, R74)? A value that the
unbounded format holds exactly draws nothing, also where its overflow makes the result inexact (DEDUCED, log entry 69). -/
def roundUpBy (rm : Nat) (neg : Bool) (c : Cut) (gen : Word) : Bool × Word :=
  if !c.inexact then (false, gen)
  else match rm with
    | 0 => (c.half = 2 || (c.half = 1 && c.t % 2 = 1), gen)
    | 1 => (false, gen)
    | 2 => (neg, gen)
    | 3 => (!neg, gen)
    | 4 => (c.half ≠ 0, gen)
    | _ => let d := draw gen; (decide (65536 ≤ c.f16 + d.2), d.1)

/-- The overflow result of a floating-point format and its flags (R76). -/
def overflowFloat (f : FloatFmt) (rm : Nat) (sat neg : Bool) : Nat × Flags :=
  if sat then (signCode f neg + maxCode f, Flags.cl ||| Flags.nx)
  else match f.special with
    | .ieee =>
      let toMax := rm = 1 || (rm = 2 && !neg) || (rm = 3 && neg)
      (if toMax then signCode f neg + maxCode f else infCode f neg, Flags.of ||| Flags.nx)
    | .e4m3 => (0x7F, Flags.of ||| Flags.nx)
    | .e2m1 => (signCode f neg + maxCode f, Flags.of ||| Flags.nx)

/-- The encoding of t * 2^q, where q is the spacing at its magnitude, if it does not pass the largest finite value. -/
def packFloat (f : FloatFmt) (neg : Bool) (t : Nat) (q : Int) : Option Nat :=
  let emin : Int := 1 - (f.bias : Int) - f.frac
  let big := t = 2 ^ (f.frac + 1)
  let t' := if big then t / 2 else t
  let q' := if big then q + 1 else q
  let code := if t' < 2 ^ f.frac then t' else (q' - emin + 1).toNat * 2 ^ f.frac + (t' - 2 ^ f.frac)
  if code > maxCode f then none else some (signCode f neg + code)

/-- Round(fmt, rm, sat, x) to a floating-point format (R75, R76). -/
def roundFloat (f : FloatFmt) (rm : Nat) (sat : Bool) (x : Val) (gen : Word) : Rounded :=
  match x with
  | .nan s =>
    match f.special with
    | .e2m1 => ⟨0, Flags.nv, gen⟩
    | _ => ⟨canonicalNan f, raiseIf s Flags.nv, gen⟩
  | .inf neg =>
    if f.special = .ieee && !sat then ⟨infCode f neg, 0, gen⟩
    else let o := overflowFloat f rm sat neg; ⟨o.1, o.2, gen⟩
  | .fin neg m e sticky =>
    if m = 0 then ⟨signCode f neg, 0, gen⟩
    else
      let top : Int := (Nat.log2 m : Int) + e
      let emin : Int := 1 - (f.bias : Int)
      let q := (if top < emin then emin else top) - f.frac
      let c := cutAt m e sticky q
      let up := roundUpBy rm neg c gen
      match packFloat f neg (if up.1 then c.t + 1 else c.t) q with
      | none => let o := overflowFloat f rm sat neg; ⟨o.1, o.2, up.2⟩
      | some code => ⟨code, raiseIf c.inexact Flags.nx ||| raiseIf (c.inexact && decide (top < emin)) Flags.uf, up.2⟩

/-- Round() to an integer format (R75, R76). -/
def roundInt (bitsOf : Nat) (lo hi : Int) (rm : Nat) (sat : Bool) (x : Val) (gen : Word) : Rounded :=
  let out (i : Int) : Nat := (i % 2 ^ bitsOf).toNat
  let bad := if sat then Flags.cl else Flags.nv
  match x with
  | .nan _ => ⟨0, Flags.nv, gen⟩
  | .inf neg => ⟨out (if neg then lo else hi), bad, gen⟩
  | .fin neg m e sticky =>
    let c := cutAt m e sticky 0
    let up := roundUpBy rm neg c gen
    let mag : Int := ((if up.1 then c.t + 1 else c.t : Nat) : Int)
    let v := if neg then -mag else mag
    if v < lo then ⟨out lo, bad, up.2⟩
    else if hi < v then ⟨out hi, bad, up.2⟩
    else ⟨out v, raiseIf c.inexact Flags.nx, up.2⟩

/-- Round() to E8M0 (R76, R77). -/
def roundScale (rm : Nat) (sat : Bool) (x : Val) (gen : Word) : Rounded :=
  let past : Rounded := if sat then ⟨0xFE, Flags.cl, gen⟩ else ⟨0xFF, Flags.of, gen⟩
  match x with
  | .nan s => ⟨0xFF, raiseIf s Flags.nv, gen⟩
  | .inf _ => past
  | .fin _ m e sticky =>
    if m = 0 then ⟨0, Flags.uf, gen⟩
    else
      let l := Nat.log2 m
      let f : Int := (l : Int) + e
      let exact := m = 2 ^ l && !sticky
      -- 2m against 3 * 2^l places x against 1.5 * 2^f
      let above := decide (3 * 2 ^ l < 2 * m) || (2 * m = 3 * 2 ^ l && sticky)
      let tie := 2 * m = 3 * 2 ^ l && !sticky
      let k : Int := match rm with
        | 1 | 2 => f
        | 3 => if exact then f else f + 1
        | 4 => if above || tie then f + 1 else f
        | _ => if above then f + 1 else if tie then (if f % 2 = 0 then f else f + 1) else f
      if 127 < k then past
      else if k < -127 then ⟨0, Flags.uf ||| Flags.nx, gen⟩
      else ⟨(k + 127).toNat, raiseIf (!(exact && k = f)) Flags.nx, gen⟩

/-- Round(fmt, rm, sat, x), for any format code a destination may name (R75). -/
def round (code rm : Nat) (sat : Bool) (x : Val) (gen : Word) : Rounded :=
  match floatFmt code with
  | some f => roundFloat f rm sat x gen
  | none =>
    match intRange code with
    | some (lo, hi) => roundInt (fmtBits code) lo hi rm sat x gen
    | none => roundScale rm sat x gen

/-! ### Exact arithmetic (R78) -/

/-- A value and the flags its operation raises before rounding. -/
structure Exact where
  val : Val
  flags : Flags
deriving DecidableEq, Repr

/-- The canonical NaN of an invalid operation. -/
def Exact.invalid : Exact := ⟨.nan false, Flags.nv⟩

/-- A signed integer times 2^e as a value; `zeroNeg` is the sign of an exact zero. -/
def Val.ofScaled (i : Int) (e : Int) (zeroNeg : Bool) : Val :=
  if i = 0 then .zero zeroNeg else .fin (decide (i < 0)) i.natAbs e false

/-- The finite values of a list summed exactly, as an integer at the least exponent (R78, R148). -/
def sumScaled (vs : List Val) : Int × Int :=
  let emin := vs.foldl (fun (acc : Int) v =>
    match v with
    | .fin _ m e _ => if m = 0 then acc else if e < acc then e else acc
    | _ => acc) 4096
  (vs.foldl (fun (acc : Int) v =>
    match v with
    | .fin n m e _ => if m = 0 then acc else
        let a : Int := (m * 2 ^ (e - emin).toNat : Nat)
        if n then acc - a else acc + a
    | _ => acc) 0, emin)

/-- The exact sum of values, with R78's rules for NaN, opposite infinities and the sign of a zero sum (RDN is mode 2). A quiet NaN
among them keeps +∞ and −∞ from raising invalid (DEDUCED, log entry 70). A sum of +0 only is +0 under every mode, by R78, where R148
taken by itself gives −0 under RDN (DESIGN CHOICE, log entry 76). -/
def sumExact (rm : Nat) (vs : List Val) : Exact :=
  if vs.any Val.isNan then ⟨.nan false, raiseIf (vs.any Val.isSignalling) Flags.nv⟩
  else
    let pinf := vs.contains (.inf false)
    let ninf := vs.contains (.inf true)
    if pinf && ninf then .invalid
    else if pinf then ⟨.inf false, 0⟩
    else if ninf then ⟨.inf true, 0⟩
    else
      let s := sumScaled vs
      let allNegZero := !vs.isEmpty && vs.all (fun v => v.isZero && v.sign)
      let allPosZero := !vs.isEmpty && vs.all (fun v => v.isZero && !v.sign)
      ⟨.ofScaled s.1 s.2 (allNegZero || (rm = 2 && !allPosZero)), 0⟩

/-- The exact product of two values (R78). -/
def mulExact (a b : Val) : Exact :=
  if a.isNan || b.isNan then ⟨.nan false, raiseIf (a.isSignalling || b.isSignalling) Flags.nv⟩
  else
    let n := a.sign != b.sign
    match a, b with
    | .inf _, _ => if b.isZero then .invalid else ⟨.inf n, 0⟩
    | _, .inf _ => if a.isZero then .invalid else ⟨.inf n, 0⟩
    | .fin _ m e _, .fin _ m' e' _ => ⟨.fin n (m * m') (e + e') false, 0⟩
    | _, _ => .invalid

/-- The exact a * b + c, rounded once later (R78): 0 times an infinity is invalid even with a quiet NaN addend. -/
def fmaExact (rm : Nat) (a b c : Val) : Exact :=
  let p := mulExact a b
  if c.isNan then ⟨.nan false, p.flags ||| raiseIf c.isSignalling Flags.nv⟩
  else if p.val.isNan then ⟨.nan false, p.flags⟩
  else let s := sumExact rm [p.val, c]; ⟨s.val, p.flags ||| s.flags⟩

/-- The quotient, cut after more bits than any rounding looks at (R78). -/
def divExact (a b : Val) : Exact :=
  if a.isNan || b.isNan then ⟨.nan false, raiseIf (a.isSignalling || b.isSignalling) Flags.nv⟩
  else
    let n := a.sign != b.sign
    match a, b with
    | .inf _, .inf _ => .invalid
    | .inf _, _ => ⟨.inf n, 0⟩
    | _, .inf _ => ⟨.zero n, 0⟩
    | .fin _ m e _, .fin _ m' e' _ =>
      if m' = 0 then (if m = 0 then .invalid else ⟨.inf n, Flags.dz⟩)
      else if m = 0 then ⟨.zero n, 0⟩
      else
        let num := m * 2 ^ 192
        ⟨.fin n (num / m') (e - e' - 192) (decide (num % m' ≠ 0)), 0⟩
    | _, _ => .invalid

/-- The integer square root by bits from 2^k down: the greatest r with r * r ≤ n, given r so far. -/
def isqrtFrom : Nat → Nat → Nat → Nat
  | 0, _, r => r
  | k + 1, n, r => let t := r + 2 ^ k; if t * t ≤ n then isqrtFrom k n t else isqrtFrom k n r

/-- The square root, cut after more bits than any rounding looks at (R78). -/
def sqrtExact (a : Val) : Exact :=
  match a with
  | .nan s => ⟨.nan false, raiseIf s Flags.nv⟩
  | .inf n => if n then .invalid else ⟨.inf false, 0⟩
  | .fin n m e _ =>
    if m = 0 then ⟨.zero n, 0⟩
    else if n then .invalid
    else
      let odd := e % 2 ≠ 0
      let m1 := (if odd then 2 * m else m) * 2 ^ 192
      let e1 := (if odd then e - 1 else e) - 192
      let r := isqrtFrom (Nat.log2 m1 / 2 + 1) m1 0
      ⟨.fin false r (e1 / 2) (decide (r * r ≠ m1)), 0⟩

/-- Order two values that are no NaN: less, equal or greater as -1, 0, 1; `zeros` orders -0 below +0 (R113). -/
def compareVal (zeros : Bool) (a b : Val) : Int :=
  if a.isZero && b.isZero then
    (if !zeros then 0 else if a.sign && !b.sign then -1 else if !a.sign && b.sign then 1 else 0)
  else
    match a, b with
    | .inf n, .inf n' => if n = n' then 0 else if n then -1 else 1
    | .inf n, _ => if n then -1 else 1
    | _, .inf n => if n then 1 else -1
    | _, _ =>
      let d := (sumScaled [a, b.neg]).1
      if d < 0 then -1 else if 0 < d then 1 else 0

/-- Round an exact result to a format, collecting the flags of both steps. -/
def Exact.round (x : Exact) (code rm : Nat) (gen : Word) : Rounded :=
  let r := Machine.round code rm false x.val gen
  ⟨r.code, x.flags ||| r.flags, r.gen⟩

/-- fmin (least = true) and fmax by encoding (R113). -/
def minMaxFloat (least : Bool) (code a b : Nat) : Nat × Flags :=
  let va := decodeFmt code a
  let vb := decodeFmt code b
  let fl := raiseIf (va.isSignalling || vb.isSignalling) Flags.nv
  let nan := match floatFmt code with
    | some f => canonicalNan f
    | none => 0
  if va.isNan && vb.isNan then (nan, fl)
  else if va.isNan then (b, fl)
  else if vb.isNan then (a, fl)
  else
    let c := compareVal true va vb
    (if least then (if c ≤ 0 then a else b) else (if 0 ≤ c then a else b), fl)

/-- fneg (negate = true) and fabs by encoding (R113). -/
def signFloat (negate : Bool) (code a : Nat) : Nat × Flags :=
  match floatFmt code with
  | none => (a, 0)
  | some f =>
    let v := decodeFloat f a
    if v.isNan then (canonicalNan f, raiseIf v.isSignalling Flags.nv)
    else
      let mag := a % 2 ^ (f.exp + f.frac)
      (if negate then signCode f (!v.sign) + mag else mag, 0)

/-- The comparisons of R113 and R141: 0 equal, 1 less, 2 less or equal, 3 unordered. -/
def compareFloat (op code a b : Nat) : Bool × Flags :=
  let va := decodeFmt code a
  let vb := decodeFmt code b
  let nan := va.isNan || vb.isNan
  let quiet := op = 0 || op = 3
  let fl := raiseIf (if quiet then va.isSignalling || vb.isSignalling else nan) Flags.nv
  if op = 3 then (nan, fl)
  else if nan then (false, fl)
  else
    let c := compareVal false va vb
    (match op with
     | 0 => decide (c = 0)
     | 1 => decide (c < 0)
     | _ => decide (c ≤ 0), fl)

/-- The class mask of a value (R114); `minNormal` tells normals from subnormals. -/
def classMask (code a : Nat) : Nat :=
  match floatFmt code with
  | none => 0
  | some f =>
    let v := decodeFloat f a
    let sub := decide (a / 2 ^ f.frac % 2 ^ f.exp = 0)
    match v with
    | .nan s => if s then 2 ^ 8 else 2 ^ 9
    | .inf n => if n then 2 ^ 0 else 2 ^ 7
    | .fin n m _ _ =>
      if m = 0 then (if n then 2 ^ 3 else 2 ^ 4)
      else if sub then (if n then 2 ^ 2 else 2 ^ 5)
      else (if n then 2 ^ 1 else 2 ^ 6)

end Sys2Proof.Machine
end

