-- ==== Sys2Proof/Syntax.lean ====
section
/-! DEFINITION. The instructions and steps of the BM-900: one constructor per row of the opcode table. An
instruction's fields carry the letters of its encoding (R84); a step that the part takes by itself carries
what it acts on, and what the outside world answers where the step depends on it. -/

namespace Sys2Proof

/-- What issues instructions: a facet context of a tile (by tile id, R17, R22) or a context of a crest core
(R25). -/
inductive Agent where
  | facet (tile : Fin 900) (facet : Fin 4) (ctx : Fin 11)
  | crest (core : Fin 32) (ctx : Fin 2)
deriving DecidableEq, Repr

/-- What owns two copy queues and a mailbox: a facet or a crest core (R234, R255). -/
inductive Owner where
  | facet (tile : Fin 900) (facet : Fin 4)
  | crest (core : Fin 32)
deriving DecidableEq, Repr

/-- What another device of the load-store domain answers to an access of this one (R63, R64): nothing where
the home is on this device, the bytes read or an acknowledgement, a refusal with its fault code. -/
inductive Reply where
  | own
  | data (bytes : List Byte)
  | refused (code : BitVec 8)
deriving DecidableEq, Repr

/-- The causes of a Signet alarm (R369). -/
inductive AlarmCause where
  | signature
  | window
  | tamper
deriving DecidableEq, Repr

/-- A Traverse packet (R377, R378): class 0 LS, 1 MSG, 2 BULK. A MSG or BULK packet is part of the port request numbered
`request` of its source, which carries `total` bytes from offset `start` of window `window` on; this packet's payload goes
to `offset`. An LS packet asks for an access of `total` bytes at address `offset`: `window` 0 a load, 1 a store, 2 to 11 the
atomics in the order of R125, 0x100 an answer. The spec gives no packet format (DESIGN CHOICE, log entry 21). -/
structure Packet where
  dest : Nat
  source : Nat
  cls : Nat
  key : BitVec 16
  window : Nat
  offset : Nat
  seq : Nat
  request : Nat
  start : Nat
  total : Nat
  payload : List Byte
deriving DecidableEq, Repr

/-- The instructions and steps of the part (the opcode table). Rows with fields come first, in the table's order,
then the part's own steps with what they act on, then the rows without fields. -/
inductive Instr where
  /-- FWCALL_UNKNOWN (R385). An fwcall with a call number that has no assignment returns x1 = all ones. -/
  | fwcallUnknown (n : BitVec 16)
  /-- TRAP (R169). Enters the kernel with class 1 and einfo set to the immediate. -/
  | trap (i : BitVec 16)
  /-- NOP (R90). A hint-region word executes as a no-operation. -/
  | nop (h : BitVec 28)
  /-- LONG (R92). Prefix that supplies the upper bits of a 42-bit immediate to an extendable instruction. -/
  | long (h : BitVec 26)
  /-- REP (R93). Prefix that repeats the following vector instruction with stepped register fields. -/
  | rep (c : BitVec 6) (d : BitVec 3) (a : BitVec 3) (b : BitVec 3)
  /-- ADD (R102). Adds two registers modulo 2^64. -/
  | add (d : BitVec 5) (a : BitVec 5) (b : BitVec 5)
  /-- SUB (R102). Subtracts two registers modulo 2^64. -/
  | sub (d : BitVec 5) (a : BitVec 5) (b : BitVec 5)
  /-- AND (R102). Bitwise AND of two registers. -/
  | and (d : BitVec 5) (a : BitVec 5) (b : BitVec 5)
  /-- OR (R102). Bitwise OR of two registers. -/
  | or (d : BitVec 5) (a : BitVec 5) (b : BitVec 5)
  /-- XOR (R102). Bitwise XOR of two registers. -/
  | xor (d : BitVec 5) (a : BitVec 5) (b : BitVec 5)
  /-- ANDN (R102). AND of one register with the complement of another. -/
  | andn (d : BitVec 5) (a : BitVec 5) (b : BitVec 5)
  /-- ORN (R102). OR of one register with the complement of another. -/
  | orn (d : BitVec 5) (a : BitVec 5) (b : BitVec 5)
  /-- SLL (R102). Logical shift left by a register amount. -/
  | sll (d : BitVec 5) (a : BitVec 5) (b : BitVec 5)
  /-- SRL (R102). Logical shift right by a register amount. -/
  | srl (d : BitVec 5) (a : BitVec 5) (b : BitVec 5)
  /-- SRA (R102). Arithmetic shift right by a register amount. -/
  | sra (d : BitVec 5) (a : BitVec 5) (b : BitVec 5)
  /-- ROL (R102). Rotate left by a register amount. -/
  | rol (d : BitVec 5) (a : BitVec 5) (b : BitVec 5)
  /-- SLT (R102). Sets 1 if one register is less than another, signed. -/
  | slt (d : BitVec 5) (a : BitVec 5) (b : BitVec 5)
  /-- SLTU (R102). Sets 1 if one register is less than another, unsigned. -/
  | sltu (d : BitVec 5) (a : BitVec 5) (b : BitVec 5)
  /-- MIN (R102). Signed minimum of two registers. -/
  | min (d : BitVec 5) (a : BitVec 5) (b : BitVec 5)
  /-- MAX (R102). Signed maximum of two registers. -/
  | max (d : BitVec 5) (a : BitVec 5) (b : BitVec 5)
  /-- MINU (R102). Unsigned minimum of two registers. -/
  | minu (d : BitVec 5) (a : BitVec 5) (b : BitVec 5)
  /-- MAXU (R102). Unsigned maximum of two registers. -/
  | maxu (d : BitVec 5) (a : BitVec 5) (b : BitVec 5)
  /-- LEA (R102). Adds a register shifted left by 0 to 3 to another. -/
  | lea (d : BitVec 5) (a : BitVec 5) (b : BitVec 5) (s : BitVec 2)
  /-- CLZ (R102). Counts leading zero bits. -/
  | clz (d : BitVec 5) (a : BitVec 5)
  /-- CTZ (R102). Counts trailing zero bits. -/
  | ctz (d : BitVec 5) (a : BitVec 5)
  /-- POPC (R102). Counts one bits. -/
  | popc (d : BitVec 5) (a : BitVec 5)
  /-- BSWAP (R102). Reverses the byte order of a register. -/
  | bswap (d : BitVec 5) (a : BitVec 5)
  /-- SEXT_B (R102). Sign-extends the low byte. -/
  | sextB (d : BitVec 5) (a : BitVec 5)
  /-- SEXT_H (R102). Sign-extends the low half. -/
  | sextH (d : BitVec 5) (a : BitVec 5)
  /-- SEXT_W (R102). Sign-extends the low word. -/
  | sextW (d : BitVec 5) (a : BitVec 5)
  /-- ZEXT_W (R102). Zero-extends the low word. -/
  | zextW (d : BitVec 5) (a : BitVec 5)
  /-- ADDI (R103). Adds a sign-extended or LONG-extended immediate. -/
  | addi (d : BitVec 5) (a : BitVec 5) (i : BitVec 16)
  /-- ANDI (R103). ANDs a zero-extended or LONG-extended immediate. -/
  | andi (d : BitVec 5) (a : BitVec 5) (i : BitVec 16)
  /-- ORI (R103). ORs a zero-extended or LONG-extended immediate. -/
  | ori (d : BitVec 5) (a : BitVec 5) (i : BitVec 16)
  /-- XORI (R103). XORs a zero-extended or LONG-extended immediate. -/
  | xori (d : BitVec 5) (a : BitVec 5) (i : BitVec 16)
  /-- SLTI (R103). Signed compare with an immediate. -/
  | slti (d : BitVec 5) (a : BitVec 5) (i : BitVec 16)
  /-- SLTIU (R103). Unsigned compare with a sign-extended immediate. -/
  | sltiu (d : BitVec 5) (a : BitVec 5) (i : BitVec 16)
  /-- LIH (R103). Shifts a register left by 16 and ORs in an immediate. -/
  | lih (d : BitVec 5) (a : BitVec 5) (i : BitVec 16)
  /-- SLLI (R105). Logical shift left by an immediate amount. -/
  | slli (d : BitVec 5) (a : BitVec 5) (h : BitVec 6)
  /-- SRLI (R105). Logical shift right by an immediate amount. -/
  | srli (d : BitVec 5) (a : BitVec 5) (h : BitVec 6)
  /-- SRAI (R105). Arithmetic shift right by an immediate amount. -/
  | srai (d : BitVec 5) (a : BitVec 5) (h : BitVec 6)
  /-- ROLI (R105). Rotate left by an immediate amount. -/
  | roli (d : BitVec 5) (a : BitVec 5) (h : BitVec 6)
  /-- MUL (R106). Low 64 bits of a product. -/
  | mul (d : BitVec 5) (a : BitVec 5) (b : BitVec 5)
  /-- MULH (R106). High 64 bits of a signed product. -/
  | mulh (d : BitVec 5) (a : BitVec 5) (b : BitVec 5)
  /-- MULHU (R106). High 64 bits of an unsigned product. -/
  | mulhu (d : BitVec 5) (a : BitVec 5) (b : BitVec 5)
  /-- MULHSU (R106). High 64 bits of a signed-by-unsigned product. -/
  | mulhsu (d : BitVec 5) (a : BitVec 5) (b : BitVec 5)
  /-- DIV (R106). Signed division, truncated, keeping the context busy 24 cycles. -/
  | div (d : BitVec 5) (a : BitVec 5) (b : BitVec 5)
  /-- DIVU (R106). Unsigned division. -/
  | divu (d : BitVec 5) (a : BitVec 5) (b : BitVec 5)
  /-- REM (R106). Signed remainder. -/
  | rem (d : BitVec 5) (a : BitVec 5) (b : BitVec 5)
  /-- REMU (R106). Unsigned remainder. -/
  | remu (d : BitVec 5) (a : BitVec 5) (b : BitVec 5)
  /-- B_EQ (R107). Branches when two registers are equal. -/
  | bEq (a : BitVec 5) (b : BitVec 5) (i : BitVec 12)
  /-- B_NE (R107). Branches when two registers differ. -/
  | bNe (a : BitVec 5) (b : BitVec 5) (i : BitVec 12)
  /-- B_LT (R107). Branches on signed less-than. -/
  | bLt (a : BitVec 5) (b : BitVec 5) (i : BitVec 12)
  /-- B_GE (R107). Branches on signed greater-or-equal. -/
  | bGe (a : BitVec 5) (b : BitVec 5) (i : BitVec 12)
  /-- B_LTU (R107). Branches on unsigned less-than. -/
  | bLtu (a : BitVec 5) (b : BitVec 5) (i : BitVec 12)
  /-- B_GEU (R107). Branches on unsigned greater-or-equal. -/
  | bGeu (a : BitVec 5) (b : BitVec 5) (i : BitVec 12)
  /-- B_KANY (R108). Branches when any in-scope mask lane is set. -/
  | bKany (a : BitVec 5) (b : BitVec 5) (i : BitVec 12)
  /-- B_KALL (R108). Branches when every in-scope mask lane is set. -/
  | bKall (a : BitVec 5) (b : BitVec 5) (i : BitVec 12)
  /-- B_KNONE (R108). Branches when no in-scope mask lane is set. -/
  | bKnone (a : BitVec 5) (b : BitVec 5) (i : BitVec 12)
  /-- J (R109). Jumps PC-relative. -/
  | j (i : BitVec 26)
  /-- JL (R109). Jumps PC-relative and links in x31. -/
  | jl (i : BitVec 26)
  /-- JR (R110). Jumps to a register target. -/
  | jr (a : BitVec 5)
  /-- JLR (R110). Jumps to a register target and links. -/
  | jlr (d : BitVec 5) (a : BitVec 5)
  /-- LD (R119). Loads 1 to 8 bytes from a register plus offset. -/
  | ld (d : BitVec 5) (a : BitVec 5) (s : BitVec 3) (i : BitVec 13)
  /-- ST (R119). Stores 1 to 8 bytes at a register plus offset. -/
  | st (d : BitVec 5) (a : BitVec 5) (s : BitVec 3) (i : BitVec 13)
  /-- LDX (R123). Loads with the space byte from a register. -/
  | ldx (d : BitVec 5) (a : BitVec 5) (b : BitVec 5) (s : BitVec 3)
  /-- STX (R123). Stores with the space byte from a register. -/
  | stx (d : BitVec 5) (a : BitVec 5) (b : BitVec 5) (s : BitVec 3)
  /-- LD_ACQ (R123). Load that is an acquire. -/
  | ldAcq (d : BitVec 5) (a : BitVec 5) (s : BitVec 3)
  /-- ST_REL (R123). Store that is a release. -/
  | stRel (d : BitVec 5) (a : BitVec 5) (s : BitVec 3)
  /-- RADDR (R124). Forms the aperture address of an offset in a rank's tile. -/
  | raddr (d : BitVec 5) (a : BitVec 5) (b : BitVec 5)
  /-- AMO_ADD (R126). Atomic add at the home, returning the old value. -/
  | amoAdd (d : BitVec 5) (a : BitVec 5) (b : BitVec 5) (o : BitVec 2) (w : BitVec 1)
  /-- AMO_SWAP (R126). Atomic swap at the home. -/
  | amoSwap (d : BitVec 5) (a : BitVec 5) (b : BitVec 5) (o : BitVec 2) (w : BitVec 1)
  /-- AMO_CAS (R126). Atomic compare-and-swap at the home. -/
  | amoCas (d : BitVec 5) (a : BitVec 5) (b : BitVec 5) (o : BitVec 2) (w : BitVec 1)
  /-- AMO_MIN (R126). Atomic signed minimum. -/
  | amoMin (d : BitVec 5) (a : BitVec 5) (b : BitVec 5) (o : BitVec 2) (w : BitVec 1)
  /-- AMO_MAX (R126). Atomic signed maximum. -/
  | amoMax (d : BitVec 5) (a : BitVec 5) (b : BitVec 5) (o : BitVec 2) (w : BitVec 1)
  /-- AMO_MINU (R126). Atomic unsigned minimum. -/
  | amoMinu (d : BitVec 5) (a : BitVec 5) (b : BitVec 5) (o : BitVec 2) (w : BitVec 1)
  /-- AMO_MAXU (R126). Atomic unsigned maximum. -/
  | amoMaxu (d : BitVec 5) (a : BitVec 5) (b : BitVec 5) (o : BitVec 2) (w : BitVec 1)
  /-- AMO_AND (R126). Atomic AND. -/
  | amoAnd (d : BitVec 5) (a : BitVec 5) (b : BitVec 5) (o : BitVec 2) (w : BitVec 1)
  /-- AMO_OR (R126). Atomic OR. -/
  | amoOr (d : BitVec 5) (a : BitVec 5) (b : BitVec 5) (o : BitVec 2) (w : BitVec 1)
  /-- AMO_XOR (R126). Atomic XOR. -/
  | amoXor (d : BitVec 5) (a : BitVec 5) (b : BitVec 5) (o : BitVec 2) (w : BitVec 1)
  /-- FENCE_ISSUE (R127). Records unperformed accesses of the given kinds in a fence token. -/
  | fenceIssue (t : BitVec 2) (k : BitVec 5)
  /-- FENCE_WAIT (R127). Parks until a fence token's recorded accesses are performed. -/
  | fenceWait (t : BitVec 2)
  /-- FENCE_TEST (R127). Tests without parking whether a fence token is complete. -/
  | fenceTest (d : BitVec 5) (t : BitVec 2)
  /-- MTX_LOCK (R130). Takes a tile mutex or parks as a waiter; an acquire. -/
  | mtxLock (b : BitVec 5)
  /-- MTX_TRY (R130). Takes a free mutex without waiting. -/
  | mtxTry (d : BitVec 5) (b : BitVec 5)
  /-- MTX_UNLOCK (R130). Releases a mutex, handing it to the head waiter. -/
  | mtxUnlock (b : BitVec 5)
  /-- SEM_P (R131). Takes a semaphore permit or parks; an acquire. -/
  | semP (b : BitVec 5)
  /-- SEM_V (R131). Gives a semaphore permit; a release. -/
  | semV (b : BitVec 5)
  /-- SEM_TRY (R131). Takes a permit without waiting. -/
  | semTry (d : BitVec 5) (b : BitVec 5)
  /-- SEM_RD (R131). Reads a semaphore's state and clears its overflow bit. -/
  | semRd (d : BitVec 5) (b : BitVec 5)
  /-- BEAD_START (R158). Starts the lowest free bead at a target with an argument. -/
  | beadStart (d : BitVec 5) (a : BitVec 5) (b : BitVec 5)
  /-- BEAD_WAIT (R159). Parks until a bead is not live; an acquire on completion. -/
  | beadWait (a : BitVec 5)
  /-- BEAD_LIVE (R159). Returns the mask of live beads. -/
  | beadLive (d : BitVec 5)
  /-- SRR (R165). Reads a special register. -/
  | srr (d : BitVec 5) (n : BitVec 12)
  /-- SRW (R165). Writes a special register, returning the old value. -/
  | srw (d : BitVec 5) (a : BitVec 5) (n : BitVec 12)
  /-- SRS (R165). Sets bits of a special register. -/
  | srs (d : BitVec 5) (a : BitVec 5) (n : BitVec 12)
  /-- SRC (R165). Clears bits of a special register. -/
  | src (d : BitVec 5) (a : BitVec 5) (n : BitVec 12)
  /-- FADD (R112). Scalar floating-point add, rounded once. -/
  | fadd (d : BitVec 5) (a : BitVec 5) (b : BitVec 5) (y : BitVec 1) (m : BitVec 3) (t : BitVec 1)
  /-- FSUB (R112). Scalar floating-point subtract. -/
  | fsub (d : BitVec 5) (a : BitVec 5) (b : BitVec 5) (y : BitVec 1) (m : BitVec 3) (t : BitVec 1)
  /-- FMUL (R112). Scalar floating-point multiply. -/
  | fmul (d : BitVec 5) (a : BitVec 5) (b : BitVec 5) (y : BitVec 1) (m : BitVec 3) (t : BitVec 1)
  /-- FDIV (R112). Scalar floating-point divide, busy 12 or 20 cycles. -/
  | fdiv (d : BitVec 5) (a : BitVec 5) (b : BitVec 5) (y : BitVec 1) (m : BitVec 3) (t : BitVec 1)
  /-- FSQRT (R112). Scalar floating-point square root. -/
  | fsqrt (d : BitVec 5) (a : BitVec 5) (y : BitVec 1) (m : BitVec 3) (t : BitVec 1)
  /-- FMADD (R112). Fused multiply-add into the destination, rounded once. -/
  | fmadd (d : BitVec 5) (a : BitVec 5) (b : BitVec 5) (y : BitVec 1) (m : BitVec 3) (t : BitVec 1)
  /-- FMIN (R113). Floating-point minimum. -/
  | fmin (d : BitVec 5) (a : BitVec 5) (b : BitVec 5) (t : BitVec 1)
  /-- FMAX (R113). Floating-point maximum. -/
  | fmax (d : BitVec 5) (a : BitVec 5) (b : BitVec 5) (t : BitVec 1)
  /-- FNEG (R113). Inverts the sign. -/
  | fneg (d : BitVec 5) (a : BitVec 5) (t : BitVec 1)
  /-- FABS (R113). Clears the sign. -/
  | fabs (d : BitVec 5) (a : BitVec 5) (t : BitVec 1)
  /-- FEQ (R113). Quiet floating-point equality. -/
  | feq (d : BitVec 5) (a : BitVec 5) (b : BitVec 5) (t : BitVec 1)
  /-- FLT (R113). Floating-point less-than. -/
  | flt (d : BitVec 5) (a : BitVec 5) (b : BitVec 5) (t : BitVec 1)
  /-- FLE (R113). Floating-point less-or-equal. -/
  | fle (d : BitVec 5) (a : BitVec 5) (b : BitVec 5) (t : BitVec 1)
  /-- FCLASS (R114). Writes the class mask of a value. -/
  | fclass (d : BitVec 5) (a : BitVec 5) (t : BitVec 1)
  /-- CVT (R117). Converts a scalar between formats with rounding and saturation. -/
  | cvt (d : BitVec 5) (a : BitVec 5) (g : BitVec 4) (s : BitVec 1) (m : BitVec 3) (f : BitVec 4) (y : BitVec 1)
  /-- VADD (R140). Vector integer add. -/
  | vadd (d : BitVec 5) (a : BitVec 5) (b : BitVec 5) (k : BitVec 3) (z : BitVec 1) (w : BitVec 2)
  /-- VSUB (R140). Vector integer subtract. -/
  | vsub (d : BitVec 5) (a : BitVec 5) (b : BitVec 5) (k : BitVec 3) (z : BitVec 1) (w : BitVec 2)
  /-- VMUL (R140). Vector integer multiply, low bits. -/
  | vmul (d : BitVec 5) (a : BitVec 5) (b : BitVec 5) (k : BitVec 3) (z : BitVec 1) (w : BitVec 2)
  /-- VMULH (R140). Vector integer multiply, signed high bits. -/
  | vmulh (d : BitVec 5) (a : BitVec 5) (b : BitVec 5) (k : BitVec 3) (z : BitVec 1) (w : BitVec 2)
  /-- VAND (R140). Vector AND. -/
  | vand (d : BitVec 5) (a : BitVec 5) (b : BitVec 5) (k : BitVec 3) (z : BitVec 1) (w : BitVec 2)
  /-- VOR (R140). Vector OR. -/
  | vor (d : BitVec 5) (a : BitVec 5) (b : BitVec 5) (k : BitVec 3) (z : BitVec 1) (w : BitVec 2)
  /-- VXOR (R140). Vector XOR. -/
  | vxor (d : BitVec 5) (a : BitVec 5) (b : BitVec 5) (k : BitVec 3) (z : BitVec 1) (w : BitVec 2)
  /-- VSLL (R140). Vector shift left. -/
  | vsll (d : BitVec 5) (a : BitVec 5) (b : BitVec 5) (k : BitVec 3) (z : BitVec 1) (w : BitVec 2)
  /-- VSRL (R140). Vector logical shift right. -/
  | vsrl (d : BitVec 5) (a : BitVec 5) (b : BitVec 5) (k : BitVec 3) (z : BitVec 1) (w : BitVec 2)
  /-- VSRA (R140). Vector arithmetic shift right. -/
  | vsra (d : BitVec 5) (a : BitVec 5) (b : BitVec 5) (k : BitVec 3) (z : BitVec 1) (w : BitVec 2)
  /-- VMIN (R140). Vector signed minimum. -/
  | vmin (d : BitVec 5) (a : BitVec 5) (b : BitVec 5) (k : BitVec 3) (z : BitVec 1) (w : BitVec 2)
  /-- VMAX (R140). Vector signed maximum. -/
  | vmax (d : BitVec 5) (a : BitVec 5) (b : BitVec 5) (k : BitVec 3) (z : BitVec 1) (w : BitVec 2)
  /-- VMINU (R140). Vector unsigned minimum. -/
  | vminu (d : BitVec 5) (a : BitVec 5) (b : BitVec 5) (k : BitVec 3) (z : BitVec 1) (w : BitVec 2)
  /-- VMAXU (R140). Vector unsigned maximum. -/
  | vmaxu (d : BitVec 5) (a : BitVec 5) (b : BitVec 5) (k : BitVec 3) (z : BitVec 1) (w : BitVec 2)
  /-- VABS (R140). Vector absolute value. -/
  | vabs (d : BitVec 5) (a : BitVec 5) (k : BitVec 3) (z : BitVec 1) (w : BitVec 2)
  /-- VMERGE (R140). Selects lanes of two vectors by a mask. -/
  | vmerge (d : BitVec 5) (a : BitVec 5) (b : BitVec 5) (k : BitVec 3) (w : BitVec 2)
  /-- VCMP_EQ (R140). Vector compare equal into a mask. -/
  | vcmpEq (d : BitVec 5) (a : BitVec 5) (b : BitVec 5) (k : BitVec 3) (z : BitVec 1) (w : BitVec 2)
  /-- VCMP_NE (R140). Vector compare not equal into a mask. -/
  | vcmpNe (d : BitVec 5) (a : BitVec 5) (b : BitVec 5) (k : BitVec 3) (z : BitVec 1) (w : BitVec 2)
  /-- VCMP_LT (R140). Vector signed less-than into a mask. -/
  | vcmpLt (d : BitVec 5) (a : BitVec 5) (b : BitVec 5) (k : BitVec 3) (z : BitVec 1) (w : BitVec 2)
  /-- VCMP_LTU (R140). Vector unsigned less-than into a mask. -/
  | vcmpLtu (d : BitVec 5) (a : BitVec 5) (b : BitVec 5) (k : BitVec 3) (z : BitVec 1) (w : BitVec 2)
  /-- VCMP_LE (R140). Vector signed less-or-equal into a mask. -/
  | vcmpLe (d : BitVec 5) (a : BitVec 5) (b : BitVec 5) (k : BitVec 3) (z : BitVec 1) (w : BitVec 2)
  /-- VCMP_LEU (R140). Vector unsigned less-or-equal into a mask. -/
  | vcmpLeu (d : BitVec 5) (a : BitVec 5) (b : BitVec 5) (k : BitVec 3) (z : BitVec 1) (w : BitVec 2)
  /-- VFADD (R141). Vector floating-point add. -/
  | vfadd (d : BitVec 5) (a : BitVec 5) (b : BitVec 5) (k : BitVec 3) (z : BitVec 1) (t : BitVec 2) (r : BitVec 2)
  /-- VFSUB (R141). Vector floating-point subtract. -/
  | vfsub (d : BitVec 5) (a : BitVec 5) (b : BitVec 5) (k : BitVec 3) (z : BitVec 1) (t : BitVec 2) (r : BitVec 2)
  /-- VFMUL (R141). Vector floating-point multiply. -/
  | vfmul (d : BitVec 5) (a : BitVec 5) (b : BitVec 5) (k : BitVec 3) (z : BitVec 1) (t : BitVec 2) (r : BitVec 2)
  /-- VFMA (R141). Vector fused multiply-add into the destination. -/
  | vfma (d : BitVec 5) (a : BitVec 5) (b : BitVec 5) (k : BitVec 3) (z : BitVec 1) (t : BitVec 2) (r : BitVec 2)
  /-- VFDIV (R141). Vector floating-point divide, with a busy period. -/
  | vfdiv (d : BitVec 5) (a : BitVec 5) (b : BitVec 5) (k : BitVec 3) (z : BitVec 1) (t : BitVec 2) (r : BitVec 2)
  /-- VFSQRT (R141). Vector floating-point square root. -/
  | vfsqrt (d : BitVec 5) (a : BitVec 5) (k : BitVec 3) (z : BitVec 1) (t : BitVec 2) (r : BitVec 2)
  /-- VFMIN (R141). Vector floating-point minimum. -/
  | vfmin (d : BitVec 5) (a : BitVec 5) (b : BitVec 5) (k : BitVec 3) (z : BitVec 1) (t : BitVec 2)
  /-- VFMAX (R141). Vector floating-point maximum. -/
  | vfmax (d : BitVec 5) (a : BitVec 5) (b : BitVec 5) (k : BitVec 3) (z : BitVec 1) (t : BitVec 2)
  /-- VFNEG (R141). Vector sign inversion. -/
  | vfneg (d : BitVec 5) (a : BitVec 5) (k : BitVec 3) (z : BitVec 1) (t : BitVec 2)
  /-- VFABS (R141). Vector sign clear. -/
  | vfabs (d : BitVec 5) (a : BitVec 5) (k : BitVec 3) (z : BitVec 1) (t : BitVec 2)
  /-- VFCMP_EQ (R141). Vector quiet floating-point equality into a mask. -/
  | vfcmpEq (d : BitVec 5) (a : BitVec 5) (b : BitVec 5) (k : BitVec 3) (z : BitVec 1) (t : BitVec 2)
  /-- VFCMP_LT (R141). Vector floating-point less-than into a mask. -/
  | vfcmpLt (d : BitVec 5) (a : BitVec 5) (b : BitVec 5) (k : BitVec 3) (z : BitVec 1) (t : BitVec 2)
  /-- VFCMP_LE (R141). Vector floating-point less-or-equal into a mask. -/
  | vfcmpLe (d : BitVec 5) (a : BitVec 5) (b : BitVec 5) (k : BitVec 3) (z : BitVec 1) (t : BitVec 2)
  /-- VFCMP_UN (R141). Vector unordered test into a mask. -/
  | vfcmpUn (d : BitVec 5) (a : BitVec 5) (b : BitVec 5) (k : BitVec 3) (z : BitVec 1) (t : BitVec 2)
  /-- VLD (R143). Contiguous vector load. -/
  | vld (d : BitVec 5) (a : BitVec 5) (k : BitVec 3) (z : BitVec 1) (w : BitVec 2)
  /-- VST (R143). Contiguous vector store. -/
  | vst (d : BitVec 5) (a : BitVec 5) (k : BitVec 3) (w : BitVec 2)
  /-- VLDS (R143). Strided vector load. -/
  | vlds (d : BitVec 5) (a : BitVec 5) (b : BitVec 5) (k : BitVec 3) (z : BitVec 1) (w : BitVec 2)
  /-- VSTS (R143). Strided vector store. -/
  | vsts (d : BitVec 5) (a : BitVec 5) (b : BitVec 5) (k : BitVec 3) (w : BitVec 2)
  /-- VLDX (R146). Indexed gather from the local alias. -/
  | vldx (d : BitVec 5) (a : BitVec 5) (b : BitVec 5) (k : BitVec 3) (z : BitVec 1) (w : BitVec 2)
  /-- VSTX (R146). Indexed scatter to the local alias. -/
  | vstx (d : BitVec 5) (a : BitVec 5) (b : BitVec 5) (k : BitVec 3) (w : BitVec 2)
  /-- VLDB (R142). Loads one element and broadcasts it to active lanes. -/
  | vldb (d : BitVec 5) (a : BitVec 5) (k : BitVec 3) (z : BitVec 1) (w : BitVec 2)
  /-- VPERM (R147). Permutes lanes by a vector of indices. -/
  | vperm (d : BitVec 5) (a : BitVec 5) (b : BitVec 5) (k : BitVec 3) (z : BitVec 1) (w : BitVec 2)
  /-- VSLIDE (R147). Slides lanes by a scalar count. -/
  | vslide (d : BitVec 5) (a : BitVec 5) (b : BitVec 5) (k : BitVec 3) (z : BitVec 1) (w : BitVec 2)
  /-- VBCAST (R147). Broadcasts a scalar to every lane. -/
  | vbcast (d : BitVec 5) (a : BitVec 5) (k : BitVec 3) (z : BitVec 1) (w : BitVec 2)
  /-- VEXT (R147). Extracts one lane to a scalar. -/
  | vext (d : BitVec 5) (a : BitVec 5) (b : BitVec 5) (w : BitVec 2)
  /-- VINS (R147). Inserts a scalar into one lane. -/
  | vins (d : BitVec 5) (a : BitVec 5) (b : BitVec 5) (w : BitVec 2)
  /-- VIDX (R147). Writes each lane's index. -/
  | vidx (d : BitVec 5) (k : BitVec 3) (z : BitVec 1) (w : BitVec 2)
  /-- VRED_ADD (R147). Sums active integer lanes into a scalar. -/
  | vredAdd (d : BitVec 5) (a : BitVec 5) (k : BitVec 3) (w : BitVec 2)
  /-- VRED_MIN (R147). Least active signed lane. -/
  | vredMin (d : BitVec 5) (a : BitVec 5) (k : BitVec 3) (w : BitVec 2)
  /-- VRED_MAX (R147). Greatest active signed lane. -/
  | vredMax (d : BitVec 5) (a : BitVec 5) (k : BitVec 3) (w : BitVec 2)
  /-- VSCAN_ADD (R147). Inclusive integer prefix sum over active lanes. -/
  | vscanAdd (d : BitVec 5) (a : BitVec 5) (k : BitVec 3) (z : BitVec 1) (w : BitVec 2)
  /-- VRED_FADD (R148). Exact floating-point sum of active lanes, rounded once. -/
  | vredFadd (d : BitVec 5) (a : BitVec 5) (k : BitVec 3) (t : BitVec 2)
  /-- VRED_FMIN (R148). Least active floating-point lane. -/
  | vredFmin (d : BitVec 5) (a : BitVec 5) (k : BitVec 3) (t : BitVec 2)
  /-- VRED_FMAX (R148). Greatest active floating-point lane. -/
  | vredFmax (d : BitVec 5) (a : BitVec 5) (k : BitVec 3) (t : BitVec 2)
  /-- VSCAN_FADD (R148). Floating-point prefix sums, each rounded once. -/
  | vscanFadd (d : BitVec 5) (a : BitVec 5) (k : BitVec 3) (z : BitVec 1) (t : BitVec 2)
  /-- KAND (R149). AND of two masks. -/
  | kand (d : BitVec 5) (a : BitVec 5) (b : BitVec 5)
  /-- KOR (R149). OR of two masks. -/
  | kor (d : BitVec 5) (a : BitVec 5) (b : BitVec 5)
  /-- KXOR (R149). XOR of two masks. -/
  | kxor (d : BitVec 5) (a : BitVec 5) (b : BitVec 5)
  /-- KNOT (R149). Complement of a mask. -/
  | knot (d : BitVec 5) (a : BitVec 5)
  /-- KMOV (R149). Copies a mask. -/
  | kmov (d : BitVec 5) (a : BitVec 5)
  /-- KPOPC (R149). Counts set mask bits into a scalar. -/
  | kpopc (d : BitVec 5) (a : BitVec 5)
  /-- KFIRST (R149). Index of the lowest set mask bit. -/
  | kfirst (d : BitVec 5) (a : BitVec 5)
  /-- KSET (R149). Sets a mask from a scalar register. -/
  | kset (d : BitVec 5) (a : BitVec 5)
  /-- VCVT (R151). Converts vector lanes between formats. -/
  | vcvt (d : BitVec 5) (a : BitVec 5) (f : BitVec 4) (t : BitVec 1) (k : BitVec 3) (z : BitVec 1) (g : BitVec 4) (m : BitVec 3)
  /-- VPACK (R152). Narrows two vectors into one. -/
  | vpack (d : BitVec 5) (a : BitVec 5) (b : BitVec 5) (k : BitVec 3) (z : BitVec 1) (t : BitVec 1) (w : BitVec 2)
  /-- VUNPACK (R152). Widens one half of a vector. -/
  | vunpack (d : BitVec 5) (a : BitVec 5) (h : BitVec 1) (k : BitVec 3) (z : BitVec 1) (u : BitVec 1) (w : BitVec 2)
  /-- MM_LOADW (R197). Joint: loads a weight block into the shadow plane. -/
  | mmLoadw (a : BitVec 5) (b : BitVec 5) (t : BitVec 8)
  /-- MM_STREAM (R199). Joint: streams activation rows through the active plane into the accumulators. -/
  | mmStream (a : BitVec 5) (b : BitVec 5) (t : BitVec 8)
  /-- MM_DRAIN (R200). Joint: checks and converts accumulator rows into a tensor. -/
  | mmDrain (a : BitVec 5) (b : BitVec 5) (t : BitVec 8)
  /-- MM_ZERO (R198). Joint: zeroes accumulator rows. -/
  | mmZero (a : BitVec 5)
  /-- MM_RDROW (R202). Reads an accumulator row into two vector registers. -/
  | mmRdrow (d : BitVec 5) (a : BitVec 5)
  /-- MM_SEQ (R206). Joint: runs a blocked product from a descriptor. -/
  | mmSeq (a : BitVec 5)
  /-- BZ_LOCATE (R221). Reports a single located bezel error. -/
  | bzLocate (d : BitVec 5)
  /-- BZ_FIX (R222). Joint: corrects the located accumulator element. -/
  | bzFix (d : BitVec 5) (a : BitVec 5)
  /-- BZ_RETRY (R223). Joint: replays the retry record into the batch range. -/
  | bzRetry (d : BitVec 5)
  /-- BZ_CLEAR (R225). Joint: clears the bezel record, retry record or window counts. -/
  | bzClear (a : BitVec 5)
  /-- BZ_INJECT (R224). Joint: adds a value to an accumulator or reference without updating checks. -/
  | bzInject (a : BitVec 5) (b : BitVec 5)
  /-- BZ_STAT (R225). Reads a bezel counter. -/
  | bzStat (d : BitVec 5) (a : BitVec 5)
  /-- TT_LOAD (R209). Joint: loads a tensor record into a table entry. -/
  | ttLoad (a : BitVec 5) (t : BitVec 8)
  /-- TT_SLICE (R209). Joint: rewrites an entry into this rank's part. -/
  | ttSlice (t : BitVec 8)
  /-- TT_RD (R209). Reads a doubleword of a tensor-table entry. -/
  | ttRd (d : BitVec 5) (n : BitVec 5) (t : BitVec 8)
  /-- TT_INVAL (R209). Joint: zeroes a tensor-table entry. -/
  | ttInval (t : BitVec 8)
  /-- CPY_PUSH (R236). Pushes a copy request, parking while the queue is full. -/
  | cpyPush (a : BitVec 5)
  /-- CPY_TRY (R236). Pushes a copy request or reports a full queue. -/
  | cpyTry (d : BitVec 5) (a : BitVec 5)
  /-- CPY_QUIESCE (R262). Kernel: spills or reloads the facet's network-interface state. -/
  | cpyQuiesce (a : BitVec 5)
  /-- MSG_SEND (R254). Sends a 16-byte message to a mailbox. -/
  | msgSend (a : BitVec 5) (b : BitVec 5)
  /-- MSG_SEND_REL (R254). Sends a message as a release. -/
  | msgSendRel (a : BitVec 5) (b : BitVec 5)
  /-- MSG_MCAST (R254). Sends a message to every tile of a rectangle. -/
  | msgMcast (a : BitVec 5) (b : BitVec 5)
  /-- MSG_MCAST_REL (R254). Multicasts a message as a release. -/
  | msgMcastRel (a : BitVec 5) (b : BitVec 5)
  /-- MBOX_POP (R252). Removes the oldest mailbox entry; an acquire on an entry. -/
  | mboxPop (d : BitVec 5)
  /-- MBOX_CNT (R252). Reports mailbox occupancy. -/
  | mboxCnt (d : BitVec 5)
  /-- TAG_LOOK (R259). Finds the tag-table slot holding an address. -/
  | tagLook (d : BitVec 5) (a : BitVec 5) (b : BitVec 5)
  /-- TAG_SET (R259). Sets a tag slot, clearing duplicates. -/
  | tagSet (a : BitVec 5) (b : BitVec 5)
  /-- TAG_CLR (R259). Reads and clears a tag slot. -/
  | tagClr (d : BitVec 5) (a : BitVec 5)
  /-- TAG_FLUSH (R259). Finds and cleans the next dirty tag slot. -/
  | tagFlush (d : BitVec 5) (a : BitVec 5)
  /-- Q_PUSH (R279). Pushes a 64-byte item to a work queue; a release. -/
  | qPush (d : BitVec 5) (a : BitVec 5) (b : BitVec 5)
  /-- Q_TRY (R279). Pushes an item or reports a quota refusal. -/
  | qTry (d : BitVec 5) (a : BitVec 5) (b : BitVec 5)
  /-- Q_DEQ (R280). Dequeues an item or parks as a waiter. -/
  | qDeq (d : BitVec 5) (a : BitVec 5) (b : BitVec 5)
  /-- Q_TDEQ (R280). Dequeues an item or reports empty. -/
  | qTdeq (d : BitVec 5) (a : BitVec 5) (b : BitVec 5)
  /-- Q_STAT (R281). Reads a queue's status and clears its Q bit. -/
  | qStat (d : BitVec 5) (b : BitVec 5)
  /-- Q_RESET (R282). Kernel: empties a queue and loads its descriptor or closes it. -/
  | qReset (a : BitVec 5) (b : BitVec 5)
  /-- TASK_NEXT (R289). Takes a ready task with an arena allotment, or waits. -/
  | taskNext (d : BitVec 5) (a : BitVec 5)
  /-- TASK_DONE (R290). Reports the held task complete and decrements its dependants. -/
  | taskDone (a : BitVec 5)
  /-- TASK_FAIL (R290). Marks the held task failed and pushes a fault record. -/
  | taskFail (a : BitVec 5) (b : BitVec 5)
  /-- TASK_REARM (R291). Re-releases a done or failed task. -/
  | taskRearm (a : BitVec 5)
  /-- TASK_SPAWN (R291). Arms a task control block with new counters. -/
  | taskSpawn (a : BitVec 5) (b : BitVec 5)
  /-- GANG_LAUNCH (R272). Crest kernel: pushes a launch record to the dispatch unit. -/
  | gangLaunch (d : BitVec 5) (a : BitVec 5)
  /-- CN_PUT (R305). Puts a key and payload into a Cairn pool; a release. -/
  | cnPut (a : BitVec 5) (b : BitVec 5) (p : BitVec 6)
  /-- CN_TAKE (R306). Takes an element from a Cairn pool, waiting for rounds. -/
  | cnTake (d : BitVec 5) (p : BitVec 6)
  /-- CN_TTAKE (R306). Takes an element without waiting. -/
  | cnTtake (d : BitVec 5) (p : BitVec 6)
  /-- CN_STAT (R307). Reads a field of a pool's latest summaries. -/
  | cnStat (d : BitVec 5) (b : BitVec 5) (p : BitVec 6)
  /-- CN_OPEN (R308). Kernel: opens a pool from a descriptor. -/
  | cnOpen (a : BitVec 5) (p : BitVec 6)
  /-- CN_CLOSE (R308). Kernel: closes a pool, completing waiters with result 3. -/
  | cnClose (p : BitVec 6)
  /-- BAR_ARRIVE (R134). Arrives at the open phase of a barrier channel; a release. -/
  | barArrive (d : BitVec 5) (b : BitVec 5)
  /-- BAR_WAIT (R134). Parks until a phase is complete; then an acquire. -/
  | barWait (a : BitVec 5) (b : BitVec 5)
  /-- BAR_TEST (R134). Tests whether a phase is complete. -/
  | barTest (d : BitVec 5) (a : BitVec 5) (b : BitVec 5)
  /-- BAR_CFG (R135). Sets this tile's membership of a barrier channel. -/
  | barCfg (a : BitVec 5) (b : BitVec 5)
  /-- TX_ENTER (R343). Enters bytecode mode at a function's first instruction. -/
  | txEnter (a : BitVec 5) (b : BitVec 5)
  /-- TX_RESUME (R344). Returns to bytecode mode at an address. -/
  | txResume (a : BitVec 5)
  /-- TX_RESUME_SKIP (R344). Returns to bytecode mode past the instruction at an address. -/
  | txResumeSkip (a : BitVec 5)
  /-- IC_GET (R342). Reads an inline-cache entry whole. -/
  | icGet (d : BitVec 5) (a : BitVec 5)
  /-- IC_SET (R342). Writes an inline-cache entry whole; a release. -/
  | icSet (a : BitVec 5) (b : BitVec 5)
  /-- IC_CLR (R342). Empties an inline-cache entry; a release. -/
  | icClr (a : BitVec 5)
  /-- HOLD_ADD (R349). Changes an object's hold, applying the zombie rule. -/
  | holdAdd (d : BitVec 5) (a : BitVec 5) (b : BitVec 5)
  /-- TX_RELQ (R351). Pops the oldest release-queue entry; an acquire. -/
  | txRelq (d : BitVec 5)
  /-- TX_RELQ_REL (R351). Applies a counted release to a value. -/
  | txRelqRel (a : BitVec 5)
  /-- TX_RELQ_STAT (R351). Reads release-queue status and clears OVF and HERR. -/
  | txRelqStat (d : BitVec 5)
  /-- TX_RELQ_CFG (R350). Kernel: loads the release-queue scree descriptor. -/
  | txRelqCfg (a : BitVec 5)
  /-- TX_CLSVER (R345). Bumps a class's version; a release. -/
  | txClsver (d : BitVec 5) (a : BitVec 5)
  /-- TSUPIX_MOVE (R328). Counted copy of one frame register to another. -/
  | tsupixMove (b : BitVec 8) (a : BitVec 8)
  /-- TSUPIX_LOADK (R328). Loads a constant into a frame register. -/
  | tsupixLoadk (k : BitVec 16) (a : BitVec 8)
  /-- TSUPIX_LOADI (R328). Loads a small integer immediate. -/
  | tsupixLoadi (k : BitVec 16) (a : BitVec 8)
  /-- TSUPIX_DROP (R328). Sets a frame register to None, releasing its value. -/
  | tsupixDrop (a : BitVec 8)
  /-- TSUPIX_GETGLOBAL (R338). Reads a global through its inline cache. -/
  | tsupixGetglobal (a : BitVec 8) (x : BitVec 8) (y : BitVec 8) (i : BitVec 16)
  /-- TSUPIX_SETGLOBAL (R338). Writes a global through its inline cache. -/
  | tsupixSetglobal (a : BitVec 8) (x : BitVec 8) (y : BitVec 8) (i : BitVec 16)
  /-- TSUPIX_GETATTR (R338). Reads an attribute through its inline cache. -/
  | tsupixGetattr (a : BitVec 8) (x : BitVec 8) (y : BitVec 8) (i : BitVec 16)
  /-- TSUPIX_SETATTR (R338). Writes an attribute through its inline cache. -/
  | tsupixSetattr (a : BitVec 8) (x : BitVec 8) (y : BitVec 8) (i : BitVec 16)
  /-- TSUPIX_GETITEM (R338). Reads a tuple or list item through its inline cache. -/
  | tsupixGetitem (a : BitVec 8) (x : BitVec 8) (y : BitVec 8) (i : BitVec 16)
  /-- TSUPIX_SETITEM (R338). Writes a list item through its inline cache. -/
  | tsupixSetitem (a : BitVec 8) (x : BitVec 8) (y : BitVec 8) (i : BitVec 16)
  /-- TSUPIX_ADD (R328). Small-integer add. -/
  | tsupixAdd (c : BitVec 8) (b : BitVec 8) (a : BitVec 8)
  /-- TSUPIX_SUB (R328). Small-integer subtract. -/
  | tsupixSub (c : BitVec 8) (b : BitVec 8) (a : BitVec 8)
  /-- TSUPIX_MUL (R328). Small-integer multiply. -/
  | tsupixMul (c : BitVec 8) (b : BitVec 8) (a : BitVec 8)
  /-- TSUPIX_TRUEDIV (R328). True division, always left to the runtime. -/
  | tsupixTruediv (c : BitVec 8) (b : BitVec 8) (a : BitVec 8)
  /-- TSUPIX_FLOORDIV (R328). Small-integer floor division. -/
  | tsupixFloordiv (c : BitVec 8) (b : BitVec 8) (a : BitVec 8)
  /-- TSUPIX_MOD (R328). Small-integer modulo. -/
  | tsupixMod (c : BitVec 8) (b : BitVec 8) (a : BitVec 8)
  /-- TSUPIX_MATMUL (R328). Matrix multiply, always left to the runtime. -/
  | tsupixMatmul (c : BitVec 8) (b : BitVec 8) (a : BitVec 8)
  /-- TSUPIX_NEG (R328). Small-integer negation. -/
  | tsupixNeg (b : BitVec 8) (a : BitVec 8)
  /-- TSUPIX_LT (R328). Small-integer less-than. -/
  | tsupixLt (c : BitVec 8) (b : BitVec 8) (a : BitVec 8)
  /-- TSUPIX_LE (R328). Small-integer less-or-equal. -/
  | tsupixLe (c : BitVec 8) (b : BitVec 8) (a : BitVec 8)
  /-- TSUPIX_EQ (R328). Word equality of small integers or immediates. -/
  | tsupixEq (c : BitVec 8) (b : BitVec 8) (a : BitVec 8)
  /-- TSUPIX_NOT (R328). Logical negation of a truth value. -/
  | tsupixNot (b : BitVec 8) (a : BitVec 8)
  /-- TSUPIX_JMP (R328). Unconditional bytecode jump. -/
  | tsupixJmp (j : BitVec 24)
  /-- TSUPIX_JMPIF (R328). Jumps when a value is true. -/
  | tsupixJmpif (k : BitVec 16) (a : BitVec 8)
  /-- TSUPIX_JMPIFNOT (R328). Jumps when a value is false. -/
  | tsupixJmpifnot (k : BitVec 16) (a : BitVec 8)
  /-- TSUPIX_FORITER (R329). Counts through a range or jumps at its end. -/
  | tsupixForiter (k : BitVec 16) (a : BitVec 8)
  /-- TSUPIX_CALL (R330). Calls a bytecode function, building a new frame. -/
  | tsupixCall (a : BitVec 8) (x : BitVec 8) (y : BitVec 8) (i : BitVec 16)
  /-- TSUPIX_TCALL (R347). Guarded tensor call: raises holds and pushes a work item. -/
  | tsupixTcall (a : BitVec 8) (x : BitVec 8) (y : BitVec 8) (i : BitVec 16)
  /-- TSUPIX_RETURN (R331). Returns a value to the caller or to Lanivo, releasing the frame. -/
  | tsupixReturn (a : BitVec 8)
  /-- TSUPIX_NEWTUPLE (R332). Allocates a tuple from frame registers. -/
  | tsupixNewtuple (c : BitVec 8) (b : BitVec 8) (a : BitVec 8)
  /-- TSUPIX_NEWLIST (R332). Allocates a list from frame registers. -/
  | tsupixNewlist (c : BitVec 8) (b : BitVec 8) (a : BitVec 8)
  /-- TSUPIX_NEWDICT (R328). New dictionary, always left to the runtime. -/
  | tsupixNewdict (a : BitVec 8)
  /-- TSUPIX_NEWOBJ (R339). Allocates an instance through its inline cache. -/
  | tsupixNewobj (a : BitVec 8) (x : BitVec 8) (y : BitVec 8) (i : BitVec 16)
  /-- TSUPIX_TSYNC (R333). Parks until a tensor's hold is zero; an acquire. -/
  | tsupixTsync (a : BitVec 8)
  /-- TSUPIX_RAISE (R334). Raises an exception, always left to the runtime. -/
  | tsupixRaise (a : BitVec 8)
  /-- TSUPIX_TRY (R334). Pushes a handler record. -/
  | tsupixTry (j : BitVec 24)
  /-- TSUPIX_NATIVE (R325). Leaves bytecode mode to a native-table entry. -/
  | tsupixNative (k : BitVec 16) (a : BitVec 8)
  /-- LATE_FAULT (R174). A refusal returned after its instruction retired is taken at the next boundary. -/
  | lateFault (a : Agent)
  /-- USER_INTERRUPT_DELIVERY (R176). A pending copy completion or BEZEL is delivered to the user handler. -/
  | userInterruptDelivery (a : Agent)
  /-- PARK_WAKE (R32). A parked context becomes ready once its condition holds. -/
  | parkWake (a : Agent)
  /-- BUSY_END (R101). A multi-cycle operation ends and its context becomes ready. -/
  | busyEnd (a : Agent)
  /-- REMOTE_VALUE_RETURN (R46). A remote load or atomic's value returns and unblocks its context. -/
  | remoteValueReturn (a : Agent)
  /-- HOME_ACCESS (R43). An access arriving at its home is checked and performed. -/
  | homeAccess (id : Nat) (reply : Reply)
  /-- HEARTBEAT_MISS (R163). The heartbeat timer reaches 0 and the facet is fenced. -/
  | heartbeatMiss (t : Fin 900) (f : Fin 4)
  /-- HBMISS (R164). HBMISS notices go to neighbour mailboxes and a fault record to the kernel. -/
  | hbmiss (t : Fin 900) (f : Fin 4)
  /-- PREEMPTION (R183). A pre-emption request saves a tile's contexts and engine state. -/
  | preemption (t : Fin 900)
  /-- MATRIX_ENTRY_START (R194). The next matrix-queue entry starts once the one before completes. -/
  | matrixEntryStart (t : Fin 900)
  /-- BARRIER_PHASE_COMPLETE (R133). A barrier phase completes once every tile has reported it. -/
  | barrierPhaseComplete (slot : Fin 256) (ch : Fin 16)
  /-- COPY (R241). A flat or tensor copy request runs once it leaves its queue. -/
  | copy (o : Owner) (q : Fin 2)
  /-- GATHER (R242). A gather request copies indexed rows. -/
  | gather (o : Owner) (q : Fin 2)
  /-- SCATTER (R242). A scatter request writes rows to indexed positions. -/
  | scatter (o : Owner) (q : Fin 2)
  /-- FILL (R243). A fill request writes a pattern. -/
  | fill (o : Owner) (q : Fin 2)
  /-- MCAST (R243). A multicast request writes one source to every tile of a rectangle. -/
  | mcast (o : Owner) (q : Fin 2)
  /-- QFENCE (R56). A qfence holds the named queues until earlier entries are performed. -/
  | qfence (o : Owner) (q : Fin 2)
  /-- REDUCE_ADD (R241). A reduce.add request adds source elements into destinations indivisibly. -/
  | reduceAdd (o : Owner) (q : Fin 2)
  /-- PORT (R244). A port request hands a buffer to a port's transmit engine. -/
  | port (o : Owner) (q : Fin 2) (reply : BitVec 8)
  /-- TLBINV (R261). A tlbinv request invalidates translations device-wide. -/
  | tlbinv (o : Owner) (q : Fin 2)
  /-- COMPLETION (R58). A copy completion is placed in the mailbox once its writes are performed and an entry is free. -/
  | completion (o : Owner) (q : Fin 2)
  /-- SEMAPHORE_V (R239). A copy request's semaphore-V reaches a destination tile. -/
  | semaphoreV (o : Owner) (q : Fin 2)
  /-- MESSAGE_DELIVERY (R254). A message reaches its destination mailbox or is refused. -/
  | messageDelivery (id : Nat)
  /-- HOLDREL (R348). A HOLDREL message lowers an object's hold at a crest core. -/
  | holdrel (id : Nat)
  /-- TRESUME (R362). A TRESUME message ends a translation park with a resolution. -/
  | tresume (id : Nat)
  /-- TRANSLATION_WALK (R359). A walker translates a missed page once free. -/
  | translationWalk (a : Agent)
  /-- LAUNCH_CHECK (R272). The firmware checks a launch record and refuses or accepts it. -/
  | launchCheck (u : Fin 4) (ticket : BitVec 32)
  /-- GANG_BIND (R274). A free rectangle is bound and the gang placed. -/
  | gangBind (u : Fin 4) (ticket : BitVec 32) (slot : Fin 256) (x0 : Fin 30) (y0 : Fin 30)
  /-- GANG_END (R275). The gang ends once every control context has exited and queues are done. -/
  | gangEnd (slot : Fin 256)
  /-- DISPATCH_MESSAGE (R272). A held dispatch message is placed when the mailbox frees. -/
  | dispatchMessage (u : Fin 4)
  /-- QUANTUM_START (R269). The firmware rereads RCBs at the start of a quantum. -/
  | quantumStart (slot : Fin 256)
  /-- TASK_DECREMENT (R286). A dependence or join counter is decremented at its home. -/
  | taskDecrement (u : Fin 4)
  /-- ROUND_BOUNDARY (R313). A Cairn round ends: summaries, admissions, rebalancing and waiting takes. -/
  | roundBoundary (p : Fin 64)
  /-- CAIRN_STEAL (R300). A forwarded steal is served at the victim shard. -/
  | cairnSteal (p : Fin 64)
  /-- KERNEL_CRASH (R365). A panic or crest hardware fault freezes tiles and resets crest cores. -/
  | kernelCrash (cause : BitVec 8)
  /-- LIVE_UPDATE (R384). The standby boots a new image and takes over at a request boundary. -/
  | liveUpdate (signatureOk : Bool) (level : BitVec 16)
  /-- SIGNET_ALARM (R369). A signature failure, window access or tamper raises the alarm. -/
  | signetAlarm (cause : AlarmCause) (agent : BitVec 16)
  /-- COLD_START (R386). Power-up runs self-test and bring-up. -/
  | coldStart (bad : List (Nat × Nat)) (routersOk : Bool)
  /-- CLOCK_STEP (R27). The power manager steps the tile clock. -/
  | clockStep (mhz : BitVec 16)
  /-- RTAIL (R376). A host write of the ring tail index is checked and accepted or sets TAILJUMP. -/
  | rtail (v : BitVec 16)
  /-- RFIX (R376). A host write of RFIX repairs the ring indices. -/
  | rfix (v : BitVec 64)
  /-- REGISTER_WRITE (R373). A host write to a BAR0 register without its own row. -/
  | registerWrite (off : BitVec 16) (v : BitVec 64)
  /-- BAR2_ACCESS (R62). A host access through BAR2 is performed at its homes. -/
  | bar2Access (addr : BitVec 64) (n : Nat) (write : Option (BitVec 512))
  /-- PACKET_RECEIVE (R378). A Traverse packet is received, checked and written. -/
  | packetReceive (port : Fin 12) (p : Packet)
  /-- LS_GAP_TIMEOUT (R64). An unfilled LS gap discards held arrivals with LINKLOST. -/
  | lsGapTimeout (port : Fin 12) (ids : List Nat)
  /-- LINK_FAILURE (R382). A failed lane or port is removed and notices are sent. -/
  | linkFailure (port : Fin 12) (lanesLeft : Nat)
  /-- ROUTING_ENTRY_WRITE (R381). The fabric manager writes a routing entry. -/
  | routingEntryWrite (port : Fin 12) (dest : BitVec 13) (v : BitVec 32)
  /-- KEY_ENTRY_WRITE (R380). The fabric manager writes a partition key entry. -/
  | keyEntryWrite (port : Fin 12) (ingress : Bool) (i : Fin 64) (v : BitVec 32)
  /-- DOMAIN_TABLE_WRITE (R383). The fabric manager writes a domain table entry. -/
  | domainTableWrite (n : BitVec 8) (v : BitVec 64)
  /-- CODEWIN (R83). A fetch outside the context's code window traps CODEWIN precisely, with einfo holding the address whose fetch failed. -/
  | codewin (addr : BitVec 64)
  /-- TSUPIX_UNASSIGNED_OPCODE (R327). A bytecode fetch of opcode byte 0x27 to 0xFF, or at a bpc that is odd or outside the code, leaves by TXILL. -/
  | tsupixUnassignedOpcode (op : BitVec 8)
  /-- MBOXIN_UNKNOWN_COMMAND (R374). A mailbox request with an unlisted command is answered with command 0x7F and code ILLEGAL. -/
  | mboxinUnknownCommand (cmd : BitVec 8)
  /-- CRC_BURST (R367). A CRC burst on a link lane is counted under the window rule, and the lane fails when the count reaches the threshold. -/
  | crcBurst (port : Fin 12) (lane : Fin 8)
  /-- PORT_RECOVERY (R382). A failed lane or port recovers, and its port returns to the output and adaptive sets of the stored entries. -/
  | portRecovery (port : Fin 12)
  /-- RUNOFF (R90). An all-zero instruction word traps RUNOFF precisely. -/
  | runoff
  /-- KRET (R172). Returns from a kernel handler, or restores the facet when estat.PE is 1. -/
  | kret
  /-- UIRET (R177). Leaves a user-level interrupt handler, restoring the ordinary bank and the held repidx. -/
  | uiret
  /-- HALT (R173). Ends a bead, or releases and halts a control context with a halt notice to the kernel. -/
  | halt
  /-- WFI (R173). Parks at user privilege until a user-level interrupt is deliverable or pre-emption arrives. -/
  | wfi
  /-- FWCALL_FIRMWARE_LEVEL (R385). Firmware call 0x0000 returns the firmware level. -/
  | fwcallFirmwareLevel
  /-- FWCALL_REGION_TEARDOWN (R283). Firmware call 0x0001 tears down the region whose RCB is in x1. -/
  | fwcallRegionTeardown
  /-- FWCALL_FAULT_DOMAIN_TEARDOWN (R270). Firmware call 0x0002 tears down every region of the fault domain in x1. -/
  | fwcallFaultDomainTeardown
  /-- FWCALL_PANIC (R365). Firmware call 0x0010 declares a kernel crash. -/
  | fwcallPanic
  /-- FWCALL_THAW (R366). Firmware call 0x0011 asserts THAW after re-adoption. -/
  | fwcallThaw
  /-- FWCALL_REGISTER_NOTICE_CONTEXT (R382). Firmware call 0x0020 registers the context that receives link notices. -/
  | fwcallRegisterNoticeContext
  /-- FWCALL_SET_RECEIVE_WINDOW (R378). Firmware call 0x0030 sets or clears a Traverse receive window. -/
  | fwcallSetReceiveWindow
  /-- FWCALL_READ_DOMAIN_ENTRY (R385). Firmware call 0x0040 reads a domain table entry. -/
  | fwcallReadDomainEntry
  /-- FUTURE (R90). A word of a reserved major traps FUTURE precisely to the emulation vector. -/
  | future
  /-- BEAD_END (R159). Releases and ends the executing bead. -/
  | beadEnd
  /-- HBEAT (R162). Reloads the facet's heartbeat timer. -/
  | hbeat
  /-- MM_SWAP (R198). Joint: exchanges the active and shadow planes. -/
  | mmSwap
  /-- MM_WAIT (R202). Parks until earlier matrix entries complete; an acquire. -/
  | mmWait
  /-- MM_SAVE (R203). Joint kernel instruction that saves the matrix state. -/
  | mmSave
  /-- MM_REST (R203). Joint kernel instruction that reloads the matrix state. -/
  | mmRest
  /-- MM_SYNC (R202). Joint barrier among the four control contexts. -/
  | mmSync
  /-- MBOX_WAIT (R252). Parks until the context has a mailbox entry. -/
  | mboxWait
  /-- GANG_EXIT (R275). Ends the executing control context after its beads end. -/
  | gangExit
  /-- TSUPIX_NOP (R328). Bytecode no-operation. -/
  | tsupixNop
  /-- TSUPIX_POPTRY (R334). Pops a handler record. -/
  | tsupixPoptry
  /-- FREEZE (R185). Every facet context becomes frozen at its next boundary. -/
  | freeze
  /-- THAW (R185). Frozen contexts return to the states they would have had. -/
  | thaw
  /-- FAULT_RECORD_REOFFER (R361). The management complex offers held fault records again. -/
  | faultRecordReoffer
  /-- TAKEOVER (R384). The standby complex takes over after ten missed heartbeat answers. -/
  | takeover
  /-- LEVELS (R374). Mailbox command 0x01 returns the levels. -/
  | levels
  /-- STATUS (R374). Mailbox command 0x02 returns device status. -/
  | status
  /-- ALARMLOG (R374). Mailbox command 0x03 reads an alarm log entry. -/
  | alarmlog
  /-- CRASH (R374). Mailbox command 0x04 reports kernel crashes. -/
  | crash
  /-- DIBREAD (R374). Mailbox command 0x05 reads half a DIB doubleword. -/
  | dibread
  /-- MBOXOUT_READ (R374). A host read of MBOXOUT clears MBOXV. -/
  | mboxoutRead
  /-- KERNEL_CRASH_NOTICE (R374). Notice 0x81 reports a kernel crash. -/
  | kernelCrashNotice
  /-- SIGNET_ALARM_NOTICE (R374). Notice 0x82 reports a Signet alarm. -/
  | signetAlarmNotice
  /-- MAPFAIL (R374). Notice 0x83 reports a failed map. -/
  | mapfail
  /-- BRING_UP_COMPLETE (R374). Notice 0x84 reports bring-up complete. -/
  | bringUpComplete
  /-- FROZEN_NOTICE (R374). Notice 0x85 reports a freeze after a second crash. -/
  | frozenNotice
  /-- RING_HOST_TO_DEVICE (R375). Ring op 1 moves bytes from host to device. -/
  | ringHostToDevice
  /-- RING_DEVICE_TO_HOST (R375). Ring op 2 moves bytes from device to host. -/
  | ringDeviceToHost
  /-- RING_MESSAGE (R375). Ring op 3 places a message at a crest core. -/
  | ringMessage
  /-- ILLEGAL (R90). A word with an unassigned major, or an unassigned function, selector or condition code of a defined major, traps ILLEGAL precisely with the word in einfo. -/
  | illegal
  /-- WARM_REBOOT (R366). After a kernel crash the resident kernel reboots on the reset crest cores and re-adopts the objects listed in the context registry. -/
  | warmReboot
deriving DecidableEq, Repr

end Sys2Proof
end

