-- ==== Sys2Proof/Machine/State.lean ====
section
/-! DEFINITION. The state of the part: everything the spec gives the machine, as plain data, the reasons a step can
stop, and the state right after bring-up. -/

namespace Sys2Proof.Machine

/-! ### Contexts -/

/-- Why a context is parked (R32, R156, R396); the data says what it waits for. `resolved` is a translation park that a TRESUME
has ended with a fault while FREEZE holds: the fault is taken after THAW (R362). -/
inductive Park where
  | mailbox
  | queue
  | semaphore (s : Nat)
  | mutex (m : Nat)
  | barrier (ch : Nat) (phase : BitVec 32)
  | arrive (ch : Nat)
  | fence (token : Nat)
  | bead (n : Nat)
  | beads
  | translation (va : Word) (space : Byte) (kind : Nat) (tag : Option (BitVec 16))
  | resolved (code : Byte) (va : Word)
  | wfi
  | clasp
  | matrix (entry : Nat)
  | matrixWait (entry : Nat)
  | row (r : Nat)
  | task
  | cairn
  | copyFull (q : Nat)
  | order
  | quiesce
  | tsync (tensor : Word)
deriving DecidableEq, Repr

/-- The state of a context (R156). `busy` runs until a tile cycle; `ringBusy` until the coprocessor-ring entry it
needs closes (R175); `blocked` until a remote value returns (R46). -/
inductive Run where
  | notLive
  | ready
  | busy (until_ : Nat)
  | ringBusy
  | parked (why : Park)
  | blocked
  | saved
  | halted
deriving DecidableEq, Repr

/-- A late fault waiting for its context's next instruction boundary (R122, R174). `id` is the number of the access, message or
entry that was refused, by which a token may have recorded it (R53); `matrix` says that a matrix queue entry raised it (R293). -/
structure LateFault where
  code : Byte
  info : Word
  ring : Option (BitVec 16)
  id : Option Nat
  matrix : Bool
deriving DecidableEq, Repr

/-- A user-level interrupt pending to a context (R176): kind 1 a copy completion (its two doublewords), kind 2 BEZEL
(the epc of the mm.drain). -/
structure UserInt where
  kind : Nat
  lo : Word
  hi : Word
deriving DecidableEq, Repr

/-- What abandoning a busy operation puts back (R101, R139): the values before it. DESIGN CHOICE, log entry 12. -/
structure Undo where
  pc : Word
  repidx : BitVec 6
  fflags : BitVec 6
  srgen : Word
  x : Option (BitVec 5 × Word)
  v : Option (BitVec 5 × Vec)
deriving DecidableEq, Repr

/-- A fence token: the copy requests, matrix entries, stores and messages it records, by their numbers (R52). -/
structure Token where
  ids : List Nat
deriving DecidableEq, Repr

/-- One hardware context: its registers (R22, R87, R166) and its state (R156). `x` holds the live bank of x24 to x31,
`shadow` the other of the ordinary and the user shadow bank (R176), `kbank` the kernel bank (R171). -/
structure Ctx where
  x : Vector Word 32
  v : Vector Vec 32
  k : Vector Word 8
  pc : Word
  run : Run
  frozen : Bool
  epc : Word
  ecause : Word
  einfo : Word
  estat : Word
  tvec : Word
  uvec : Word
  fflags : BitVec 6
  frm : BitVec 3
  srgen : Word
  spc : Byte
  cwin : Word
  repidx : BitVec 6
  heldRep : BitVec 6
  rank : Word
  gangid : Word
  gangw : Word
  gangh : Word
  cringSel : BitVec 7
  shadow : Vector Word 8
  kbank : Vector Word 8
  tokens : Vector Token 4
  late : List LateFault
  pending : List UserInt
  bytecode : Bool
  undo : Option Undo
deriving DecidableEq, Repr

/-! ### Network interface of a facet or crest core -/

/-- An entry of the coprocessor ring (R175). -/
structure RingEntry where
  pc : Word
  word : Insn
  ops : List Word
  seq : BitVec 16
  open_ : Bool
deriving DecidableEq, Repr

/-- What a copy request that has left its queue still has to do, in the order of R245: a flat piece of n bytes at a destination;
a piece for a rectangle, read once, and its writes; a row of a window with its pieces, by the columns of their elements; a row of
a gather or scatter, whose index it reads first; the counting of such a row. -/
inductive CopyItem where
  | flat (at_ n : Nat)
  | rect (off n : Nat)
  | rectTile (tile off n data : Nat) (last : Bool)
  | row (y : Nat)
  | piece (s1 d1 : Nat) (xs : List Nat)
  | index (r : Nat)
  | counted
deriving DecidableEq, Repr

/-- The tensor records that a request names: source, destination, index. -/
structure CopyRecs where
  src : Option Vec
  dst : Option Vec
  idx : Option Vec
deriving DecidableEq, Repr

/-- A copy request on its way through its pieces: what is left, the records it read when it left (R234), the flags of reduce.add.
-/
structure CopyWork where
  todo : List CopyItem
  recs : CopyRecs
  flags : BitVec 6
deriving DecidableEq, Repr

/-- How far a copy request has come (R234): queued; a qfence satisfied; left, with pieces still to perform (log entry 33); its
accesses done and its semaphore-V destinations still to signal; its completion still to place. -/
inductive CopyPhase where
  | queued
  | fenced
  | running (w : CopyWork)
  | signalling
  | completing
deriving DecidableEq, Repr

/-- A request in a copy queue (R234, R237): its words, what the push captured (`after` the accesses that REL waits for),
and its outcome; `targets` are the tiles still to signal, with the aperture address where a V arrives through the
aperture (R239), `used` the tiles it has written. A request with no words is the mark of a qfence pushed to another
queue, with that request's number (R56). -/
structure CopyReq where
  id : Nat
  words : List Word
  agent : Agent
  spc : Byte
  priv : Bool
  ring : BitVec 16
  phase : CopyPhase
  after : List Nat
  status : Byte
  count : Nat
  info : Word
  targets : List (Nat × Option Word)
  used : List Nat
deriving DecidableEq, Repr

/-- A mailbox entry (R248, R250, R254): the context it is for and its two doublewords. `held` marks a completion that
waits as a user-level interrupt and is not among its context's entries (R176); `reserve` marks the HBMISS notice in the
entry kept for it. -/
structure MailEntry where
  ctx : Nat
  lo : Word
  hi : Word
  held : Bool
  reserve : Bool
deriving DecidableEq, Repr

/-- What a spilled facet's network interface keeps beside the spill area, whose layout R263 gives (log entry 35): of each spilled
request and mailbox entry what the area has no field for, the overflow entries apart, and the user-level interrupts that
waited, with their contexts (R183 step 5, R186). -/
structure Kept where
  cq : Vector (List CopyReq) 2
  past : List MailEntry
  mail : List MailEntry
  pending : List (Fin 11 × UserInt)
deriving DecidableEq, Repr

/-- A network interface's part for one facet or crest core: two copy queues, the mailbox and the HBMISS notices held
for its kept entry, the coprocessor ring, and what a spill has kept (R175, R234, R250, R255, R262). -/
structure Ni where
  cq : Vector (List CopyReq) 2
  mail : List MailEntry
  notices : List MailEntry
  ring : Vector RingEntry 16
  seq : BitVec 16
  quiescing : Bool
  spilled : Bool
  kept : Kept
deriving DecidableEq, Repr

/-- A facet's own state: heartbeat timer and fence (R162, R163), the context that issued last (R23). -/
structure Facet where
  hbLeft : BitVec 32
  hbInterval : BitVec 32
  fenced : Bool
  missed : Bool
  lastCtx : Nat
deriving DecidableEq, Repr

/-! ### Tile -/

/-- A mutex: its owner by ctxid and its waiters, head first (R128). -/
structure Mutex where
  owner : Option (BitVec 6)
  waiters : List Agent
deriving DecidableEq, Repr

/-- A counting semaphore (R128, R131). -/
structure Sem where
  count : BitVec 16
  ovf : Bool
  waiters : List Agent
deriving DecidableEq, Repr

/-- A summit barrier channel at one tile (R133, R135): completed phases, member facets, the members that a bar.cfg has set
for the phase after one already reported, facets that have arrived for the open phase, and whether the tile has reported
it. -/
structure Channel where
  count : BitVec 32
  members : BitVec 4
  next : Option (BitVec 4)
  arrived : BitVec 4
  reported : Bool
deriving DecidableEq, Repr

/-- A translation that a cache holds (R260, R359): one 64 KiB page. -/
structure TlbEntry where
  space : Byte
  page : Nat
  frame : Nat
  perms : BitVec 4
deriving DecidableEq, Repr

/-- A task.next request in its tile's order (R287, R289). -/
structure TaskWaiter where
  agent : Agent
  d : BitVec 5
deriving DecidableEq, Repr

/-- A tile's own state. The task allocator's other state is in tile-record bytes 0x100 to 0x4FF (R180, R287). -/
structure Tile where
  gang : Option Nat
  region : Word
  mutexes : Vector Mutex 16
  sems : Vector Sem 32
  channels : Vector Channel 16
  win : Vector Word 4
  wp : Bool
  tags : Table (BitVec 32)
  tensors : Table Vec
  stamps : Table Nat
  tlb : List TlbEntry
  bzwin : Word
  sliceEvents : Vector (List Nat) 4
  bankEvents : Table (List Nat)
  events : Nat
  lasting : Bool
  preempt : Bool
  spilled : Bool
  taskOrder : List TaskWaiter
deriving DecidableEq, Repr

/-! ### Units -/

/-- A dequeuer parked at a work queue: where its item goes (R280). -/
structure DeqWaiter where
  agent : Agent
  d : BitVec 5
  loc : Nat
deriving DecidableEq, Repr

/-- A work queue (R276, R277, R281): its descriptor, the items on chip, the scree's oldest slot and count, the push count,
the sticky Q bit, the waiters, and whether the scree's oldest slot could not be read (R399). -/
structure Queue where
  open_ : Bool
  flags : BitVec 8
  rid : BitVec 16
  scree : Word
  quota : Nat
  items : List Vec
  shead : Nat
  scount : Nat
  pushes : BitVec 32
  refused : Bool
  waiters : List DeqWaiter
  stuck : Bool
deriving DecidableEq, Repr

/-- The states of a gang between two steps (R273): running; saved, out of its tiles with its image in HBM (R183 step 6); ending
once its last control context has exited. The state `binding` lies within GANG_BIND, which is one whole step. -/
inductive GangPhase where
  | running
  | saved
  | ending
deriving DecidableEq, Repr

/-- What the firmware reads of a region beside its tile budget, fault domain and fault queue (R28, R268): priority, share of the
quantum, local-memory bytes, HBM pages, quantum. -/
structure RegionTerms where
  prio : Nat
  share : Nat
  lmem : Nat
  pages : Nat
  quant : Nat
deriving DecidableEq, Repr

/-- What a saved gang keeps of one of its tiles beside its save image: what its network interface's parts keep of the spill, the
HBMISS notices that wait there, and its barrier channels (R33, R134, R250; log entry 35). -/
structure TileKept where
  parts : Vector (Kept × List MailEntry) 4
  channels : Vector Channel 16
deriving DecidableEq, Repr

/-- A bound or saved gang: its bind record (R273), its ready pool (R271; 0xFF for none), its save image's address, what the
firmware last read of its region (R269, R270), and what a saved one keeps of its tiles, in the order of their ranks. -/
structure Gang where
  x0 : Nat
  y0 : Nat
  w : Nat
  h : Nat
  phase : GangPhase
  rid : BitVec 16
  ticket : BitVec 32
  unit_ : Nat
  core : Nat
  ctx : Nat
  rcb : Word
  pool : Nat
  budget : Nat
  fdom : Nat
  fq : Nat
  save : Word
  terms : RegionTerms
  kept : List TileKept
deriving DecidableEq, Repr

/-! ### Cairn units (R295 to R300) -/

/-- An element: key, payload, the order in which it became present, its put round and put order (R297, R303). -/
structure PoolElem where
  key : Word
  payload : Word
  order : Nat
  round : Nat
  putOrder : Nat
deriving DecidableEq, Repr

/-- A published summary: least key, h-th smallest key, count, in-flight puts (R298). -/
structure Summary where
  least : Option Word
  hth : Option Word
  count : Nat
  inflight : Nat
deriving DecidableEq, Repr

/-- A take: who takes and into which registers, and the tile cycle at which it came, by which waiting takes keep their order (R300,
R313). -/
structure PoolTake where
  agent : Agent
  d : BitVec 5
  wait : Bool
  since : Nat
deriving DecidableEq, Repr

/-- A steal on its way to a victim shard: the take, its local shard, and the shard to try (R300). -/
structure Steal where
  take : PoolTake
  from_ : Nat
  victim : Nat
  last : Bool
deriving DecidableEq, Repr

/-- A shard (R297 to R299): its elements on chip in order of key and then presence, those in scree slots, accepted puts not
yet present, waiting takes, and what the round has admitted and removed. -/
structure Shard where
  chip : List PoolElem
  scree : List (Nat × PoolElem)
  held : List PoolElem
  waits : List PoolTake
  admitted : Nat
  removed : Nat
  summary : Summary
deriving DecidableEq, Repr

/-- An open pool (R296, R309): its descriptor, when it was opened, the round its shards are in, that round's threshold with its
holder, a count for presence and put orders, the tasks in flight. -/
structure Pool where
  s : Nat
  h : Nat
  p : Nat
  q : Nat
  period : Nat
  limit : Nat
  rid : BitVec 16
  flags : BitVec 8
  scree : Word
  quota : Nat
  opened : Nat
  round : Nat
  threshold : Option (Word × Nat)
  shards : List Shard
  counter : Nat
  tasks : Nat
  steals : List Steal
deriving DecidableEq, Repr

/-! ### Task units, dispatch units, release queues -/

/-- A decrement that a task unit still has to perform (R286, R290): its number, the context whose task.done asks for it, the
counter, and the pool whose in-flight count falls after the last of its report. -/
structure Decrement where
  id : Nat
  agent : Agent
  tcb : Word
  join : Bool
  last : Option Nat
deriving DecidableEq, Repr

/-- A launch record at a dispatch unit (R271, R272): ticket, launcher, the 64 bytes, and once checked what the firmware read. -/
structure Launch where
  ticket : BitVec 32
  core : Fin 32
  ctx : Fin 2
  rec_ : Vec
  checked : Bool
  rid : BitVec 16
  budget : Nat
  fdom : Nat
  fq : Nat
  terms : RegionTerms
  image : List Byte
  tensors : List Vec
  types : List Word
deriving DecidableEq, Repr

/-- A message of a dispatch unit not yet placed (R272). -/
structure DispatchMsg where
  core : Fin 32
  ctx : Fin 2
  lo : Word
  hi : Word
deriving DecidableEq, Repr

/-- A dispatch unit. -/
structure DispatchUnit where
  launches : List Launch
  ticket : BitVec 32
  out : List DispatchMsg
deriving DecidableEq, Repr

/-- The release queue of a crest core (R350, R351). -/
structure ReleaseQueue where
  chip : List Word
  base : Word
  quota : Nat
  head : Nat
  count : Nat
  ovf : Bool
  herr : Bool
  lost : BitVec 16
deriving DecidableEq, Repr

/-! ### Matrix engine of a tile (R187, R204, R215, R219) -/

/-- A plane of weights (R187, R197): the operands of the mm.loadw that filled it, its format codes, the extents of the
elements that are present, their codes at 32k + j (an LQ2 weight as the E4M3 code of its decoded value, R72), and the block
scales at 32g + j. `column` is the checksum column (R213), entry k for
row k. -/
structure Plane where
  valid : Bool
  wfmt : Nat
  afmt : Nat
  t : Nat
  kb : Nat
  nb : Nat
  kp : Nat
  jp : Nat
  vals : Table Nat
  scales : Table Nat
  column : List (Option Val)
deriving DecidableEq, Repr

/-- An accumulator row: 32 FP32 columns and its row reference R (R187, R214). -/
structure AccRow where
  cols : Vector (BitVec 32) 32
  ref : BitVec 32
deriving DecidableEq, Repr

/-- One item of the retry record (R215): the tensors and operands of a stream and of the plane it used; `count` k-blocks
where the steps of an mm.seq form a run. -/
structure RetryItem where
  wt : Nat
  at_ : Nat
  af : Nat
  kb : Nat
  nb : Nat
  row0 : Nat
  akb : Nat
  count : Nat
  run : Bool
deriving DecidableEq, Repr

/-- What a batch starts with (R215). -/
inductive RetryBase where
  | empty
  | zero
  | stream (i : RetryItem)
deriving DecidableEq, Repr

/-- The retry record (R215, R223). -/
structure Retry where
  base : RetryBase
  items : List RetryItem
  broken : Bool
  overflowed : Bool
  progress : Nat
  going : Bool
deriving DecidableEq, Repr

/-- The bezel state of a tile (R215, R217, R219, R225): the record's registers, what its hidden bounds are formed from, the
tolerances, the batch range with the reference row and the column check's availability, the retry record, the counters. -/
structure Bezel where
  site : Word
  row : Word
  col : Word
  delta : Word
  boundTol : Word
  boundRow : BitVec 32
  boundCol : BitVec 32
  tols : Vector Word 7
  batch : Option (Nat × Nat)
  q : Vector (BitVec 32) 32
  colCheck : Bool
  retry : Retry
  fixes : Nat
  retries : Nat
  injects : Nat
deriving DecidableEq, Repr

/-- The operations of the matrix queue with the scalar values they keep (R194, R196, R205, R220, R56); mm.save and mm.rest
wait for the entries before them as entries do (R203). -/
inductive MmOp where
  | loadw (t kb nb af : Nat)
  | swap
  | zero (r0 n : Nat)
  | stream (t row0 kb ar n : Nat) (ov : Bool)
  | drain (t ar n rm : Nat) (sat : Bool) (row0 col0 : Nat)
  | seq (desc : Nat)
  | fix (d : BitVec 5) (l : Word)
  | retry (d : BitVec 5)
  | clear (x : Word)
  | inject (x v : Word)
  | qfence
  | save
  | rest
deriving DecidableEq, Repr

/-- An entry of the matrix queue: its number, the record copies read at release, its ring entries, how far it has come, the
descriptor and records an mm.seq read when it started, whether it is to stop at its next step boundary (R203), the
flags it has raised (R79), and for which of the four issuers it is a kernel handler's (R203). -/
structure MmEntry where
  id : Nat
  op : MmOp
  recs : List Vec
  seqs : Vector (BitVec 16) 4
  pos : Nat
  held : List Vec
  stopping : Bool
  flags : BitVec 6
  kts : BitVec 4
deriving DecidableEq, Repr

/-- What a joint instruction does when the clasp releases it (R194): enter the queue, its issuers waiting for it or not;
take effect at once. -/
inductive Joint where
  | queued (op : MmOp) (wait : Bool)
  | sync
  | ttLoad (t off : Nat)
  | ttSlice (t : Nat)
  | ttInval (t : Nat)
deriving DecidableEq, Repr

/-- What one facet has brought to the clasp (R193): the instruction word, the scalar values read, its ring entry, and what
the instruction does. -/
structure ClaspEntry where
  word : Insn
  vals : List Word
  seq : BitVec 16
  joint : Joint
deriving DecidableEq, Repr

/-- The matrix engine of a tile. `resume` is the number of the entry that a pre-emption withdrew, which its instruction takes again
when it runs again, so that the tokens that record it stay pending (R54, R212, R230); `savedLate` the late faults that mm.save
records or mm.rest gives back, by facet (R203). -/
structure Mm where
  active : Plane
  shadow : Plane
  rows : Table AccRow
  geom : Nat
  queue : List MmEntry
  wm : Word
  seqpos : Word
  bz : Bezel
  clasp : Vector (Option ClaspEntry) 4
  savedLate : List (Nat × LateFault)
  resume : Option Nat
deriving DecidableEq, Repr

/-! ### Accesses and messages under way -/

/-- Where an access goes (R42): a location of this device, or a place of another device of the domain, as a packet names it: an
aperture address, a physical address, or the destination word of a message. -/
inductive Target where
  | loc (l : Nat)
  | device (space : Byte) (va : Word)
deriving DecidableEq, Repr

/-- The ten atomic operations (R125). -/
inductive Amo where
  | add | swap | cas | min | max | minu | maxu | and | or | xor
deriving DecidableEq, Repr

/-- What an access does at its home (R43): a read, a write of the element's data, an atomic with its comparand. -/
inductive AccKind where
  | load
  | store
  | amo (op : Amo) (comparand : Nat)
deriving DecidableEq, Repr

/-- One element of an access: its lane, address, place, width and data (R119, R143). -/
structure Elem where
  lane : Nat
  va : Word
  target : Target
  bytes : Nat
  data : Nat
deriving DecidableEq, Repr

/-- What the issue of one instruction or group latches (R91): the instruction word, the group's first word, the group's
length in bytes, and under REP the repetition and the count (R93). DESIGN CHOICE, log entry 1. -/
structure Latch where
  word : Insn
  first : Insn
  len : Nat
  rep : Option (Nat × Nat)
deriving DecidableEq, Repr

/-- Where a returning value goes: a scalar register, sign-extended or not; the lanes of a vector register; the whole of
one, read as one access (R144). -/
inductive Writeback where
  | none
  | scalar (d : BitVec 5) (bytes : Nat) (signed : Bool)
  | lanes (d : BitVec 5) (bytes : Nat) (active : List Bool) (zero : Bool) (bcast : Bool)
  | whole (d : BitVec 5)
deriving DecidableEq, Repr

/-- An access issued to the network and not yet performed and answered (R46, R144). -/
structure Access where
  id : Nat
  agent : Agent
  kind : AccKind
  todo : List Elem
  done : List (Nat × Nat)
  refused : Option (Byte × Nat × Word)
  back : Writeback
  latch : Latch
  ring : Option (BitVec 16)
deriving DecidableEq, Repr

/-- A message on its way (R254): sender, or none for one a unit or bridge sends, the mailbox and context it is for, its
two doublewords, the destination word that a refusal reports, the number shared by the copies of one multicast. -/
structure Message where
  id : Nat
  group : Nat
  sender : Option Agent
  kernel : Bool
  dest : Owner
  ctx : Nat
  lo : Word
  hi : Word
  destWord : Word
  ring : Option (BitVec 16)
  refusals : List Nat
deriving DecidableEq, Repr

/-! ### Management -/

/-- What the active management complex holds of the fault-record stream: records not yet in queue 0, and how many were
lost since the last that got through (R361). -/
structure Records where
  held : List Vec
  lost : Nat
deriving DecidableEq, Repr

/-- A receive window of the ports (R378, R385). -/
structure RecvWindow where
  base : Word
  size : Word
  ctxid : BitVec 16
deriving DecidableEq, Repr

/-- A Traverse port (R377 to R382): its stored routing entries and key tables, and its working lanes; it is down when it has
failed. -/
structure Port where
  routes : Table (BitVec 32)
  egress : Table (BitVec 32)
  ingress : Table (BitVec 32)
  lanes : Nat
  down : Bool
deriving DecidableEq, Repr

/-- The Traverse fabric as the device sees it: its ports, the packets it has sent, the next sequence numbers of each pair and
class, arrivals held behind a gap with the port that holds them (R64, R377), the bytes performed of each request of which
some are still to come (source, request, count), and its answers to arrivals (source, request, 0 or a fault code). -/
structure Fabric where
  ports : Table Port
  sent : List Packet
  sendSeq : Table Nat
  recvSeq : Table Nat
  heldPackets : List (Nat × Packet)
  partial_ : List (Nat × Nat × Nat)
  answers : List (Nat × Nat × Nat)
deriving DecidableEq, Repr

/-- The host's side: its memory as the device reads and writes it (R375; log entry 23), what its last BAR2 access returned (none
for an unsupported request, R372), what its last read of a BAR0 register returned (R373), the buffers that port requests have
handed to the host link (R244), and the ring
registers of BAR0 (R373, R376). -/
structure HostSide where
  mem : Table Byte
  bar2 : Option Vec
  bar0 : Word
  sent : List (List Byte)
  rbase : Word
  cbase : Word
  rtail : BitVec 16
  rhead : BitVec 16
  err : Byte
  rctl : Word
deriving DecidableEq, Repr

/-- The management complexes (R26, R373, R374, R382 to R386): the mailbox words and the notices that wait, MSI-X vectors
raised, bring-up step, kernel crashes, the fault-record stream, notice context, receive windows, domain table. -/
structure Mgmt where
  inWord : Word
  inUnread : Bool
  outWord : Word
  outValid : Bool
  notices : List Word
  msix : BitVec 16
  step : BitVec 4
  mapFail : Bool
  frozenTwice : Bool
  w2base : Word
  activeB : Bool
  firmware : BitVec 16
  crashed : Bool
  crashes : BitVec 16
  crashCause : Byte
  panicCode : Word
  noticeCtx : Option (BitVec 16)
  rwins : Table RecvWindow
  domain : Byte
  domainTable : Table (BitVec 13)
  fabricId : BitVec 13
  coldStarts : Nat
  records : Records
  hbmEvents : Table (List Nat)
  laneEvents : Table (List Nat)
deriving DecidableEq, Repr

/-- An entry of the Signet's alarm log (R369, R374). -/
structure AlarmEntry where
  cause : AlarmCause
  agent : BitVec 16
  cycle : Nat
deriving DecidableEq, Repr

/-- The Signet (R368, R369): whether the keys are present, the two policy bits, the alarm log of 16 entries. -/
structure Signet where
  keyed : Bool
  eoa : Bool
  rsg : Bool
  log : List AlarmEntry
deriving DecidableEq, Repr

/-! ### The caches of the crest cores (R44, R365) -/

/-- A byte of HBM that a crest core wrote and that its cache may still hold: the core, what its home held before, and what the core
wrote. -/
structure DirtyByte where
  core : Nat
  old : Byte
  new : Byte
deriving DecidableEq, Repr

/-! ### The whole part -/

/-- The order in which things happen is free (R10, R43, R49), and the outside world acts when it will: the agenda says,
in plain data, what moves next. An agent issues; a step of the part or of the world outside is taken; tile cycles pass;
a soft error strikes an 8-byte granule (uncorrectable or not); a read by a unit, a walker or the firmware meets a correctable
one (log entry 60); a gang whose tiles have all quiesced is vacated by the
firmware with its save image at an address (R183, R273); the host reads a BAR0 register (R373) or
writes its own memory, which the device reads (R375); a copy request performs only so many of its pieces (log entry 33); a crest
core fails, so that it will not answer at a kernel crash, with the 64-byte lines that are still dirty in its cache (R365; log entry
75). DESIGN CHOICE, log entry 1. -/
inductive Choice where
  | issue (a : Agent)
  | event (i : Instr)
  | pass (cycles : Nat)
  | softError (granule : Nat) (uncorrectable : Bool)
  | meet (granule : Nat)
  | vacate (slot : Nat) (image : Word)
  | readRegister (off : BitVec 16)
  | hostWrite (address : Nat) (bytes : List Byte)
  | fabricId (id : BitVec 13)
  | remoteNotice (reporter : BitVec 13) (port : BitVec 4)
  | copyPieces (o : Owner) (q : Fin 2) (n : Nat)
  | silence (core : Fin 32) (lines : List Nat)
deriving DecidableEq, Repr

/-- The state of the part. `dirty` are the bytes that a crest core's cache may hold, by location; `silent` the lines, with their
cores, that a kernel crash will lose (R365). -/
structure State where
  now : Nat
  mhz : BitVec 16
  agenda : List Choice
  cur : Agent
  latch : Latch
  nextId : Nat
  free : Nat
  mem : Memory
  softErrors : List (Nat × Bool)
  dirty : Table DirtyByte
  silent : List (Nat × Nat)
  ctxs : Table Ctx
  facets : Table Facet
  nis : Table Ni
  tiles : Table Tile
  mms : Table Mm
  gangs : Table Gang
  queues : Table Queue
  pools : Table Pool
  taskUnits : Vector (List Decrement) 4
  dispatch : Vector DispatchUnit 4
  relqs : Table ReleaseQueue
  net : List Access
  msgs : List Message
  freeze : Bool
  mgmt : Mgmt
  signet : Signet
  fabric : Fabric
  host : HostSide
deriving DecidableEq, Repr

/-- Why the part stops with a fault: for nothing. Every fault of the spec is an exception, a late fault, a status or a record
that the part goes on from, and so is an access to an address that does not exist (R121, R359); so this type has no
constructor and no step of the model raises one. Safe. -/
inductive Fault where
deriving DecidableEq, Repr

/-- Why the model refuses a step. -/
inductive Refusal where
  /-- Raised by an arm of exec whose instruction has no meaning yet. Safe: nothing can be proved of it. -/
  | notModelled (mnemonic : String)
deriving DecidableEq, Repr

/-! ### Reset -/

/-- A context before any launch. The registers whose value the spec does not give read 0; log entry 7. -/
def Ctx.initial : Ctx :=
  { x := Vector.replicate 32 0, v := Vector.replicate 32 0, k := Vector.replicate 8 0, pc := 0, run := .notLive,
    frozen := false, epc := 0, ecause := 0, einfo := 0, estat := 0, tvec := 0x3C_0000, uvec := 0, fflags := 0, frm := 0,
    srgen := 0x9E37_79B9_7F4A_7C15, spc := 0, cwin := 0, repidx := 0, heldRep := 0, rank := 0, gangid := 0, gangw := 0,
    gangh := 0, cringSel := 0, shadow := Vector.replicate 8 0, kbank := Vector.replicate 8 0,
    tokens := Vector.replicate 4 ⟨[]⟩, late := [], pending := [], bytecode := false, undo := none }

/-- An empty ring entry. -/
def RingEntry.initial : RingEntry := { pc := 0, word := 0, ops := [], seq := 0, open_ := false }

/-- Nothing kept of a spill. -/
def Kept.initial : Kept := { cq := Vector.replicate 2 [], past := [], mail := [], pending := [] }

/-- An empty network interface part. -/
def Ni.initial : Ni :=
  { cq := Vector.replicate 2 [], mail := [], notices := [], ring := Vector.replicate 16 RingEntry.initial,
    seq := 0, quiescing := false, spilled := false, kept := Kept.initial }

/-- A facet before any launch; interval 3,000,000 (R162, log entry 7). -/
def Facet.initial : Facet :=
  { hbLeft := 3000000, hbInterval := 3000000, fenced := false, missed := false, lastCtx := 0 }

/-- A tile at cold start (R182, R256, R258). -/
def Tile.initial : Tile :=
  { gang := none, region := 0, mutexes := Vector.replicate 16 ⟨none, []⟩, sems := Vector.replicate 32 ⟨0, false, []⟩,
    channels := Vector.replicate 16 ⟨0, 0xF, none, 0, false⟩, win := Vector.replicate 4 0, wp := true, tags := Table.empty,
    tensors := Table.empty, stamps := Table.empty, tlb := [],
    bzwin := 0x3_0000_EA60, sliceEvents := Vector.replicate 4 [], bankEvents := Table.empty, events := 0, lasting := false,
    preempt := false, spilled := false, taskOrder := [] }

/-- An invalid plane. -/
def Plane.initial : Plane :=
  { valid := false, wfmt := 0, afmt := 0, t := 0, kb := 0, nb := 0, kp := 0, jp := 0, vals := Table.empty, scales := Table.empty
    column := [] }

/-- An accumulator row of +0 with its lane cleared. -/
def AccRow.initial : AccRow := { cols := Vector.replicate 32 0, ref := 0 }

/-- An empty retry record. -/
def Retry.initial : Retry :=
  { base := .empty, items := [], broken := false, overflowed := false, progress := 0, going := false }

/-- The bezel state at launch (R215, R217, R219); bzsite comes from the launch record. No batch range, a Q of 0, no column check and an
empty retry record are the model's choice: R214 gives the row references alone (DESIGN CHOICE, log entry 85). -/
def Bezel.initial : Bezel :=
  { site := 0, row := 0, col := 0, delta := 0, boundTol := 0, boundRow := 0, boundCol := 0,
    tols := Vector.replicate 7 0x0080_0000_3780_0000, batch := none, q := Vector.replicate 32 0, colCheck := false,
    retry := Retry.initial, fixes := 0, retries := 0, injects := 0 }

/-- The matrix engine at launch (R187). -/
def Mm.initial : Mm :=
  { active := Plane.initial, shadow := Plane.initial, rows := Table.empty, geom := 32, queue := [], wm := 0, seqpos := 0,
    bz := Bezel.initial, clasp := Vector.replicate 4 none, savedLate := [], resume := none }

/-- A closed work queue (R276). -/
def Queue.initial : Queue :=
  { open_ := false, flags := 0, rid := 0, scree := 0, quota := 0, items := [], shead := 0, scount := 0, pushes := 0,
    refused := false, waiters := [], stuck := false }

/-- A dispatch unit at cold start. -/
def DispatchUnit.initial : DispatchUnit := { launches := [], ticket := 0, out := [] }

/-- A release queue at cold start: quota 0 (R350). -/
def ReleaseQueue.initial : ReleaseQueue :=
  { chip := [], base := 0, quota := 0, head := 0, count := 0, ovf := false, herr := false, lost := 0 }

/-- A Traverse port before the fabric manager has written its tables. -/
def Port.initial : Port :=
  { routes := Table.empty, egress := Table.empty, ingress := Table.empty, lanes := 8, down := false }

/-- The fabric before any packet. -/
def Fabric.initial : Fabric :=
  { ports := Table.empty, sent := [], sendSeq := Table.empty, recvSeq := Table.empty, heldPackets := [],
    partial_ := [], answers := [] }

/-- The ring registers at reset (R373). -/
def HostSide.initial : HostSide :=
  { mem := Table.empty, bar2 := none, bar0 := 0, sent := [], rbase := 0, cbase := 0, rtail := 0, rhead := 0, err := 0, rctl := 0 }

/-- Crest core 0, context 0 as bring-up releases it: ready, at kernel privilege, at the kernel entry (R386). -/
def Ctx.booted : Ctx := { Ctx.initial with run := .ready, estat := 1, pc := Config.kernelEntry }

/-- The management complexes after bring-up: step 7, complex A active, the Bring-up complete notice produced and not yet
written to MBOXOUT (R26, R373, R374, R386). -/
def Mgmt.initial : Mgmt :=
  { inWord := 0, inUnread := false, outWord := 0, outValid := false, notices := [0x8400_0000_0000_0000], msix := 0, step := 7,
    mapFail := false, frozenTwice := false, w2base := 0x1000_0000_0000_0000, activeB := false,
    firmware := Config.firmwareLevel 0, crashed := false, crashes := 0, crashCause := 0, panicCode := 0,
    noticeCtx := none, rwins := Table.empty, domain := BitVec.ofNat 8 Config.domain, domainTable := Table.empty,
    fabricId := 0, coldStarts := 1, records := ⟨[], 0⟩, hbmEvents := Table.empty, laneEvents := Table.empty }

/-- The part right after bring-up (R386): every other context not live, no gang, memory as bring-up left it. -/
def State.reset : State :=
  { now := 0, mhz := 3000, agenda := [], cur := .crest 0 0, latch := ⟨0, 0, 4, none⟩, nextId := 0, free := 0,
    mem := ⟨[]⟩, softErrors := [], dirty := Table.empty, silent := [], ctxs := ⟨[(39600, Ctx.booted)]⟩, facets := Table.empty, nis := Table.empty,
    tiles := Table.empty, mms := Table.empty, gangs := Table.empty,
    queues := Table.empty, pools := Table.empty, taskUnits := Vector.replicate 4 []
    dispatch := Vector.replicate 4 DispatchUnit.initial, relqs := Table.empty, net := [], msgs := [], freeze := false, mgmt := Mgmt.initial,
    signet := ⟨true, Config.eraseOnAlarm, Config.requireSigned, []⟩
    fabric := Fabric.initial, host := HostSide.initial }

end Sys2Proof.Machine
end

