-- ==== Sys2Proof/Machine/Access.lean ====
section
/-! DEFINITION. Reading and writing the pieces of the state: contexts, facets, network interfaces, tiles, registers. Every
register has one accessor, where its special behaviour lives (R86, R87). -/

namespace Sys2Proof.Machine

/-! ### Who -/

/-- The number of a context in the table of contexts: facet contexts first, then crest contexts. -/
def agentKey : Agent → Nat
  | .facet t f c => (t.val * 4 + f.val) * 11 + c.val
  | .crest k c => 39600 + k.val * 2 + c.val

/-- The context of a number. -/
def agentOf (n : Nat) : Option Agent :=
  if h : n < 39600 then
    some (.facet ⟨n / 44, by omega⟩ ⟨n / 11 % 4, by omega⟩ ⟨n % 11, by omega⟩)
  else if h : n < 39664 then
    some (.crest ⟨(n - 39600) / 2, by omega⟩ ⟨(n - 39600) % 2, by omega⟩)
  else none

/-- The facet or crest core a context belongs to. -/
def ownerOf : Agent → Owner
  | .facet t f _ => .facet t f
  | .crest k _ => .crest k

/-- The number of a facet or crest core in the table of network interfaces. -/
def ownerKey : Owner → Nat
  | .facet t f => t.val * 4 + f.val
  | .crest k => 3600 + k.val

/-- The facet or crest core of a number. -/
def ownerOfKey (n : Nat) : Option Owner :=
  if h : n < 3600 then some (.facet ⟨n / 4, by omega⟩ ⟨n % 4, by omega⟩)
  else if h : n < 3632 then some (.crest ⟨n - 3600, by omega⟩)
  else none

/-- The context's number within its facet or core. -/
def ctxNo : Agent → Nat
  | .facet _ _ c => c.val
  | .crest _ c => c.val

/-- The tile of a facet context. -/
def tileNo : Agent → Option Nat
  | .facet t _ _ => some t.val
  | .crest _ _ => none

/-- Is it a context of a crest core? -/
def isCrest : Agent → Bool
  | .facet _ _ _ => false
  | .crest _ _ => true

/-- The control context of a facet (R22). -/
def isBead : Agent → Bool
  | .facet _ _ c => c.val ≠ 0
  | .crest _ _ => false

/-- ctxid: bits 5:4 facet, bits 3:0 context; on a crest core bit 15, core in bits 12:8 (R166). -/
def ctxid : Agent → Nat
  | .facet _ f c => f.val * 16 + c.val
  | .crest k c => 0x8000 + k.val * 256 + c.val

/-- The context of a facet of a tile, by numbers; a crest context by its ctxid (R166). -/
def agentOfCtxid (tile : Option Nat) (id : Nat) : Option Agent :=
  if id / 0x8000 % 2 = 1 then
    if h : id % 16 < 2 then some (.crest ⟨id / 256 % 32, Nat.mod_lt _ (by omega)⟩ ⟨id % 16, h⟩) else none
  else
    match tile with
    | none => none
    | some t =>
      if h : t < 900 then
        if h' : id % 16 < 11 then some (.facet ⟨t, h⟩ ⟨id / 16 % 4, Nat.mod_lt _ (by omega)⟩ ⟨id % 16, h'⟩) else none
      else none

/-- A facet of a tile by numbers. -/
def facetOwner (t f : Nat) : Option Owner :=
  if h : t < 900 then some (.facet ⟨t, h⟩ ⟨f % 4, Nat.mod_lt _ (by omega)⟩) else none

/-- The contexts of a facet, in number order (R22). -/
def facetAgents (t : Fin 900) (f : Fin 4) : List Agent :=
  (List.range 11).filterMap fun c => if h : c < 11 then some (.facet t f ⟨c, h⟩) else none

/-- The facets of a tile. -/
def fourFacets : List (Fin 4) := [0, 1, 2, 3]

/-- The contexts of a tile. -/
def tileAgents (t : Fin 900) : List Agent := fourFacets.flatMap (facetAgents t)

/-! ### Contexts -/

/-- A context of the part. -/
def State.ctx (s : State) (a : Agent) : Ctx := s.ctxs.get Ctx.initial (agentKey a)

/-- Replace a context. -/
def State.setCtx (s : State) (a : Agent) (c : Ctx) : State := { s with ctxs := s.ctxs.put (agentKey a) c }

/-- Change a context. -/
def State.modCtx (s : State) (a : Agent) (f : Ctx → Ctx) : State := s.setCtx a (f (s.ctx a))

/-- The context that issues. -/
def State.c (s : State) : Ctx := s.ctx s.cur

/-- Change the context that issues. -/
def State.mod (s : State) (f : Ctx → Ctx) : State := s.modCtx s.cur f

/-- A facet. -/
def State.facet (s : State) (t : Fin 900) (f : Fin 4) : Facet := s.facets.get Facet.initial (t.val * 4 + f.val)

/-- Change a facet. -/
def State.modFacet (s : State) (t : Fin 900) (f : Fin 4) (g : Facet → Facet) : State :=
  { s with facets := s.facets.put (t.val * 4 + f.val) (g (s.facet t f)) }

/-- The network interface's part for a facet or crest core. -/
def State.ni (s : State) (o : Owner) : Ni := s.nis.get Ni.initial (ownerKey o)

/-- Change a network interface's part. -/
def State.modNi (s : State) (o : Owner) (g : Ni → Ni) : State :=
  { s with nis := s.nis.put (ownerKey o) (g (s.ni o)) }

/-- A tile. -/
def State.tile (s : State) (t : Nat) : Tile := s.tiles.get Tile.initial t

/-- Change a tile. -/
def State.modTile (s : State) (t : Nat) (g : Tile → Tile) : State := { s with tiles := s.tiles.put t (g (s.tile t)) }

/-- Is the facet of a context fenced for a missed heartbeat (R163)? -/
def State.isFenced (s : State) (a : Agent) : Bool :=
  match a with
  | .facet t f _ => (s.facet t f).fenced
  | .crest _ _ => false

/-! ### Registers -/

/-- X[r]; x0 reads 0 (R22, R86). -/
def Ctx.getX (c : Ctx) (r : BitVec 5) : Word := if r = 0 then 0 else c.x[r.toNat]'r.isLt

/-- Write X[r]; a write to x0 is discarded (R86). -/
def Ctx.setX (c : Ctx) (r : BitVec 5) (v : Word) : Ctx :=
  if r = 0 then c else { c with x := c.x.set r.toNat v r.isLt }

/-- V[r] (R22). -/
def Ctx.getV (c : Ctx) (r : BitVec 5) : Vec := c.v[r.toNat]'r.isLt

/-- Write V[r]. -/
def Ctx.setV (c : Ctx) (r : BitVec 5) (v : Vec) : Ctx := { c with v := c.v.set r.toNat v r.isLt }

/-- K[r]; k0 reads all ones (R22, R86). -/
def Ctx.getK (c : Ctx) (r : BitVec 3) : Word := if r = 0 then allOnes else c.k[r.toNat]'r.isLt

/-- Write K[r]; a write to k0 is discarded (R86). -/
def Ctx.setK (c : Ctx) (r : BitVec 3) (v : Word) : Ctx :=
  if r = 0 then c else { c with k := c.k.set r.toNat v r.isLt }

/-- Raise flags: they stay set until software clears them (R80). -/
def Ctx.raise (c : Ctx) (f : BitVec 6) : Ctx := { c with fflags := c.fflags ||| f }

/-- Flags that the matrix engine raises beside a busy operation: they stay where the operation is abandoned (R79, R101). -/
def Ctx.raiseBeside (c : Ctx) (f : BitVec 6) : Ctx :=
  { c.raise f with undo := c.undo.map fun u => { u with fflags := u.fflags ||| f } }

/-- A draw from srgen beside a busy operation: it stays where the operation is abandoned (R74, R101). -/
def Ctx.drawBeside (c : Ctx) (f : Word → Word) : Ctx :=
  { c with srgen := f c.srgen, undo := c.undo.map fun u => { u with srgen := f u.srgen } }

/-- The x register of a number, by number. -/
def Ctx.xn (c : Ctx) (n : Nat) : Word := c.getX (BitVec.ofNat 5 n)

/-- Write the x register of a number. -/
def Ctx.setXn (c : Ctx) (n : Nat) (v : Word) : Ctx := c.setX (BitVec.ofNat 5 n) v

/-- The live bank of x24 to x31 (R87, R171). -/
def Ctx.bank (c : Ctx) : Vector Word 8 := Vector.ofFn fun i => c.x[24 + i.val]'(by omega)

/-- Replace the live bank of x24 to x31. -/
def Ctx.setBank (c : Ctx) (b : Vector Word 8) : Ctx :=
  { c with x := Vector.ofFn fun i => if h : 24 ≤ i.val then b[i.val - 24]'(by omega) else c.x[i.val]'i.isLt }

/-! ### Status (R168) -/

/-- estat.PRV: at kernel privilege. -/
def Ctx.kernel (c : Ctx) : Bool := bit c.estat 0
/-- estat.PPRV. -/
def Ctx.pprv (c : Ctx) : Bool := bit c.estat 2
/-- estat.UIH: in a user-level interrupt handler. -/
def Ctx.uih (c : Ctx) : Bool := bit c.estat 3
/-- The ordinary bank of x24 to x31 and the user shadow bank (R176, R181). -/
def Ctx.banks (c : Ctx) : Vector Word 8 × Vector Word 8 := if c.uih then (c.shadow, c.bank) else (c.bank, c.shadow)
/-- estat.PUIH. -/
def Ctx.puih (c : Ctx) : Bool := bit c.estat 4
/-- estat.KT: in a kernel handler. -/
def Ctx.kt (c : Ctx) : Bool := bit c.estat 5
/-- estat.EMU. -/
def Ctx.emu (c : Ctx) : Bool := bit c.estat 6
/-- estat.MSV: mm.save has completed in this handler. -/
def Ctx.msv (c : Ctx) : Bool := bit c.estat 7
/-- estat.PE: entered by pre-emption. -/
def Ctx.pe (c : Ctx) : Bool := bit c.estat 8

/-- The status word of its fields (R168). -/
def estatOf (pe msv emu kt puih uih pprv prv : Bool) : Word :=
  toWord ((if prv then 1 else 0) + (if pprv then 4 else 0) + (if uih then 8 else 0) + (if puih then 16 else 0) +
    (if kt then 32 else 0) + (if emu then 64 else 0) + (if msv then 128 else 0) + (if pe then 256 else 0))

/-- Where a context would go on: bpc OR 1 in bytecode mode, else the pc (R318). -/
def Ctx.resume (c : Ctx) : Word := if c.bytecode then c.xn 19 ||| 1 else c.pc

/-- Go to an address; bit 0 set enters bytecode mode with bpc in x19 (R316, R318). The pc always holds a multiple of 4
(R83), so bit 1 of a Lanivo address is dropped (DESIGN CHOICE, log entry 27). -/
def Ctx.goto (c : Ctx) (a : Word) : Ctx :=
  if bit a 0 then { c.setXn 19 (a &&& ~~~1) with bytecode := true } else { c with pc := a &&& ~~~3, bytecode := false }

/-- Can this context issue now: ready and not frozen (R23, R156)? -/
def Ctx.canIssue (c : Ctx) : Bool := c.run = .ready && !c.frozen

/-- Is the context live (R30, R156)? -/
def Ctx.live (c : Ctx) : Bool := c.run ≠ .notLive

/-! ### Numbers and free values -/

/-- Take the next number (for accesses, requests and entries: the model's own, R52). -/
def State.fresh (s : State) : State := { s with nextId := s.nextId + 1 }

/-- The free value at this point (log entry 18), and the state with its counter advanced. -/
def State.freeWord (s : State) : Word := Config.freeWord s.free

/-- Advance the free-value counter. -/
def State.spend (s : State) : State := { s with free := s.free + 1 }

/-! ### Retiring -/

/-- Retire the instruction of a context: the pc passes the group; under REP the next index is held until the last
repetition, when the group retires and repidx is 0 (R91, R93). -/
def Ctx.retire (l : Latch) (c : Ctx) : Ctx :=
  match l.rep with
  | none => { c with pc := c.pc + toWord l.len }
  | some (i, n) =>
    if i + 1 < n then { c with repidx := BitVec.ofNat 6 (i + 1) }
    else { c with pc := c.pc + toWord l.len, repidx := 0 }

/-- Retire the instruction in issue. -/
def State.retire (s : State) : State := s.mod (Ctx.retire s.latch)

/-- Write X[d] and retire. -/
def State.setXRetire (s : State) (d : BitVec 5) (v : Word) : State := s.mod fun c => (c.setX d v).retire s.latch

/-- Park the context in issue; the instruction stays at its pc (R32). -/
def State.park (s : State) (why : Park) : State := s.mod fun c => { c with run := .parked why }

end Sys2Proof.Machine
end

