-- ==== Sys2Proof/Machine/Units.lean ====
section
/-! DEFINITION. What every unit shares: fault codes, translation and the structures in memory, work queues, and the
fault records that the device pushes to queue 0 (R356 to R364, R276, R277, R399). -/

namespace Sys2Proof.Machine

/-! ### Fault codes (R364) -/

namespace Code
def runoff : Nat := 0x00
def illegal : Nat := 0x01
def future : Nat := 0x02
def feature : Nat := 0x03
def priv : Nat := 0x04
def align : Nat := 0x05
def xlate : Nat := 0x06
def prot : Nat := 0x07
def nack : Nat := 0x08
def codewin : Nat := 0x09
def hbmiss : Nat := 0x0B
def quota : Nat := 0x0C
def claspmis : Nat := 0x0E
def bezel : Nat := 0x0F
def mmbound : Nat := 0x10
def swizmis : Nat := 0x11
def ttbad : Nat := 0x12
def featmis : Nat := 0x13
def double : Nat := 0x14
def guard : Nat := 0x15
def txill : Nat := 0x16
def rearmbusy : Nat := 0x17
def uncorr : Nat := 0x18
def lmrange : Nat := 0x19
def tailjump : Nat := 0x1A
def linklost : Nat := 0x1B
def alarm : Nat := 0x1C
end Code

/-! ### Translation (R356 to R359) -/

/-- Is an address paged (R36)? -/
def isPaged (va : Nat) : Bool := bitsN va 63 60 ≠ 0 && bitsN va 63 60 ≠ 15

/-- A translated page: 64 KiB frame number and the permission bits U X W R (R358). -/
structure Leaf where
  frame : Nat
  perms : BitVec 4
deriving DecidableEq, Repr

/-- The space byte that names this device, or its own domain number (R37). -/
def State.ownSpace (s : State) (sp : Byte) : Bool := sp = 0 || sp = s.mgmt.domain

/-- A space byte that names a member of the domain (R37, R383). -/
def State.memberSpace (s : State) (sp : Byte) : Bool := s.ownSpace sp || (s.mgmt.domainTable.find sp.toNat).isSome

/-- A page-table entry with a reserved bit set is malformed (R358). -/
def pteMalformed (e : Nat) : Bool := decide (bitsN e 63 48 ≠ 0) || decide (bitsN e 15 6 ≠ 0)

/-- A physical address that exists: HBM, or the Signet's window, which refuses (R359, R368). -/
def paExists (pa : Nat) : Bool :=
  decide (pa < Config.hbmBytes) || (decide (Config.signetBase ≤ pa) && decide (pa < Config.signetBase + 0x10000))

/-- The levels of a walk below a node, each by its index bits: (high, low) of the virtual address (R357). -/
def walkFrom (m : Memory) (va : Nat) : List (Nat × Nat) → Nat → Option Leaf
  | [], _ => none
  | (hi, lo) :: rest, node =>
    if Config.hbmBytes ≤ node || node % 0x10000 ≠ 0 then none
    else
      let e := m.read (node + 8 * bitsN va hi lo) 8
      if e % 2 = 0 || pteMalformed e then none
      else
        let leaf := bitsN e 1 1 = 1
        let pa := bitsN e 47 16 * 0x10000
        if lo = 16 || (leaf && lo ≠ 55) then
          if pa % 2 ^ lo ≠ 0 then none
          else
            let full := pa + va % 2 ^ lo
            if paExists full then some ⟨full / 0x10000, BitVec.ofNat 4 (e / 4)⟩ else none
        else if leaf then none
        else walkFrom m va rest pa

/-- A whole walk for a paged address of a space; space 0 and the own number use the own number's root (R356, R359). -/
def State.walk (s : State) (space : Byte) (va : Word) : Option Leaf :=
  let idx := if s.ownSpace space then s.mgmt.domain.toNat else space.toNat
  let root := s.mem.read (Config.anchor + 8 * idx) 8
  if root = 0 || root % 0x10000 ≠ 0 || 2 ^ 48 ≤ root then none
  else walkFrom s.mem va.toNat [(63, 55), (54, 42), (41, 29), (28, 16)] root

/-- The kinds of access that a permission covers (R359): 0 read, 1 write, 2 atomic, 3 crest fetch. -/
def permits (perms : BitVec 4) (kind : Nat) (kernel : Bool) : Bool :=
  (match kind with
   | 0 => bit perms 0
   | 1 => bit perms 1
   | 2 => bit perms 0 && bit perms 1
   | _ => bit perms 2) && (kernel || bit perms 3)

/-- The cached translation of a page (R260). -/
def tlbFind (tlb : List TlbEntry) (space : Byte) (page : Nat) : Option Leaf :=
  (tlb.find? fun e => e.space = space && e.page = page).map fun e => ⟨e.frame, e.perms⟩

/-- Put a translation into a 64-entry cache, the oldest leaving (DESIGN CHOICE, log entry 13). -/
def tlbInsert (tlb : List TlbEntry) (space : Byte) (page : Nat) (l : Leaf) : List TlbEntry :=
  let rest := tlb.filter fun e => !(e.space = space && e.page = page)
  let rest := if 64 ≤ rest.length then rest.drop (rest.length - 63) else rest
  rest ++ [⟨space, page, l.frame, l.perms⟩]

/-- The number of the table entry that holds the translation cache of a tile, or of a crest core (R260, R261). -/
def tlbTile : Agent → Nat
  | .facet t _ _ => t.val
  | .crest k _ => 1000 + k.val

/-- The cached or, for a crest core and for engines, freshly walked translation; a crest core and a copy request walk at
once (log entry 13). -/
def State.translate (s : State) (tlb : Nat) (space : Byte) (va : Word) (walkNow : Bool) : Option Leaf :=
  match tlbFind (s.tile tlb).tlb space (va.toNat / 0x10000) with
  | some l => some l
  | none => if walkNow then s.walk space va else none

/-- Remember a translation in the cache of a tile or crest core (R260). -/
def State.remember (s : State) (tlb : Nat) (space : Byte) (va : Word) (l : Leaf) : State :=
  s.modTile tlb fun t => { t with tlb := tlbInsert t.tlb space (va.toNat / 0x10000) l }

/-- The physical address of a byte in a translated page. -/
def Leaf.pa (l : Leaf) (va : Word) : Nat := l.frame * 0x10000 + va.toNat % 0x10000

/-! ### Kernel structures read and written through space 0x00 at kernel privilege (R399) -/

/-- The physical address of a paged address of space 0x00 at kernel privilege, or the fault code: what units and firmware
use to reach structures in memory. -/
def State.unitPa (s : State) (va : Word) (kind : Nat) : Except Nat Nat :=
  let nib := bits va 63 60
  if nib = 0 || nib = 15 then .error Code.prot
  else match s.walk 0 va with
    | none => .error Code.xlate
    | some l =>
      if Config.signetBase ≤ l.pa va then .error Code.prot
      else if permits l.perms kind true then .ok (l.pa va) else .error Code.prot

/-- Read n bytes (within one page) of a structure. -/
def State.unitRead (s : State) (va : Word) (n : Nat) : Except Nat Nat :=
  (s.unitPa va 0).map fun pa => s.mem.read pa n

/-- Write n bytes (within one page) of a structure. -/
def State.unitWrite (s : State) (va : Word) (n v : Nat) : Except Nat State :=
  (s.unitPa va 1).map fun pa => { s with mem := s.mem.write pa n v }

/-! ### Completing an instruction that waits at a unit -/

/-- A unit completes the parked one-word instruction of a context: what it writes, then the pc passes it. -/
def State.finish (s : State) (a : Agent) (f : Ctx → Ctx) : State :=
  s.modCtx a fun c => { f c with pc := c.pc + 4, run := .ready }

/-! ### Fault records (R361) -/

/-- The fields of a fault record (R361). -/
structure RecordFields where
  type : Nat
  code : Nat
  gangid : Nat := 0
  tileid : Nat := 0xFFFF
  ctxid : Nat := 0
  addr : Word := 0
  epc : Word := 0
  tag : Nat := 0
  ecause : Word := 0
  b32 : Nat := 0
  b33 : Nat := 0
  domain : Nat := 0

/-- The 64 bytes of a fault record (R361); the count of records lost is filled in when the record gets through. -/
def RecordFields.pack (r : RecordFields) : Vec :=
  BitVec.ofNat 512 (r.type % 256 + r.code % 256 * 2 ^ 8 + r.gangid % 65536 * 2 ^ 16 + r.tileid % 65536 * 2 ^ 32 +
    r.ctxid % 65536 * 2 ^ 48 + r.addr.toNat * 2 ^ 64 + r.epc.toNat * 2 ^ 128 + r.tag % 65536 * 2 ^ 192 +
    r.ecause.toNat % 2 ^ 32 * 2 ^ 224 + r.b32 % 256 * 2 ^ 256 + r.b33 % 256 * 2 ^ 264 + r.domain % 256 * 2 ^ 272)

/-! ### Work queues (R277, R399) -/

/-- A work queue. -/
def State.queue (s : State) (n : Nat) : Queue := s.queues.get Queue.initial n

/-- Replace a work queue. -/
def State.setQueue (s : State) (n : Nat) (q : Queue) : State := { s with queues := s.queues.put n q }

/-- The ticket of a queue's oldest item: the push count before its push (R277). -/
def Queue.ticket (q : Queue) : BitVec 32 := q.pushes - BitVec.ofNat 32 (q.items.length + q.scount)

/-- The address of a queue's scree slot i (R277). -/
def Queue.slot (q : Queue) (i : Nat) : Word := q.scree + toWord (64 * (i % q.quota))

/-- Deliver an item to a dequeuer: its 64 bytes in one access, its ticket, and the instruction completes (R280). -/
def State.deliver (s : State) (w : DeqWaiter) (item : Vec) (ticket : BitVec 32) : State :=
  { s with mem := s.mem.write w.loc 64 item.toNat }.finish w.agent fun c => c.setX w.d (ticket.setWidth 64)

/-- What moving an item on chip finds. -/
inductive Moved where
  | moved (s : State)
  | stuck (s : State) (code : Nat) (slot : Word)
  | idle

/-- Move the scree's oldest item on chip if there is one and room (R277); a slot that cannot be read stays, with every
later item behind it (R399). -/
def State.moveOne (s : State) (n : Nat) : Moved :=
  let q := s.queue n
  if q.scount = 0 || 64 ≤ q.items.length then .idle
  else match s.unitRead (q.slot q.shead) 64 with
    | .ok v => .moved (s.setQueue n { q with items := q.items ++ [BitVec.ofNat 512 v], shead := q.shead + 1,
                                             scount := q.scount - 1, stuck := false })
    | .error code =>
      if q.stuck then .idle else .stuck (s.setQueue n { q with stuck := true }) code (q.slot q.shead)

/-- Hand the oldest item on chip to the head waiter, if there are both. -/
def State.serveOne (s : State) (n : Nat) : Option State :=
  let q := s.queue n
  match q.waiters, q.items with
  | w :: ws, item :: rest => some ((s.setQueue n { q with waiters := ws, items := rest }).deliver w item q.ticket)
  | _, _ => none

/-- Move and serve until nothing more can be done; the slot that stopped it, if one did for the first time. -/
def State.settleQueue (s : State) (n : Nat) : Nat → State × Option (Nat × Word)
  | 0 => (s, none)
  | fuel + 1 =>
    match s.moveOne n with
    | .moved s => s.settleQueue n fuel
    | .stuck s code slot =>
      match s.serveOne n with
      | some s => ((s.settleQueue n fuel).1, some (code, slot))
      | none => (s, some (code, slot))
    | .idle =>
      match s.serveOne n with
      | some s => s.settleQueue n fuel
      | none => (s, none)

/-- Put an item into an open queue: on chip while the scree is empty and fewer than 64 are there, else into the scree; the
code of a refusal otherwise (R277, R279, R399). -/
def State.putItem (s : State) (n : Nat) (item : Vec) : State × Except Nat (BitVec 32) :=
  let q := s.queue n
  let done := { q with pushes := q.pushes + 1 }
  if q.scount = 0 && q.items.length < 64 then
    (s.setQueue n { done with items := q.items ++ [item] }, .ok q.pushes)
  else if q.scount < q.quota then
    match s.unitWrite (q.slot (q.shead + q.scount)) 64 item.toNat with
    | .ok s => (s.setQueue n { done with scount := q.scount + 1 }, .ok q.pushes)
    | .error code => (s, .error code)
  else (s.setQueue n { q with refused := true }, .error Code.quota)

/-- Enough turns for a queue to settle: one for each slot that moves on chip, of which each waiter and each place there takes one,
and one for each item that a waiter gets. -/
def Queue.turns (q : Queue) : Nat := 66 + 2 * q.waiters.length

/-- The type-2 record for a scree slot that cannot be read, or written where `store` is set (R297, R350, R361, R399). -/
def stuckRecord (code : Nat) (slot : Word) (store : Bool := false) : RecordFields :=
  { type := 2, code := code, addr := slot, b32 := if store then 1 else 0 }

/-- Offer a record to the kernel fault queue, with the count of records lost before it (R361): the state after it, which has Q set
where the quota refused it (R281), whether the queue took it, and the slot of the queue's scree that could not be read, if one was
met for the first time. Flags PC and PG are not consulted. -/
def State.offerRecord (s : State) (r : Vec) : State × Bool × Option (Nat × Word) :=
  if (s.queue 0).open_ then
    match s.putItem 0 (BitVec.ofNat 512 (putBitsN r.toNat (26 * 8) 16 s.mgmt.records.lost)) with
    | (s', .ok _) =>
      let s' := { s' with mgmt := { s'.mgmt with records := { s'.mgmt.records with lost := 0 } } }
      let x := s'.settleQueue 0 (s'.queue 0).turns
      (x.1, true, x.2)
    | (s', .error _) => (s', false, none)
  else (s, false, none)

/-- Hold a record behind those held, up to 256; the rest are lost and counted (R361). -/
def State.holdRecord (s : State) (r : Vec) : State :=
  if s.mgmt.records.held.length < 256 then
    { s with mgmt := { s.mgmt with records := { s.mgmt.records with held := s.mgmt.records.held ++ [r] } } }
  else { s with mgmt := { s.mgmt with records := { s.mgmt.records with lost := s.mgmt.records.lost + 1 } } }

/-- One record to the resident kernel: to queue 0 if no record is held and the queue takes it, else held (R361); with the slot
of queue 0 that could not be read. -/
def State.pushOnce (s : State) (r : RecordFields) : State × Option (Nat × Word) :=
  if s.mgmt.records.held.isEmpty then
    match s.offerRecord r.pack with
    | (s, true, slot) => (s, slot)
    | (s, false, _) => (s.holdRecord r.pack, none)
  else (s.holdRecord r.pack, none)

/-- The record about a slot of queue 0 that could not be read follows; it meets no further one (R399). -/
def State.reportStuck (s : State) : Option (Nat × Word) → State
  | none => s
  | some (code, slot) => (s.pushOnce (stuckRecord code slot)).1

/-- A fault record to the resident kernel (R361). -/
def State.pushRecord (s : State) (r : RecordFields) : State := (s.pushOnce r).1.reportStuck (s.pushOnce r).2

/-- The complex offers the held records again, in order, until the queue refuses one or none is left (R361). -/
def State.reofferRecords (s : State) : Nat → State
  | 0 => s
  | fuel + 1 =>
    match s.mgmt.records.held with
    | [] => s
    | r :: rest =>
      match s.offerRecord r with
      | (t, true, slot) =>
        let t := { t with mgmt := { t.mgmt with records := { t.mgmt.records with held := rest } } }
        (t.reportStuck slot).reofferRecords fuel
      | (t, false, _) => t

/-- After an item has been put or an on-chip entry freed: move and serve, and report a slot that cannot be read (R277,
R399). -/
def State.settle (s : State) (n : Nat) : State :=
  match s.settleQueue n (s.queue n).turns with
  | (s, none) => s
  | (s, some (code, slot)) => s.pushRecord (stuckRecord code slot)

/-- Push an item to a queue (admission is the caller's): the ticket or the refusal (R279). -/
def State.pushItem (s : State) (n : Nat) (item : Vec) : State × Except Nat (BitVec 32) :=
  match s.putItem n item with
  | (s, .ok t) => (s.settle n, .ok t)
  | (s, .error code) => (s.settle n, .error code)

end Sys2Proof.Machine
end

