-- ==== Sys2Proof/Machine/Ops.lean ====
section
/-! DEFINITION. The named operations that the instructions share: the alarm and the counted soft errors, the address
checks, performing an access at its home, TAKING AN EXCEPTION and returning from it. -/

namespace Sys2Proof.Machine

/-! ### Soft-error counts and the alarm -/

/-- A word for MBOXOUT that the complex has produced and not yet written: a notice (R374). -/
def State.pushNotice (s : State) (command value : Nat) : State :=
  { s with mgmt := { s.mgmt with notices := s.mgmt.notices ++ [toWord (command * 2 ^ 56 + value % 2 ^ 48)] } }

/-- Set or clear a bit of the DIB byte at 0x00C: 0 MAPFAIL, 1 unkeyed, 2 complex B active (R371). -/
def State.setDib (s : State) (i : Nat) (b : Bool) : State :=
  { s with mem := s.mem.write (Config.dib + 0xC) 1 (putBitsN (s.mem.read (Config.dib + 0xC) 1) i 1 (if b then 1 else 0)) }

/-- The cause code of an alarm (R374). -/
def alarmCode : AlarmCause → Nat
  | .signature => 1
  | .window => 2
  | .tamper => 3

/-- Put an entry at the end of the alarm log; entries of one cycle stand in the order of their causes (R370). -/
def insertAlarm (e : AlarmEntry) : List AlarmEntry → List AlarmEntry
  | [] => [e]
  | x :: rest =>
    if x.cycle = e.cycle && decide (alarmCode e.cause < alarmCode x.cause) then e :: x :: rest
    else x :: insertAlarm e rest

/-- The Signet raises the alarm: a log entry (the newest 16 stay, log entry 26), a notice and a type-7 record, and with
EOA = 1 the keys are erased and the DIB says so (R369). While unkeyed an alarm is logged and recorded and has no other
effect; during a kernel crash the record waits with those held (R370). -/
def State.raiseAlarm (s : State) (cause : AlarmCause) (agent : Nat) : State :=
  let log := insertAlarm ⟨cause, BitVec.ofNat 16 agent, s.now⟩ s.signet.log
  let log := if 16 < log.length then log.drop (log.length - 16) else log
  let was := s.signet.keyed
  let s := { s with signet := { s.signet with log := log, keyed := was && !s.signet.eoa } }
  let s := if s.signet.keyed then s else s.setDib 1 true
  let s := if was then s.pushNotice 0x82 (alarmCode cause * 2 ^ 40 + agent % 65536 * 2 ^ 24) else s
  let r : RecordFields := { type := 7, code := Code.alarm }
  if s.mgmt.crashed then s.holdRecord r.pack else s.pushRecord r

/-- The alarm of an access that a unit of an agent makes to the Signet's window, whatever its outcome is (R368, R369). -/
def State.windowAlarm (s : State) (va : Word) (agent : Nat) : State :=
  match s.walk 0 va with
  | some l => if isPaged va.toNat && Config.signetBase ≤ l.pa va then s.raiseAlarm .window agent else s
  | none => s

/-- How many of some events lie in the last `window` cycles (R226). -/
def inWindow (now window : Nat) (events : List Nat) : Nat := (events.filter fun t => now < t + window).length

/-- Count an event under the window rule (R226): the events with this one, and whether it brings the count of those in the
last `window` cycles to the threshold. -/
def countEvent (now window thr : Nat) (events : List Nat) : List Nat × Bool :=
  let es := events ++ [now]
  (es, decide (thr ≠ 0) && decide (window ≠ 0) && decide (inWindow now window es = thr))

/-- A fault code that some engine raises, from the free value (R364; log entry 18): 0x0A, 0x0D and those above 0x1C are never
raised. -/
def State.freeCode (s : State) : Nat :=
  ((List.range 0x1D).filter fun c => c ≠ 0x0A && c ≠ 0x0D).getD (s.freeWord.toNat % 27) 0

/-- bzwin's window in tile cycles (R226). -/
def windowCycles (bzwin : Word) : Nat := bits bzwin 31 0 * 3000000

/-- Declare a tile lasting: reported with a type-5 record whose byte 32 names the source (R226, R227, R367). -/
def State.declareLasting (s : State) (tile source : Nat) : State :=
  let s := s.modTile tile fun t => { t with lasting := true }
  let domain := match (s.tile tile).gang.bind s.gangs.find with
    | some g => g.fdom
    | none => 0
  s.pushRecord { type := 5, code := Code.bezel, gangid := (s.tile tile).gang.getD 0, tileid := tile, b32 := source,
                 domain := domain }

/-- Count a correctable ECC event at a location: of a local-memory bank (R24, R227), or of an HBM channel under the
firmware's defaults of 60 s and 16 (R367). Which of a tile's 16 banks of 256 KiB an offset meets is not given, nor which of a home's
four channels an address does: offset bits 21:18, and physical address bits 19:18 (DESIGN CHOICE, log entry 22). -/
def State.countEcc (s : State) (loc : Nat) : State :=
  if 2 ^ 40 ≤ loc then
    let tile := (loc - 2 ^ 40) / 2 ^ 22
    let bank := (loc - 2 ^ 40) % 2 ^ 22 / 2 ^ 18
    let t := s.tile tile
    let r := countEvent s.now (windowCycles t.bzwin) (bits t.bzwin 39 32) (t.bankEvents.get [] bank)
    let s := s.modTile tile fun t => { t with bankEvents := t.bankEvents.put bank r.1 }
    if r.2 then s.declareLasting tile 1 else s
  else
    let ch := loc / 2 ^ 12 % 64 * 4 + loc / 2 ^ 18 % 4
    let r := countEvent s.now (60 * 3000000000) 16 (s.mgmt.hbmEvents.get [] ch)
    let s := { s with mgmt := { s.mgmt with hbmEvents := s.mgmt.hbmEvents.put ch r.1 } }
    if r.2 then (s.pushRecord { type := 5, code := s.freeCode, addr := toWord ch, b32 := 2 }).spend else s

/-! ### Address checks at the issuer (R36 to R41, R121) -/

/-- What the issuer's checks find: the place, a fault (`late` when a store takes it late), or a translation miss. -/
inductive Checked where
  | ok (t : Target)
  | fault (code : Nat) (late : Bool)
  | miss
  | signet
deriving DecidableEq, Repr

/-- The checks that follow the address's own rows of R121: the space byte (R37), and for a remote access the fence of a
missed heartbeat (R163). -/
def State.checkSpace (s : State) (a : Agent) (space : Byte) (va : Word) (remote : Bool) (place : Nat) : Checked :=
  if s.ownSpace space then
    if remote && s.isFenced a then .fault Code.nack true else .ok (.loc place)
  else if !remote then .fault Code.xlate true
  else if !s.memberSpace space then .fault Code.xlate true
  else if s.isFenced a then .fault Code.nack true
  else .ok (.device space (if bits va 63 60 = 15 then va else toWord place))

/-- The issuer's checks of one access of n bytes, in the order of R121's table; alignment is its caller's. kind: 0 load,
1 store, 2 atomic, 3 fetch. -/
def State.check (s : State) (a : Agent) (space : Byte) (va : Word) (n kind : Nat) (kernel : Bool) : Checked :=
  let nib := bits va 63 60
  let off := bits va 21 0
  if nib = 0 then
    match a with
    | .crest _ _ => .fault Code.prot false
    | .facet t _ _ =>
      if bits va 59 22 ≠ 0 || 0x40_0000 < off + n then .fault Code.lmrange false
      else if !kernel && 0x3C_0000 < off + n then .fault Code.prot false
      else if kernel && (kind = 1 || kind = 2) && (s.tile t.val).wp && 0x3C_0000 < off + n && off < 0x3C_4000 then
        .fault Code.prot false
      else s.checkSpace a space va false (lmLoc t.val off)
  else if nib = 15 then
    if bits va 59 32 ≠ 0 || 900 ≤ bits va 31 22 then .fault Code.lmrange false
    else s.checkSpace a space va true (lmLoc (bits va 31 22) off)
  else
    match s.translate (tlbTile a) space va (isCrest a) with
    | none => if isCrest a then .fault Code.xlate false else .miss
    | some l =>
      if Config.signetBase ≤ l.pa va then .signet
      else if !permits l.perms kind kernel then .fault Code.prot false
      else s.checkSpace a space va true (hbmLoc (l.pa va))

/-! ### Performing at the home (R43, R257) -/

/-- Does a window of a tile admit an access: every byte in its range, the kinds granted, the source selector matched
(R40, R256, R257)? src is the tile of a tile source; crest cores, bridges and other devices match only selector 2. -/
def windowAdmits (w : Word) (off n : Nat) (read write : Bool) (sameGang sameRegion : Bool) : Bool :=
  let base := bits w 21 0
  let limit := bits w 53 32
  decide (base < limit) && decide (base ≤ off) && decide (off + n ≤ limit) && decide (off + n ≤ 0x3C_0000) &&
    (!read || bit w 63) && (!write || bit w 62) &&
    (match bits w 61 60 with
     | 0 => sameGang
     | 1 => sameRegion
     | 2 => true
     | _ => false)

/-- Is a source of the target tile's gang (selector 0), and of its region (selector 1) (R257)? -/
def State.sameGang (s : State) (tile : Nat) (src : Option Nat) : Bool :=
  match src with
  | some u => (s.tile u).gang.isSome && (s.tile u).gang = (s.tile tile).gang
  | none => false

/-- Is it of the target gang's region? -/
def State.sameRegion (s : State) (tile : Nat) (src : Option Nat) : Bool :=
  match src with
  | some u => (s.tile u).gang.isSome && (s.tile tile).gang.isSome && (s.tile u).region = (s.tile tile).region
  | none => false

/-- Does a tile refuse every inbound access: it is spilled, or one of its facets is fenced (R163, R264)? -/
def State.shut (s : State) (tile : Nat) : Bool :=
  (s.tile tile).spilled || [0, 1, 2, 3].any fun f => (s.facets.get Facet.initial (tile * 4 + f)).fenced

/-- The four windows of a tile against a source (R257). -/
def State.admits (s : State) (tile off n : Nat) (read write : Bool) (src : Option Nat) : Bool :=
  !s.shut tile && (s.tile tile).win.toList.any fun w =>
    windowAdmits w off n read write (s.sameGang tile src) (s.sameRegion tile src)

/-- Take the soft errors that strike the granules of [loc, loc + n): each correctable one is corrected, written back and
counted, and an uncorrectable one among them faults UNCORR (R24, R367). -/
def State.takeSoftError (s : State) (loc n : Nat) : State × Bool :=
  let hit := fun (e : Nat × Bool) => decide (loc / 8 ≤ e.1) && decide (e.1 ≤ (loc + n - 1) / 8)
  let met := s.softErrors.filter hit
  if met.isEmpty then (s, false)
  else
    ((met.filter fun e => !e.2).foldl (fun s e => s.countEcc (e.1 * 8))
      { s with softErrors := s.softErrors.filter fun e => !hit e }, met.any fun e => e.2)

/-- The new value of an atomic from the old value m, the operand and the comparand, in n-byte arithmetic; none where
nothing is written (R125, R126). -/
def amoNew (op : Amo) (n m operand comparand : Nat) : Option Nat :=
  let sm := signedN m (8 * n)
  let so := signedN operand (8 * n)
  match op with
  | .add => some ((m + operand) % 2 ^ (8 * n))
  | .swap => some operand
  | .cas => if m = comparand then some operand else none
  | .min => some (if sm ≤ so then m else operand)
  | .max => some (if so ≤ sm then m else operand)
  | .minu => some (if m ≤ operand then m else operand)
  | .maxu => some (if operand ≤ m then m else operand)
  | .and => some (m &&& operand)
  | .or => some (m ||| operand)
  | .xor => some (m ^^^ operand)

/-- A facet store or atomic to local memory, and a crest one to HBM, write bytes and nothing else: fill stamps are the
copy engine's (R191). -/
def State.poke (s : State) (loc n v : Nat) : State := { s with mem := s.mem.write loc n v }

/-- Perform one access at a location of this device, as its home does (R43, R45, R126): the state after it and the value
read, or UNCORR. -/
def State.performAt (s : State) (kind : AccKind) (loc n data : Nat) : State × Except Nat Nat :=
  match s.takeSoftError loc n with
  | (s, true) => (s, .error Code.uncorr)
  | (s, false) =>
    match kind with
    | .load => (s, .ok (s.mem.read loc n))
    | .store => (s.poke loc n data, .ok 0)
    | .amo op cmp =>
      let m := s.mem.read loc n
      match amoNew op n m data cmp with
      | some v => (s.poke loc n v, .ok m)
      | none => (s, .ok m)

/-- Does a kind of access read, and does it write (R257)? -/
def AccKind.reads : AccKind → Bool
  | .store => false
  | _ => true

/-- Does a kind of access need W (R257)? -/
def AccKind.writes : AccKind → Bool
  | .load => false
  | _ => true

/-- The number of a kind in the permission check (R359). -/
def AccKind.number : AccKind → Nat
  | .load => 0
  | .store => 1
  | .amo _ _ => 2

/-- An access that arrives at its home over the network: the target tile checks its windows, then it is performed (R40,
R43, R257). -/
def State.arrive (s : State) (src : Option Nat) (kind : AccKind) (loc n data : Nat) : State × Except Nat Nat :=
  if 2 ^ 40 ≤ loc && !s.admits ((loc - 2 ^ 40) / 2 ^ 22) ((loc - 2 ^ 40) % 2 ^ 22) n kind.reads kind.writes src then
    (s, .error Code.nack)
  else s.performAt kind loc n data

/-- A byte that a crest core has just written to HBM is dirty in its cache until something else writes it; `before` is what the home
held, unless the core's cache holds the byte already (R44, R365; log entry 75). -/
def dirtied (core : Nat) (before after : Byte) (was : Option DirtyByte) : DirtyByte :=
  { core := core, new := after
    old := match was with
      | some x => if x.core = core && x.new = before then x.old else before
      | none => before }

/-- The bytes that a crest core's store from state s to state t has left dirty. -/
def State.noteDirty (s t : State) (core loc n : Nat) : State :=
  if loc < 2 ^ 40 && !t.mgmt.crashed then
    { t with dirty := (List.range n).foldl (fun d i =>
        d.put (loc + i) (dirtied core (s.mem.byte (loc + i)) (t.mem.byte (loc + i)) (d.find (loc + i)))) t.dirty }
  else t

/-- One access of a context performed at a location of this device: through a local alias, or over the network (R43, R257). -/
def State.performBy (s : State) (a : Agent) (direct : Bool) (kind : AccKind) (loc n data : Nat) : State × Except Nat Nat :=
  let r := if direct then s.performAt kind loc n data else s.arrive (tileNo a) kind loc n data
  match a, kind, r.2 with
  | .crest k _, .store, .ok _ => (s.noteDirty r.1 k.val loc n, r.2)
  | _, _, _ => r

/-! ### Kernel entry and return (R171, R172, R178) -/

/-- The offset of a context's save record in its tile's local memory (R180). -/
def recordOffset (f c : Nat) : Nat := 0x3C_4000 + 0xC00 * (11 * f + c)

/-- The slot of the live bank of x24 to x31 in the save record: the ordinary bank's, or the user shadow bank's while a
user-level interrupt handler runs (R181). -/
def bankSlot (record : Nat) (uih : Bool) : Nat := record + (if uih then 0x940 else 0xC0)

/-- Write eight doublewords of local memory. -/
def State.writeBank (s : State) (tile off : Nat) (b : Vector Word 8) : State :=
  { s with mem := s.mem.setBytes (lmLoc tile off) (b.toList.flatMap fun w => toBytes 8 w.toNat) }

/-- Read eight doublewords of local memory. -/
def State.readBank (s : State) (tile off : Nat) : Vector Word 8 :=
  Vector.ofFn fun i => toWord (s.mem.read (lmLoc tile (off + 8 * i.val)) 8)

/-- ecause of a fault or entry (R167). -/
def ecauseOf (cls code : Nat) (late : Bool) (ring : Option (BitVec 16)) : Word :=
  toWord (code + cls * 2 ^ 8 + (if late then 2 ^ 10 else 0) +
    (match ring with
     | some q => 2 ^ 11 + q.toNat * 2 ^ 16
     | none => 0))

/-- The gang slot of a context, for a fault record (R361). -/
def State.gangOf (s : State) (a : Agent) : Nat :=
  match tileNo a with
  | some t => (s.tile t).gang.getD 0
  | none => 0

/-- The fault domain that a record about a tile's gang carries (R270, R361). -/
def State.faultDomain (s : State) (a : Agent) : Nat :=
  match (tileNo a).bind fun t => (s.tile t).gang.bind s.gangs.find with
  | some g => g.fdom
  | none => 0

/-- Is the group at a context's pc a REP group: its first word is of major 0x3E (R93)? Bytecode has none. -/
def State.repAt (s : State) (a : Agent) : Bool :=
  let c := s.ctx a
  let at_ := match a with
    | .facet t _ _ => some (lmLoc t.val c.pc.toNat)
    | .crest _ _ => match s.check a c.spc c.pc 4 3 c.kernel with
      | .ok (.loc l) => some l
      | _ => none
  !c.bytecode && match at_ with
    | some l => s.mem.read l 4 / 2 ^ 26 = 0x3E
    | none => false

/-- The identity fields of a fault record about a context (R361). -/
def State.recordFor (s : State) (a : Agent) (type code : Nat) : RecordFields :=
  { type := type, code := code, gangid := s.gangOf a, tileid := (tileNo a).getD 0xFFFF, ctxid := ctxid a,
    domain := s.faultDomain a }

/-- A DOUBLE: the context halts with its state in place, the tile's DOUBLE record is written if it is empty, and a type-3
record goes to the resident kernel (R178, R398). -/
def State.double (s : State) (a : Agent) (cause info epc : Word) : State :=
  let s := s.modCtx a fun c => { c with run := .halted }
  let s := match tileNo a with
    | none => s
    | some t =>
      let at_ := lmLoc t 0x3F_F020
      if s.mem.byte at_ = 0 then
        { s with mem := s.mem.setBytes at_ (toBytes 2 Code.double ++ toBytes 2 (ctxid a) ++ toBytes 4 0 ++
            toBytes 8 cause.toNat ++ toBytes 8 info.toNat ++ toBytes 8 epc.toNat) }
      else s
  s.pushRecord { s.recordFor a 3 Code.double with addr := info, epc := epc, ecause := cause }

/-- A context as an entry leaves its status, its exception registers and its pc (R170, R171). -/
def Ctx.entered (c : Ctx) (kt : Bool) (vector : Nat) (cause info epc : Word) : Ctx :=
  { c with
    estat := estatOf c.pe c.msv (vector = 0x40) kt c.uih false c.kernel true
    epc := epc, ecause := cause, einfo := info, pc := (c.tvec &&& ~~~0xFF) + toWord vector }

/-- The kernel bank as an entry on a facet brings it live: x24 to x27 hold the cause, x28 to x31 what the last handler left
(R171). -/
def Ctx.entryBank (c : Ctx) (cause info epc : Word) (record : Nat) : Vector Word 8 :=
  Vector.ofFn fun i =>
    if i.val = 0 then cause else if i.val = 1 then info else if i.val = 2 then epc
    else if i.val = 3 then toWord record else c.kbank[i.val]'i.isLt

/-- Taking an exception (R170, R171): the vector's offset, ecause, einfo and epc as the cause names them. A facet context
writes its live bank to its save record and gets its kernel bank; a crest context switches no bank and has no KT rule. -/
def State.enterKernel (s : State) (a : Agent) (vector : Nat) (cause info epc : Word) : State :=
  let c := s.ctx a
  match a with
  | .crest _ _ => s.setCtx a { c.entered c.kt vector cause info epc with bytecode := false }
  | .facet t f k =>
    if c.kt then s.double a cause info epc
    else
      let rec_ := recordOffset f.val k.val
      (s.writeBank t.val (bankSlot rec_ c.uih) c.bank).setCtx a
        ((c.entered true vector cause info epc).setBank (c.entryBank cause info epc rec_))

/-- The vector of a fault code (R170): FUTURE and FEATURE go to the emulation vector. -/
def vectorOf (code : Nat) : Nat := if code = Code.future || code = Code.feature then 0x40 else 0

/-- A precise fault of a context: epc is the group it was met at, and nothing else of the instruction happens (R91, R174).
At any instruction but a REP group (`rep`) it leaves repidx at 0 (R93). -/
def State.trapAt (s : State) (a : Agent) (code : Nat) (info : Word) (rep : Bool) : State :=
  let s' := s.enterKernel a (vectorOf code) (ecauseOf 0 code false none) info (s.ctx a).resume
  if rep || ((s.ctx a).kt && !isCrest a) then s' else s'.modCtx a fun c => { c with repidx := 0 }

/-- A precise fault of the instruction in issue (R6: Trap(code, info)). -/
def State.trap (s : State) (code : Nat) (info : Word) : State := s.trapAt s.cur code info s.latch.rep.isSome

/-- Trap with the instruction word in einfo (R91). -/
def State.trapWord (s : State) (code : Nat) : State := s.trap code (s.latch.word.setWidth 64)

/-- A context as kret leaves its status (R172). -/
def Ctx.returned (c : Ctx) : Ctx := { c with estat := estatOf c.pe false false false c.puih c.puih c.pprv c.pprv }

/-- Return from a kernel handler (R172), but for estat.PE = 1: the bank comes back from its save-record slot, privilege
and UIH are restored, KT, EMU and MSV are cleared, and the context goes on at epc. -/
def State.leaveKernel (s : State) (a : Agent) : State :=
  let c := s.ctx a
  match a with
  | .crest _ _ => s.setCtx a (c.returned.goto c.epc)
  | .facet t f k =>
    let back := s.readBank t.val (bankSlot (recordOffset f.val k.val) c.puih)
    s.setCtx a { { c.returned with kbank := c.bank }.setBank back with pc := c.epc &&& ~~~3 }

end Sys2Proof.Machine
end

