-- ==== Sys2Proof/Machine/Fabric.lean ====
section
/-! DEFINITION. The way of traffic out of the device: routes, keys, sequence numbers, and the load-store accesses that go to another
device of the domain (R63, R64, R377 to R380, R383). Packet formats are the model's own (DESIGN CHOICE, log entry 21). -/

namespace Sys2Proof.Machine

/-! ### Ports and tables (R379, R380) -/

/-- A port. -/
def State.port (s : State) (p : Nat) : Port := s.fabric.ports.get Port.initial p

/-- Change a port. -/
def State.modPort (s : State) (p : Nat) (f : Port → Port) : State :=
  { s with fabric := { s.fabric with ports := s.fabric.ports.put p (f (s.port p)) } }

/-- The ports of a 12-bit mask that have not failed, from the lowest: a failed port is out of every set (R382). -/
def State.portsOf (s : State) (mask : Nat) : List Nat :=
  (List.range 12).filter fun p => mask / 2 ^ p % 2 = 1 && !(s.port p).down

/-- The port that a request leaves by: of the named port's entry for the destination, the output set by the hash for MSG and
any port of the adaptive set for BULK, which one is a free value (R379; log entry 18). None: no route. -/
def State.route (s : State) (p dst cls : Nat) : Option Nat :=
  let e := (s.port p).routes.get 0 dst
  if !bit e 31 then none
  else
    let ports := s.portsOf (if cls = 2 then bits e 27 16 else bits e 11 0)
    let n := if cls = 2 then s.freeWord.toNat else (Config.routeHash s.mgmt.fabricId.toNat dst).toNat
    match ports with
    | [p] => some p
    | _ => ports[n % ports.length]?

/-- The key of a table entry, if it is valid (R380). -/
def keyOf (t : Table (BitVec 32)) (i : Nat) : Option (BitVec 16) :=
  let e := t.get 0 i
  if bit e 16 then some (e.setWidth 16) else none

/-- Does a key match a valid ingress entry of a port (R380)? -/
def Port.admits (p : Port) (key : BitVec 16) : Bool := (List.range 64).any fun i => keyOf p.ingress i = some key

/-- Hand a packet to a port: MSG and LS packets take the pair's next sequence number (R377). -/
def State.transmit (s : State) (p : Packet) : State :=
  let k := p.dest * 4 + p.cls
  let n := s.fabric.sendSeq.get 0 k
  if p.cls = 2 then { s with fabric := { s.fabric with sent := s.fabric.sent ++ [{ p with seq := 0 }] } }
  else { s with
    fabric := { s.fabric with sent := s.fabric.sent ++ [{ p with seq := n }], sendSeq := s.fabric.sendSeq.put k (n + 1) } }

/-! ### Load-store traffic (R63, R383) -/

/-- The key of load-store traffic at a port: its lowest valid egress entry (DESIGN CHOICE, log entry 21). -/
def Port.lsKey (p : Port) : Option (BitVec 16) := (List.range 64).findSome? fun i => keyOf p.egress i

/-- The port that load-store traffic for a destination leaves by: by the table of the lowest port that has a route (DESIGN CHOICE,
log entry 21). -/
def State.lsRoute (s : State) (dst : Nat) : Option Nat := (List.range 12).findSome? fun p => s.route p dst 0

/-- Destination and key of load-store traffic for a fabric id: XLATE without a route, PROT without a valid egress key (R379,
R380). -/
def State.lsTo (s : State) (dst : Nat) : Except Nat (Nat × BitVec 16) :=
  match s.lsRoute dst with
  | none => .error Code.xlate
  | some p => match (s.port p).lsKey with
    | none => .error Code.prot
    | some key => .ok (dst, key)

/-- The same for a space byte: entry s of the domain table (R383). -/
def State.lsWay (s : State) (sp : Byte) : Except Nat (Nat × BitVec 16) :=
  match s.mgmt.domainTable.find sp.toNat with
  | none => .error Code.xlate
  | some id => s.lsTo id.toNat

/-- What a load-store packet asks for, as its window field says it (log entry 21): a read, a write, an atomic, a message for a
mailbox, an indivisible change of a header by a crest core's bridge, a V. -/
inductive LsOp where
  | read
  | write
  | amo (op : Amo)
  | message
  | header
  | signal
deriving DecidableEq, Repr

/-- The number of an operation. -/
def LsOp.code : LsOp → Nat
  | .read => 0
  | .write => 1
  | .amo .add => 2
  | .amo .swap => 3
  | .amo .cas => 4
  | .amo .min => 5
  | .amo .max => 6
  | .amo .minu => 7
  | .amo .maxu => 8
  | .amo .and => 9
  | .amo .or => 10
  | .amo .xor => 11
  | .message => 12
  | .header => 13
  | .signal => 14

/-- Send a load-store packet about n bytes at an address of a space, or refuse it as the request's completion would. -/
def State.sendLs (s : State) (sp : Byte) (va : Word) (op : LsOp) (n : Nat) (payload : List Byte) : Except Nat State :=
  (s.lsWay sp).map fun (dst, key) =>
    { s with nextId := s.nextId + 1 }.transmit
      { dest := dst, source := s.mgmt.fabricId.toNat, cls := 0, key := key, window := op.code, offset := va.toNat, seq := 0
        request := s.nextId, start := 0, total := n, payload := payload }

/-- The codes that a home of another device, or the way to it, may answer an access with (R63, R64, R121, R364). -/
def lsCodes : List Nat := [Code.lmrange, Code.prot, Code.xlate, Code.nack, Code.uncorr, Code.linklost]

/-- An access to another device of the domain, with what comes back from there: its bytes, or the code of a refusal or of a
loss (R63, R64); an answer with no code of R364 that a home gives is none, and the access is lost. -/
def State.toDevice (s : State) (sp : Byte) (va : Word) (op : LsOp) (n : Nat) (payload : List Byte) (reply : Reply) :
    State × Except Nat Nat :=
  match s.sendLs sp va op n payload with
  | .error code => (s, .error code)
  | .ok s =>
    match reply with
    | .own => (s, .error Code.linklost)
    | .data bs => (s, .ok (fromBytes bs % 2 ^ (8 * n)))
    | .refused code => (s, .error (if lsCodes.contains code.toNat then code.toNat else Code.linklost))

/-- A reply that another device may give is not this device's to know: a free value says whether it refuses and with which code,
or what it reads (log entry 18). -/
def State.freeReply (s : State) : Reply :=
  let code := bits s.freeWord 7 0
  if lsCodes.contains code then
    .refused (BitVec.ofNat 8 code)
  else .data ((List.range 8).flatMap fun i => toBytes 8 (Config.freeWord (s.free + 1 + i)).toNat)

/-- Move the free-value counter past a reply. -/
def State.spendReply (s : State) : State := { s with free := s.free + 9 }

/-- An access to another device that is answered at once, with a free reply. -/
def State.askDevice (s : State) (sp : Byte) (va : Word) (op : LsOp) (n : Nat) (payload : List Byte) : State × Except Nat Nat :=
  s.spendReply.toDevice sp va op n payload s.freeReply

end Sys2Proof.Machine
end

