-- ==== Sys2Proof/Machine/Operands.lean ====
section
/-! DEFINITION. Operand forms: immediates, rounding fields, the formats a scalar register holds, lanes and masks, and the
shapes in which an instruction reads its operands, computes and retires. -/

namespace Sys2Proof.Machine

/-! ### Immediates (R85, R92, R103) -/

/-- SignExt(imm16, 16). -/
def immS (i : BitVec 16) : Word := i.signExtend 64

/-- ZeroExt(imm16, 16). -/
def immZ (i : BitVec 16) : Word := i.setWidth 64

/-- The 42-bit immediate that LONG forms with an instruction's imm16 (R92). -/
def immLong (h : BitVec 26) (i : BitVec 16) : Word := signExt (h.toNat * 2 ^ 16 + i.toNat) 42

/-! ### Shapes of the scalar instructions (R100) -/

/-- X[d] from X[a] and X[b]. -/
def rr (f : Word → Word → Word) (d a b : BitVec 5) (s : State) : State :=
  s.setXRetire d (f (s.c.getX a) (s.c.getX b))

/-- X[d] from X[a]. -/
def r1 (f : Word → Word) (d a : BitVec 5) (s : State) : State := s.setXRetire d (f (s.c.getX a))

/-- X[d] from X[a] and an immediate. -/
def ri (f : Word → Word → Word) (d a : BitVec 5) (imm : Word) (s : State) : State :=
  s.setXRetire d (f (s.c.getX a) imm)

/-- A conditional branch: the target is the branch's own address + 4 * SignExt(disp12, 12) (R85, R107). -/
def branchIf (taken : Bool) (disp : BitVec 12) (s : State) : State :=
  if taken then s.mod fun c => { c with pc := c.pc + 4 * disp.signExtend 64 } else s.retire

/-- An instruction that keeps a facet's context busy after issue (R101, R139): its results are written, and the undo
record says what abandoning it puts back. A crest core has no bound. -/
def State.busyFor (s : State) (cycles : Nat) (xd vd : Option (BitVec 5)) (f : Ctx → Ctx) : State :=
  let c := s.c
  let c' := f c
  if isCrest s.cur then s.setCtx s.cur c'
  else s.setCtx s.cur { c' with
    run := .busy (s.now + cycles)
    undo := some { pc := c.pc, repidx := c.repidx, fflags := c.fflags, srgen := c.srgen,
                   x := xd.map fun d => (d, c.getX d), v := vd.map fun d => (d, c.getV d) } }

/-! ### Features and privilege (R91 steps 5 and 7, R96, R97) -/

/-- fmask of the executing core (R97). -/
def fmaskOf (a : Agent) : Nat := if isCrest a then 0x1F87 else 0x7FF

/-- Run an instruction whose feature the core has; otherwise trap FEATURE to the emulation vector (R90). -/
def State.needFeature (s : State) (bitNo : Nat) (k : State → State) : State :=
  if fmaskOf s.cur / 2 ^ bitNo % 2 = 1 then k s else s.trapWord Code.feature

/-- Run a kernel-only instruction; at user privilege it traps PRIV (R91 step 7). -/
def State.needKernel (s : State) (k : State → State) : State := if s.c.kernel then k s else s.trapWord Code.priv

/-- Run an instruction whose operand limits hold; otherwise trap ILLEGAL (R91 step 8). -/
def State.needLimits (s : State) (ok : Bool) (k : State → State) : State := if ok then k s else s.trapWord Code.illegal

/-! ### Rounding fields (R73, R112, R115, R141) -/

/-- The rounding mode of a scalar instruction: frm when dyn = 1, else the field; none for 6 and 7. Only a restore can put 6 or 7
into frm; it then rounds as SR (DESIGN CHOICE, log entry 67). -/
def scalarMode (c : Ctx) (dyn : BitVec 1) (m : BitVec 3) : Option Nat :=
  if dyn = 1 then some c.frm.toNat else if m.toNat ≤ 5 then some m.toNat else none

/-- The rounding mode of a vector instruction by its selector: frm, RNE, RTZ, SR (R141). -/
def vectorMode (c : Ctx) (r : BitVec 2) : Nat :=
  match r.toNat with
  | 0 => c.frm.toNat
  | 1 => 0
  | 2 => 1
  | _ => 5

/-! ### Scalar floating-point operands (R111, R116) -/

/-- The format code of a scalar type field: .s FP32, .d FP64 (R112). -/
def scalarFmt (t : BitVec 1) : Nat := if t = 1 then 0 else 1

/-- The format code of a vector type field: .s, .bf, .hf, .d (R141). -/
def vectorFmt (t : BitVec 2) : Nat :=
  match t.toNat with
  | 0 => 1
  | 1 => 3
  | 2 => 2
  | _ => 0

/-- The low bits of a register that a format reads (R111, R116). -/
def readFmt (code : Nat) (x : Word) : Nat := x.toNat % 2 ^ fmtBits code

/-- A result as a register holds it: INT32 and INT8 sign-extended, the others with zeros above (R111, R116). -/
def writeFmt (code : Nat) (v : Nat) : Word :=
  if code = 11 || code = 9 then signExt v (fmtBits code) else toWord v

/-! ### Lanes and masks (R137, R138) -/

/-- Element bits of a width field: .b, .h, .w, .d (R140). -/
def widthBits (w : BitVec 2) : Nat := 8 * 2 ^ w.toNat

/-- Lane i is active when bit i of K[km] is 1 (R138). -/
def active (c : Ctx) (km : BitVec 3) (i : Nat) : Bool := (c.getK km).getLsbD i

/-- The activity of n lanes. -/
def activeLanes (c : Ctx) (km : BitVec 3) (n : Nat) : List Bool := (List.range n).map (active c km)

/-- The elements of a destination: an active lane takes its result, an inactive one keeps its old element or becomes 0
(R138). -/
def mergeLanes (act : List Bool) (zero : Bool) (old new : List Nat) : List Nat :=
  (act.zip (old.zip new)).map fun (a, o, n) => if a then n else if zero then 0 else o

/-- A vector register from its elements (R137). -/
def packVec (width : Nat) (xs : List Nat) : Vec := BitVec.ofNat 512 (vecOfLanes width xs)

/-- A mask register from the results of n lanes: an inactive lane keeps its old bit or becomes 0; bits n and above are 0
(R138, R140; for a comparison, DEDUCED, log entry 68). -/
def packMask (act : List Bool) (zero : Bool) (old : Word) (new : List Bool) : Word :=
  toWord (((act.zip new).zipIdx.map fun ((a, r), i) =>
    if (if a then r else if zero then false else old.getLsbD i) then 2 ^ i else 0).sum)

/-- The mask register that a 5-bit field of at most 7 names (R86). -/
def maskReg (r : BitVec 5) : BitVec 3 := r.setWidth 3

end Sys2Proof.Machine
end

