-- ==== Sys2Proof/WellFormed.lean ====
section
/-! DEFINITION. The operand limits that the part checks last, at step 8 of R91: an instruction that breaks one
decodes, and its meaning traps ILLEGAL (or, where the row says so, no such step exists). -/

namespace Sys2Proof

/-- A 5-bit field that names a mask register: above 7 it traps ILLEGAL (R86). -/
def maskField (r : BitVec 5) : Bool := decide (r.toNat ≤ 7)

/-- A size field of a load: 7 is ILLEGAL (R85). -/
def loadSize (s : BitVec 3) : Bool := decide (s.toNat < 7)

/-- A size field of a store: 7 and the zero-extending sizes are ILLEGAL (R85). -/
def storeSize (s : BitVec 3) : Bool := decide (s.toNat < 7) && decide (s.toNat % 2 = 0)

/-- A rounding mode that R73 assigns. -/
def roundingMode (m : BitVec 3) : Bool := decide (m.toNat ≤ 5)

/-- A rounding field: with dyn = 1 the mode field is ignored (R112, R115). -/
def roundingField (dyn : BitVec 1) (m : BitVec 3) : Bool := decide (dyn = 1) || roundingMode m

/-- A format code that a conversion takes: 0xD to 0xF and LQ2 trap ILLEGAL (R65, R115, R150). -/
def formatField (f : BitVec 4) : Bool := decide (f.toNat ≤ 0xC) && decide (f.toNat ≠ 7)

/-- A field that names the first of a run of n registers must not run past register 31 (R85). -/
def runOf (n : Nat) (r : BitVec 5) : Bool := decide (r.toNat + n ≤ 32)

/-- The fwcall numbers that R385 assigns. -/
def fwcallNumbers : List Nat := [0x00, 0x01, 0x02, 0x10, 0x11, 0x20, 0x30, 0x40]

/-- The operand limits of every instruction (R91, step 8; those that step 8 does not list DEDUCED, log entry 44). A step of the part that is no instruction has none; ILLEGAL
stands for a word that is no encoding, so it is never well formed. -/
def Instr.wf : Instr → Bool
  | .fwcallUnknown n => !(fwcallNumbers.contains n.toNat)
  | .trap _ => true
  | .nop _ => true
  | .long _ => true
  | .rep _ _ _ _ => true
  | .add _ _ _ => true
  | .sub _ _ _ => true
  | .and _ _ _ => true
  | .or _ _ _ => true
  | .xor _ _ _ => true
  | .andn _ _ _ => true
  | .orn _ _ _ => true
  | .sll _ _ _ => true
  | .srl _ _ _ => true
  | .sra _ _ _ => true
  | .rol _ _ _ => true
  | .slt _ _ _ => true
  | .sltu _ _ _ => true
  | .min _ _ _ => true
  | .max _ _ _ => true
  | .minu _ _ _ => true
  | .maxu _ _ _ => true
  | .lea _ _ _ _ => true
  | .clz _ _ => true
  | .ctz _ _ => true
  | .popc _ _ => true
  | .bswap _ _ => true
  | .sextB _ _ => true
  | .sextH _ _ => true
  | .sextW _ _ => true
  | .zextW _ _ => true
  | .addi _ _ _ => true
  | .andi _ _ _ => true
  | .ori _ _ _ => true
  | .xori _ _ _ => true
  | .slti _ _ _ => true
  | .sltiu _ _ _ => true
  | .lih _ _ _ => true
  | .slli _ _ _ => true
  | .srli _ _ _ => true
  | .srai _ _ _ => true
  | .roli _ _ _ => true
  | .mul _ _ _ => true
  | .mulh _ _ _ => true
  | .mulhu _ _ _ => true
  | .mulhsu _ _ _ => true
  | .div _ _ _ => true
  | .divu _ _ _ => true
  | .rem _ _ _ => true
  | .remu _ _ _ => true
  | .bEq _ _ _ => true
  | .bNe _ _ _ => true
  | .bLt _ _ _ => true
  | .bGe _ _ _ => true
  | .bLtu _ _ _ => true
  | .bGeu _ _ _ => true
  | .bKany a b _ => maskField a && maskField b
  | .bKall a b _ => maskField a && maskField b
  | .bKnone a b _ => maskField a && maskField b
  | .j _ => true
  | .jl _ => true
  | .jr _ => true
  | .jlr _ _ => true
  | .ld _ _ s _ => loadSize s
  | .st _ _ s _ => storeSize s
  | .ldx _ _ _ s => loadSize s
  | .stx _ _ _ s => storeSize s
  | .ldAcq _ _ s => loadSize s
  | .stRel _ _ s => storeSize s
  | .raddr _ _ _ => true
  | .amoAdd _ _ _ _ _ => true
  | .amoSwap _ _ _ _ _ => true
  | .amoCas _ _ _ _ _ => true
  | .amoMin _ _ _ _ _ => true
  | .amoMax _ _ _ _ _ => true
  | .amoMinu _ _ _ _ _ => true
  | .amoMaxu _ _ _ _ _ => true
  | .amoAnd _ _ _ _ _ => true
  | .amoOr _ _ _ _ _ => true
  | .amoXor _ _ _ _ _ => true
  | .fenceIssue _ _ => true
  | .fenceWait _ => true
  | .fenceTest _ _ => true
  | .mtxLock b => decide (b.toNat ≤ 15)
  | .mtxTry _ b => decide (b.toNat ≤ 15)
  | .mtxUnlock b => decide (b.toNat ≤ 15)
  | .semP _ => true
  | .semV _ => true
  | .semTry _ _ => true
  | .semRd _ _ => true
  | .beadStart _ _ _ => true
  | .beadWait _ => true
  | .beadLive _ => true
  | .srr _ _ => true
  | .srw _ _ _ => true
  | .srs _ _ _ => true
  | .src _ _ _ => true
  | .fadd _ _ _ y m _ => roundingField y m
  | .fsub _ _ _ y m _ => roundingField y m
  | .fmul _ _ _ y m _ => roundingField y m
  | .fdiv _ _ _ y m _ => roundingField y m
  | .fsqrt _ _ y m _ => roundingField y m
  | .fmadd _ _ _ y m _ => roundingField y m
  | .fmin _ _ _ _ => true
  | .fmax _ _ _ _ => true
  | .fneg _ _ _ => true
  | .fabs _ _ _ => true
  | .feq _ _ _ _ => true
  | .flt _ _ _ _ => true
  | .fle _ _ _ _ => true
  | .fclass _ _ _ => true
  | .cvt _ _ g _ m f y => roundingField y m && formatField g && formatField f
  | .vadd _ _ _ _ _ _ => true
  | .vsub _ _ _ _ _ _ => true
  | .vmul _ _ _ _ _ _ => true
  | .vmulh _ _ _ _ _ _ => true
  | .vand _ _ _ _ _ _ => true
  | .vor _ _ _ _ _ _ => true
  | .vxor _ _ _ _ _ _ => true
  | .vsll _ _ _ _ _ _ => true
  | .vsrl _ _ _ _ _ _ => true
  | .vsra _ _ _ _ _ _ => true
  | .vmin _ _ _ _ _ _ => true
  | .vmax _ _ _ _ _ _ => true
  | .vminu _ _ _ _ _ _ => true
  | .vmaxu _ _ _ _ _ _ => true
  | .vabs _ _ _ _ _ => true
  | .vmerge _ _ _ _ _ => true
  | .vcmpEq d _ _ _ _ _ => maskField d
  | .vcmpNe d _ _ _ _ _ => maskField d
  | .vcmpLt d _ _ _ _ _ => maskField d
  | .vcmpLtu d _ _ _ _ _ => maskField d
  | .vcmpLe d _ _ _ _ _ => maskField d
  | .vcmpLeu d _ _ _ _ _ => maskField d
  | .vfadd _ _ _ _ _ _ _ => true
  | .vfsub _ _ _ _ _ _ _ => true
  | .vfmul _ _ _ _ _ _ _ => true
  | .vfma _ _ _ _ _ _ _ => true
  | .vfdiv _ _ _ _ _ _ _ => true
  | .vfsqrt _ _ _ _ _ _ => true
  | .vfmin _ _ _ _ _ _ => true
  | .vfmax _ _ _ _ _ _ => true
  | .vfneg _ _ _ _ _ => true
  | .vfabs _ _ _ _ _ => true
  | .vfcmpEq d _ _ _ _ _ => maskField d
  | .vfcmpLt d _ _ _ _ _ => maskField d
  | .vfcmpLe d _ _ _ _ _ => maskField d
  | .vfcmpUn d _ _ _ _ _ => maskField d
  | .vld _ _ _ _ _ => true
  | .vst _ _ _ _ => true
  | .vlds _ _ _ _ _ _ => true
  | .vsts _ _ _ _ _ => true
  | .vldx _ _ _ _ _ _ => true
  | .vstx _ _ _ _ _ => true
  | .vldb _ _ _ _ _ => true
  | .vperm _ _ _ _ _ _ => true
  | .vslide _ _ _ _ _ _ => true
  | .vbcast _ _ _ _ _ => true
  | .vext _ _ _ _ => true
  | .vins _ _ _ _ => true
  | .vidx _ _ _ _ => true
  | .vredAdd _ _ _ _ => true
  | .vredMin _ _ _ _ => true
  | .vredMax _ _ _ _ => true
  | .vscanAdd _ _ _ _ _ => true
  | .vredFadd _ _ _ _ => true
  | .vredFmin _ _ _ _ => true
  | .vredFmax _ _ _ _ => true
  | .vscanFadd _ _ _ _ _ => true
  | .kand d a b => maskField d && maskField a && maskField b
  | .kor d a b => maskField d && maskField a && maskField b
  | .kxor d a b => maskField d && maskField a && maskField b
  | .knot d a => maskField d && maskField a
  | .kmov d a => maskField d && maskField a
  | .kpopc _ a => maskField a
  | .kfirst _ a => maskField a
  | .kset d _ => maskField d
  | .vcvt _ _ f _ _ _ g m => roundingMode m && formatField g && formatField f
  | .vpack _ _ _ _ _ _ w => decide (w ≠ 0)
  | .vunpack _ _ _ _ _ _ w => decide (w ≠ 0)
  | .mmLoadw _ _ t => decide (t ≠ 0)
  | .mmStream _ _ t => decide (t ≠ 0)
  | .mmDrain _ _ t => decide (t ≠ 0)
  | .mmZero _ => true
  | .mmRdrow d _ => runOf 2 d
  | .mmSeq _ => true
  | .bzLocate _ => true
  | .bzFix _ _ => true
  | .bzRetry _ => true
  | .bzClear _ => true
  | .bzInject _ _ => true
  | .bzStat _ _ => true
  | .ttLoad _ t => decide (t ≠ 0)
  | .ttSlice t => decide (t ≠ 0)
  | .ttRd _ n t => decide (t ≠ 0) && decide (n.toNat ≤ 7)
  | .ttInval t => decide (t ≠ 0)
  | .cpyPush a => runOf 4 a
  | .cpyTry _ a => runOf 4 a
  | .cpyQuiesce _ => true
  | .msgSend _ b => runOf 2 b
  | .msgSendRel _ b => runOf 2 b
  | .msgMcast _ b => runOf 2 b
  | .msgMcastRel _ b => runOf 2 b
  | .mboxPop d => runOf 2 d
  | .mboxCnt _ => true
  | .tagLook _ _ _ => true
  | .tagSet _ _ => true
  | .tagClr _ _ => true
  | .tagFlush _ _ => true
  | .qPush _ _ _ => true
  | .qTry _ _ _ => true
  | .qDeq _ _ _ => true
  | .qTdeq _ _ _ => true
  | .qStat _ _ => true
  | .qReset _ _ => true
  | .taskNext d _ => runOf 6 d
  | .taskDone _ => true
  | .taskFail _ _ => true
  | .taskRearm _ => true
  | .taskSpawn _ _ => true
  | .gangLaunch _ _ => true
  | .cnPut _ _ _ => true
  | .cnTake d _ => runOf 3 d
  | .cnTtake d _ => runOf 3 d
  | .cnStat _ _ _ => true
  | .cnOpen _ _ => true
  | .cnClose _ => true
  | .barArrive _ b => decide (b.toNat ≤ 15)
  | .barWait _ b => decide (b.toNat ≤ 15)
  | .barTest _ _ b => decide (b.toNat ≤ 15)
  | .barCfg a b => decide (b.toNat ≤ 15) && decide (a.toNat ≤ 4)
  | .txEnter _ _ => true
  | .txResume _ => true
  | .txResumeSkip _ => true
  | .icGet d _ => runOf 2 d
  | .icSet _ b => runOf 2 b
  | .icClr _ => true
  | .holdAdd _ _ _ => true
  | .txRelq _ => true
  | .txRelqRel _ => true
  | .txRelqStat _ => true
  | .txRelqCfg _ => true
  | .txClsver _ _ => true
  | .tsupixMove _ _ => true
  | .tsupixLoadk _ _ => true
  | .tsupixLoadi _ _ => true
  | .tsupixDrop _ => true
  | .tsupixGetglobal _ _ _ _ => true
  | .tsupixSetglobal _ _ _ _ => true
  | .tsupixGetattr _ _ _ _ => true
  | .tsupixSetattr _ _ _ _ => true
  | .tsupixGetitem _ _ _ _ => true
  | .tsupixSetitem _ _ _ _ => true
  | .tsupixAdd _ _ _ => true
  | .tsupixSub _ _ _ => true
  | .tsupixMul _ _ _ => true
  | .tsupixTruediv _ _ _ => true
  | .tsupixFloordiv _ _ _ => true
  | .tsupixMod _ _ _ => true
  | .tsupixMatmul _ _ _ => true
  | .tsupixNeg _ _ => true
  | .tsupixLt _ _ _ => true
  | .tsupixLe _ _ _ => true
  | .tsupixEq _ _ _ => true
  | .tsupixNot _ _ => true
  | .tsupixJmp _ => true
  | .tsupixJmpif _ _ => true
  | .tsupixJmpifnot _ _ => true
  | .tsupixForiter _ _ => true
  | .tsupixCall _ _ _ _ => true
  | .tsupixTcall _ _ _ _ => true
  | .tsupixReturn _ => true
  | .tsupixNewtuple _ _ _ => true
  | .tsupixNewlist _ _ _ => true
  | .tsupixNewdict _ => true
  | .tsupixNewobj _ _ _ _ => true
  | .tsupixTsync _ => true
  | .tsupixRaise _ => true
  | .tsupixTry _ => true
  | .tsupixNative _ _ => true
  | .lateFault _ => true
  | .userInterruptDelivery _ => true
  | .parkWake _ => true
  | .busyEnd _ => true
  | .remoteValueReturn _ => true
  | .homeAccess _ _ => true
  | .heartbeatMiss _ _ => true
  | .hbmiss _ _ => true
  | .preemption _ => true
  | .matrixEntryStart _ => true
  | .barrierPhaseComplete _ _ => true
  | .copy _ _ => true
  | .gather _ _ => true
  | .scatter _ _ => true
  | .fill _ _ => true
  | .mcast _ _ => true
  | .qfence _ _ => true
  | .reduceAdd _ _ => true
  | .port _ _ _ => true
  | .tlbinv _ _ => true
  | .completion _ _ => true
  | .semaphoreV _ _ => true
  | .messageDelivery _ => true
  | .holdrel _ => true
  | .tresume _ => true
  | .translationWalk _ => true
  | .launchCheck _ _ => true
  | .gangBind _ _ _ _ _ => true
  | .gangEnd _ => true
  | .dispatchMessage _ => true
  | .quantumStart _ => true
  | .taskDecrement _ => true
  | .roundBoundary _ => true
  | .cairnSteal _ => true
  | .kernelCrash _ => true
  | .liveUpdate _ _ => true
  | .signetAlarm _ _ => true
  | .coldStart _ _ => true
  | .clockStep _ => true
  | .rtail _ => true
  | .rfix _ => true
  | .registerWrite _ _ => true
  | .bar2Access _ _ _ => true
  | .packetReceive _ _ => true
  | .lsGapTimeout _ _ => true
  | .linkFailure _ _ => true
  | .routingEntryWrite _ _ _ => true
  | .keyEntryWrite _ _ _ _ => true
  | .domainTableWrite _ _ => true
  | .codewin _ => true
  | .tsupixUnassignedOpcode op => decide (0x27 ≤ op.toNat)
  | .mboxinUnknownCommand cmd => !([1, 2, 3, 4, 5].contains cmd.toNat)
  | .crcBurst _ _ => true
  | .portRecovery _ => true
  | .runoff => true
  | .kret => true
  | .uiret => true
  | .halt => true
  | .wfi => true
  | .fwcallFirmwareLevel => true
  | .fwcallRegionTeardown => true
  | .fwcallFaultDomainTeardown => true
  | .fwcallPanic => true
  | .fwcallThaw => true
  | .fwcallRegisterNoticeContext => true
  | .fwcallSetReceiveWindow => true
  | .fwcallReadDomainEntry => true
  | .future => true
  | .beadEnd => true
  | .hbeat => true
  | .mmSwap => true
  | .mmWait => true
  | .mmSave => true
  | .mmRest => true
  | .mmSync => true
  | .mboxWait => true
  | .gangExit => true
  | .tsupixNop => true
  | .tsupixPoptry => true
  | .freeze => true
  | .thaw => true
  | .faultRecordReoffer => true
  | .takeover => true
  | .levels => true
  | .status => true
  | .alarmlog => true
  | .crash => true
  | .dibread => true
  | .mboxoutRead => true
  | .kernelCrashNotice => true
  | .signetAlarmNotice => true
  | .mapfail => true
  | .bringUpComplete => true
  | .frozenNotice => true
  | .ringHostToDevice => true
  | .ringDeviceToHost => true
  | .ringMessage => true
  | .illegal  => false
  | .warmReboot => true

/-- An instruction is well formed when its operand limits hold. -/
abbrev WellFormed (i : Instr) : Prop := i.wf = true

end Sys2Proof
end

