-- ==== Sys2Proof/Machine/Scalar.lean ====
section
/-! DEFINITION. The integer instructions, branches and jumps of majors 0x01 to 0x0F and the hint region (R90, R100 to
R110). -/

namespace Sys2Proof.Machine

/-- What a meaning answers. -/
abbrev Out := Host.Outcome State Fault Refusal

/-! ### Major 0x01: register operations (R102) -/

/-- The shift amount Bits(X[b], 5, 0) (R102). -/
def shamt (b : Word) : Nat := b.toNat % 64

/-- Rotate left by n. -/
def rotl (a : Word) (n : Nat) : Word := (a <<< n) ||| (a >>> (64 - n))

/-- Byte k moved to byte 7 - k. -/
def bswapWord (a : Word) : Word := toWord (fromBytes (toBytes 8 a.toNat).reverse)

/-- add: X[a] + X[b] modulo 2^64. -/
def execAdd (d a b : BitVec 5) (s : State) : Out := .next (rr (fun x y => x + y) d a b s)
/-- sub. -/
def execSub (d a b : BitVec 5) (s : State) : Out := .next (rr (fun x y => x - y) d a b s)
/-- and. -/
def execAnd (d a b : BitVec 5) (s : State) : Out := .next (rr (fun x y => x &&& y) d a b s)
/-- or. -/
def execOr (d a b : BitVec 5) (s : State) : Out := .next (rr (fun x y => x ||| y) d a b s)
/-- xor. -/
def execXor (d a b : BitVec 5) (s : State) : Out := .next (rr (fun x y => x ^^^ y) d a b s)
/-- andn: X[a] AND NOT X[b]. -/
def execAndn (d a b : BitVec 5) (s : State) : Out := .next (rr (fun x y => x &&& ~~~y) d a b s)
/-- orn: X[a] OR NOT X[b]. -/
def execOrn (d a b : BitVec 5) (s : State) : Out := .next (rr (fun x y => x ||| ~~~y) d a b s)
/-- sll. -/
def execSll (d a b : BitVec 5) (s : State) : Out := .next (rr (fun x y => x <<< shamt y) d a b s)
/-- srl. -/
def execSrl (d a b : BitVec 5) (s : State) : Out := .next (rr (fun x y => x >>> shamt y) d a b s)
/-- sra. -/
def execSra (d a b : BitVec 5) (s : State) : Out := .next (rr (fun x y => x.sshiftRight (shamt y)) d a b s)
/-- rol. -/
def execRol (d a b : BitVec 5) (s : State) : Out := .next (rr (fun x y => rotl x (shamt y)) d a b s)
/-- slt: 1 if less as signed. -/
def execSlt (d a b : BitVec 5) (s : State) : Out := .next (rr (fun x y => boolWord (x.slt y)) d a b s)
/-- sltu. -/
def execSltu (d a b : BitVec 5) (s : State) : Out := .next (rr (fun x y => boolWord (x.ult y)) d a b s)
/-- min, signed. -/
def execMin (d a b : BitVec 5) (s : State) : Out := .next (rr (fun x y => if y.slt x then y else x) d a b s)
/-- max, signed. -/
def execMax (d a b : BitVec 5) (s : State) : Out := .next (rr (fun x y => if x.slt y then y else x) d a b s)
/-- minu. -/
def execMinu (d a b : BitVec 5) (s : State) : Out := .next (rr (fun x y => if y.ult x then y else x) d a b s)
/-- maxu. -/
def execMaxu (d a b : BitVec 5) (s : State) : Out := .next (rr (fun x y => if x.ult y then y else x) d a b s)
/-- lea: X[a] + (X[b] << s). -/
def execLea (d a b : BitVec 5) (sh : BitVec 2) (s : State) : Out :=
  .next (rr (fun x y => x + (y <<< sh.toNat)) d a b s)
/-- clz: leading zero bits, 64 if 0. -/
def execClz (d a : BitVec 5) (s : State) : Out := .next (r1 (fun x => toWord (clzN 64 x.toNat)) d a s)
/-- ctz: trailing zero bits, 64 if 0. -/
def execCtz (d a : BitVec 5) (s : State) : Out := .next (r1 (fun x => toWord (ctzN 64 x.toNat)) d a s)
/-- popc: one bits. -/
def execPopc (d a : BitVec 5) (s : State) : Out := .next (r1 (fun x => toWord (popCountN 64 x.toNat)) d a s)
/-- bswap. -/
def execBswap (d a : BitVec 5) (s : State) : Out := .next (r1 bswapWord d a s)
/-- sext.b. -/
def execSextB (d a : BitVec 5) (s : State) : Out := .next (r1 (fun x => (x.setWidth 8).signExtend 64) d a s)
/-- sext.h. -/
def execSextH (d a : BitVec 5) (s : State) : Out := .next (r1 (fun x => (x.setWidth 16).signExtend 64) d a s)
/-- sext.w. -/
def execSextW (d a : BitVec 5) (s : State) : Out := .next (r1 (fun x => (x.setWidth 32).signExtend 64) d a s)
/-- zext.w. -/
def execZextW (d a : BitVec 5) (s : State) : Out := .next (r1 (fun x => (x.setWidth 32).setWidth 64) d a s)

/-! ### Majors 0x02 to 0x08: immediates (R103). The meanings with a LONG prefix use the same functions (Prefix). -/

/-- addi's function. -/
def addiFn (x imm : Word) : Word := x + imm
/-- andi's function. -/
def andiFn (x imm : Word) : Word := x &&& imm
/-- ori's function. -/
def oriFn (x imm : Word) : Word := x ||| imm
/-- xori's function. -/
def xoriFn (x imm : Word) : Word := x ^^^ imm
/-- slti's function. -/
def sltiFn (x imm : Word) : Word := boolWord (x.slt imm)
/-- sltiu's function. -/
def sltiuFn (x imm : Word) : Word := boolWord (x.ult imm)

/-- addi: the immediate sign-extended. -/
def execAddi (d a : BitVec 5) (i : BitVec 16) (s : State) : Out := .next (ri addiFn d a (immS i) s)
/-- andi: the immediate zero-extended. -/
def execAndi (d a : BitVec 5) (i : BitVec 16) (s : State) : Out := .next (ri andiFn d a (immZ i) s)
/-- ori. -/
def execOri (d a : BitVec 5) (i : BitVec 16) (s : State) : Out := .next (ri oriFn d a (immZ i) s)
/-- xori. -/
def execXori (d a : BitVec 5) (i : BitVec 16) (s : State) : Out := .next (ri xoriFn d a (immZ i) s)
/-- slti. -/
def execSlti (d a : BitVec 5) (i : BitVec 16) (s : State) : Out := .next (ri sltiFn d a (immS i) s)
/-- sltiu: the sign-extended immediate compared as unsigned. -/
def execSltiu (d a : BitVec 5) (i : BitVec 16) (s : State) : Out := .next (ri sltiuFn d a (immS i) s)
/-- lih: (X[a] << 16) OR imm. -/
def execLih (d a : BitVec 5) (i : BitVec 16) (s : State) : Out :=
  .next (ri (fun x imm => (x <<< 16) ||| imm) d a (immZ i) s)

/-! ### Major 0x09: shifts by an immediate (R105) -/

/-- slli. -/
def execSlli (d a : BitVec 5) (h : BitVec 6) (s : State) : Out := .next (r1 (fun x => x <<< h.toNat) d a s)
/-- srli. -/
def execSrli (d a : BitVec 5) (h : BitVec 6) (s : State) : Out := .next (r1 (fun x => x >>> h.toNat) d a s)
/-- srai. -/
def execSrai (d a : BitVec 5) (h : BitVec 6) (s : State) : Out := .next (r1 (fun x => x.sshiftRight h.toNat) d a s)
/-- roli. -/
def execRoli (d a : BitVec 5) (h : BitVec 6) (s : State) : Out := .next (r1 (fun x => rotl x h.toNat) d a s)

/-! ### Major 0x0A: multiply and divide (R106) -/

/-- Bits 127:64 of a product of integers. -/
def highHalf (p : Int) : Word := BitVec.ofInt 64 (p / 2 ^ 64)

/-- The signed quotient, truncated toward zero, with R106's edge results. -/
def divS (x y : Word) : Word := if y = 0 then allOnes else BitVec.ofInt 64 (Int.tdiv x.toInt y.toInt)

/-- The unsigned quotient. -/
def divU (x y : Word) : Word := if y = 0 then allOnes else toWord (x.toNat / y.toNat)

/-- The signed remainder, taking the sign of X[a]. -/
def remS (x y : Word) : Word := if y = 0 then x else BitVec.ofInt 64 (Int.tmod x.toInt y.toInt)

/-- The unsigned remainder. -/
def remU (x y : Word) : Word := if y = 0 then x else toWord (x.toNat % y.toNat)

/-- X[d] from X[a] and X[b], busy for 24 tile cycles on a facet (R101). -/
def rrBusy (f : Word → Word → Word) (d a b : BitVec 5) (s : State) : State :=
  s.busyFor 24 (some d) none fun c => (c.setX d (f (c.getX a) (c.getX b))).retire s.latch

/-- mul: the low half of the product. -/
def execMul (d a b : BitVec 5) (s : State) : Out := .next (rr (fun x y => x * y) d a b s)
/-- mulh: the high half, both signed. -/
def execMulh (d a b : BitVec 5) (s : State) : Out := .next (rr (fun x y => highHalf (x.toInt * y.toInt)) d a b s)
/-- mulhu: the high half, both unsigned. -/
def execMulhu (d a b : BitVec 5) (s : State) : Out :=
  .next (rr (fun x y => highHalf ((x.toNat : Int) * (y.toNat : Int))) d a b s)
/-- mulhsu: the high half, X[a] signed and X[b] unsigned. -/
def execMulhsu (d a b : BitVec 5) (s : State) : Out :=
  .next (rr (fun x y => highHalf (x.toInt * (y.toNat : Int))) d a b s)
/-- div. -/
def execDiv (d a b : BitVec 5) (s : State) : Out := .next (rrBusy divS d a b s)
/-- divu. -/
def execDivu (d a b : BitVec 5) (s : State) : Out := .next (rrBusy divU d a b s)
/-- rem. -/
def execRem (d a b : BitVec 5) (s : State) : Out := .next (rrBusy remS d a b s)
/-- remu. -/
def execRemu (d a b : BitVec 5) (s : State) : Out := .next (rrBusy remU d a b s)

/-! ### Major 0x0B: conditional branches (R107, R108) -/

/-- A branch on two scalar registers. -/
def branchX (f : Word → Word → Bool) (a b : BitVec 5) (i : BitVec 12) (s : State) : State :=
  branchIf (f (s.c.getX a) (s.c.getX b)) i s

/-- A branch on two mask registers; a field above 7 traps ILLEGAL (R86, R108). -/
def branchK (f : Word → Word → Bool) (a b : BitVec 5) (i : BitVec 12) (s : State) : State :=
  s.needLimits (maskField a && maskField b) fun s =>
    branchIf (f (s.c.getK (maskReg a)) (s.c.getK (maskReg b))) i s

/-- b.eq. -/
def execBEq (a b : BitVec 5) (i : BitVec 12) (s : State) : Out := .next (branchX (fun x y => x = y) a b i s)
/-- b.ne. -/
def execBNe (a b : BitVec 5) (i : BitVec 12) (s : State) : Out := .next (branchX (fun x y => x ≠ y) a b i s)
/-- b.lt, signed. -/
def execBLt (a b : BitVec 5) (i : BitVec 12) (s : State) : Out := .next (branchX (fun x y => x.slt y) a b i s)
/-- b.ge, signed. -/
def execBGe (a b : BitVec 5) (i : BitVec 12) (s : State) : Out := .next (branchX (fun x y => !x.slt y) a b i s)
/-- b.ltu. -/
def execBLtu (a b : BitVec 5) (i : BitVec 12) (s : State) : Out := .next (branchX (fun x y => x.ult y) a b i s)
/-- b.geu. -/
def execBGeu (a b : BitVec 5) (i : BitVec 12) (s : State) : Out := .next (branchX (fun x y => !x.ult y) a b i s)
/-- b.kany: a lane in scope is set. -/
def execBKany (a b : BitVec 5) (i : BitVec 12) (s : State) : Out := .next (branchK (fun x y => x &&& y ≠ 0) a b i s)
/-- b.kall: every lane in scope is set. -/
def execBKall (a b : BitVec 5) (i : BitVec 12) (s : State) : Out := .next (branchK (fun x y => x &&& y = y) a b i s)
/-- b.knone: no lane in scope is set. -/
def execBKnone (a b : BitVec 5) (i : BitVec 12) (s : State) : Out := .next (branchK (fun x y => x &&& y = 0) a b i s)

/-! ### Majors 0x0D to 0x0F: jumps (R109, R110) -/

/-- The target of a J-format jump (R85). -/
def jumpTarget (pc : Word) (i : BitVec 26) : Word := pc + 4 * i.signExtend 64

/-- j. -/
def execJ (i : BitVec 26) (s : State) : Out := .next (s.mod fun c => { c with pc := jumpTarget c.pc i })
/-- jl: the address after it goes to x31 first. -/
def execJl (i : BitVec 26) (s : State) : Out :=
  .next (s.mod fun c => { c.setX 31 (c.pc + 4) with pc := jumpTarget c.pc i })
/-- jr: a misaligned target traps ALIGN and leaves the pc (R83, R110). -/
def execJr (a : BitVec 5) (s : State) : Out :=
  let t := s.c.getX a
  .next (if t.toNat % 4 ≠ 0 then s.trap Code.align t else s.mod fun c => { c with pc := t })
/-- jlr: as jr, with the address after it in X[d], written after X[a] is read. -/
def execJlr (d a : BitVec 5) (s : State) : Out :=
  let t := s.c.getX a
  .next (if t.toNat % 4 ≠ 0 then s.trap Code.align t
    else s.mod fun c => { c.setX d (c.pc + 4) with pc := t })

/-! ### Words that are no instruction (R90) -/

/-- A word of the hint region: nothing but the pc changes. -/
def execNop (_ : BitVec 28) (s : State) : Out := .next s.retire
/-- The all-zero word traps RUNOFF with einfo 0. -/
def execRunoff (s : State) : Out := .next (s.trap Code.runoff 0)
/-- An unassigned word traps ILLEGAL with the word in einfo. -/
def execIllegal (s : State) : Out := .next (s.trapWord Code.illegal)
/-- A word of the reserved major space traps FUTURE to the emulation vector. -/
def execFuture (s : State) : Out := .next (s.trapWord Code.future)
/-- A fetch outside the code window traps CODEWIN with the address whose fetch failed (R83, R91). -/
def execCodewin (addr : Word) (s : State) : Out := .next (s.trap Code.codewin addr)

end Sys2Proof.Machine
end

