-- ==== Sys2Proof/Machine/Net.lean ====
section
/-! DEFINITION. Issuing an access, its arrival at its home, its value's return, late faults, parking on translation and
on a release (R43 to R53, R121, R122, R143 to R145, R174). -/

namespace Sys2Proof.Machine

/-! ### Homes and injecting agents (R10, R12, R42, R233) -/

/-- The home of a location: a tile, or a memory home by physical address bits 17:12 (R12, R42). -/
def homeOf (l : Nat) : Nat := if 2 ^ 40 ≤ l then 64 + (l - 2 ^ 40) / 2 ^ 22 else l / 2 ^ 12 % 64

/-- The home of an access's target; another device stands for itself. -/
def Target.home : Target → Nat
  | .loc l => homeOf l
  | .device sp _ => 2000 + sp.toNat

/-- The home that an element is bound for. -/
def Elem.home (e : Elem) : Nat := e.target.home

/-- The home of a message: its destination's network interface (R254). -/
def Message.home (m : Message) : Nat :=
  match m.dest with
  | .facet t _ => 64 + t.val
  | .crest k => 3000 + k.val

/-- The agent that injects a context's traffic: its tile's network interface, or its crest core (R10, R233). -/
def injector : Agent → Nat
  | .facet t _ _ => t.val
  | .crest k _ => 1000 + k.val

/-- Was a message sent by the agent that injects a context's traffic (R10)? -/
def Message.injectedBy (m : Message) (a : Agent) : Bool := m.sender.map injector = some (injector a)

/-- Is traffic of a context's injecting agent for a home still under way (R10, R48)? -/
def State.homeBusy (s : State) (a : Agent) (home : Nat) : Bool :=
  (s.net.any fun y => injector y.agent = injector a && y.todo.any fun e => e.home = home) ||
    s.msgs.any fun m => m.injectedBy a && m.home = home

/-! ### Late faults and ring entries -/

/-- A late fault becomes pending to a context (R122, R174). -/
def State.addLate (s : State) (a : Agent) (l : LateFault) : State := s.modCtx a fun c => { c with late := c.late ++ [l] }

/-- The oldest late fault of a context, which its next boundary takes; in a kernel handler too, whatever raised it (R122, R174;
DEDUCED, log entry 59). -/
def State.dueLate (s : State) (a : Agent) : Option LateFault := (s.ctx a).late.head?

/-- Has a context a late fault that its boundary takes? -/
def State.lateDue (s : State) (a : Agent) : Bool := (s.dueLate a).isSome

/-- A context takes one of its pending late faults at its boundary: class 0, late, with the ring sequence number of a ring
instruction (R122, R167, R174). Unless the group at the boundary is a REP group, repidx is then 0 (R93). In a facet's kernel
handler it is a DOUBLE (R178). -/
def State.takeFault (s : State) (a : Agent) (l : LateFault) : State :=
  let c := s.ctx a
  let rep := s.repAt a
  let s := s.setCtx a { c with late := c.late.erase l, run := .ready }
  let s' := s.enterKernel a (vectorOf l.code.toNat) (ecauseOf 0 l.code.toNat true l.ring) l.info (s.ctx a).resume
  if rep || (c.kt && !isCrest a) then s' else s'.modCtx a fun c => { c with repidx := 0 }

/-- The late fault that is due is taken. -/
def State.takeLate (s : State) (a : Agent) : State :=
  match s.dueLate a with
  | none => s
  | some l => s.takeFault a l

/-- Close a coprocessor-ring entry: every access of its instruction has been performed or has failed (R175). -/
def State.closeRing (s : State) (o : Owner) (seq : Option (BitVec 16)) : State :=
  match seq with
  | none => s
  | some q => s.modNi o fun n =>
    { n with ring := Vector.ofFn fun i =>
        let e := n.ring[i.val]'i.isLt
        if i.val = q.toNat % 16 && e.seq = q then { e with open_ := false } else e }

/-- Is the next ring entry still open (R175)? -/
def State.ringBlocked (s : State) (o : Owner) : Bool :=
  let n := s.ni o
  (n.ring[n.seq.toNat % 16]'(Nat.mod_lt _ (by omega))).open_

/-- Take the next ring entry for the instruction in issue, with the scalar operand values it read (R175). -/
def State.takeRing (s : State) (ops : List Word) : State × BitVec 16 :=
  let o := ownerOf s.cur
  let n := s.ni o
  let e : RingEntry := { pc := s.c.pc, word := s.latch.word, ops := ops, seq := n.seq, open_ := true }
  (s.modNi o fun n => { n with
      ring := n.ring.set (n.seq.toNat % 16) e (Nat.mod_lt _ (by omega))
      seq := n.seq + 1 }, n.seq)

/-- Run a ring instruction once the entry it would take is closed; until then its context is busy (R175). -/
def State.needRing (s : State) (k : State → State) : State :=
  if s.ringBlocked (ownerOf s.cur) then s.mod fun c => { c with run := .ringBusy } else k s

/-! ### Releases (R51) -/

/-- Every earlier load, store, atomic, message and task decrement of a context has been performed (R51, R254, R290). -/
def State.allPerformed (s : State) (a : Agent) : Bool :=
  !(s.net.any fun x => x.agent = a) && !(s.msgs.any fun m => m.sender = some a) &&
    !(s.taskUnits.toList.flatten.any fun x => x.agent = a)

/-- Run a release once every earlier access of the context is performed; until then it parks before issue (R51, R123). A late
fault that is pending then is taken before the release issues (R122, R136). -/
def State.afterRelease (s : State) (k : State → State) : State :=
  if s.allPerformed s.cur then
    match s.dueLate s.cur with
    | none => k s
    | some l => s.takeFault s.cur l
  else s.park .order

/-! ### Writing a value back -/

/-- A loaded value as a register holds it (R119, R126). -/
def loadValue (bytes : Nat) (signed : Bool) (v : Nat) : Word := if signed then signExt v (8 * bytes) else toWord v

/-- Write a returned value or lanes to their destination (R119, R138, R142, R144). -/
def Ctx.writeBack (c : Ctx) (back : Writeback) (got : List (Nat × Nat)) : Ctx :=
  match back with
  | .none => c
  | .scalar d n signed => c.setX d (loadValue n signed ((lookup 0 got).getD 0))
  | .lanes d n act zero bcast =>
    let old := lanesOf (c.getV d) (8 * n)
    let new := (List.range (64 / n)).map fun i => (lookup (if bcast then 0 else i) got).getD 0
    c.setV d (packVec (8 * n) (mergeLanes act zero old new))
  | .whole d => c.setV d (BitVec.ofNat 512 ((lookup 0 got).getD 0))

/-! ### Issue -/

/-- The agent number that an alarm reports: 0x8000 + tile id for a tile, the ctxid of a crest context (R374). -/
def alarmAgent (a : Agent) : Nat :=
  match a with
  | .facet t _ _ => 0x8000 + t.val
  | .crest _ _ => ctxid a

/-- Is an address performed at issue: a local alias of a facet, or any address of this device from a crest core, whose
accesses the model performs in order (R46, R47; log entries 9 and 11) where none of its core's earlier traffic is under way to
that home (R10, R48)? -/
def State.performedNow (s : State) (a : Agent) (e : Elem) : Bool :=
  match e.target with
  | .device _ _ => false
  | .loc _ => if isCrest a then !s.homeBusy a e.home else bits e.va 63 60 = 0

/-- Park the context on a translation miss (R121, R171). -/
def State.parkMiss (s : State) (va : Word) (space : Byte) (kind : Nat) : State :=
  s.park (.translation va space kind none)

/-- The source tile of an access, for the window check (R257). -/
def srcTile (a : Agent) : Option Nat := tileNo a

/-- A crest core remembers the translation of a data access (R260, R261; log entry 13). -/
def State.noteTranslation (s : State) (a : Agent) (space : Byte) (va : Word) : State :=
  if isCrest a && bits va 63 60 ≠ 0 && bits va 63 60 ≠ 15 then
    match s.translate (tlbTile a) space va true with
    | some l => s.remember (tlbTile a) space va l
    | none => s
  else s

/-- What the checks of all elements of an access come to: every place found, or the first fault, miss or alarm. -/
inductive Placed where
  | ok (elems : List Elem)
  | fault (code : Nat) (late : Bool) (va : Word)
  | miss (va : Word)
  | signet (va : Word)
deriving DecidableEq, Repr

/-- Check every element in order, alignment before the other checks (R119, R121, R143); `localOnly` is the rule of vldx and
vstx that only the local alias is reached (R146). A late fault of a store's element does not stop the others: the element
is dropped and reported by `lateOf`; one of a load's or an atomic's element stands back behind what the issuer's checks find for the
elements behind it, which are made for every lane first (R121, R143, R145). -/
def State.placeAll (s : State) (localOnly : Bool) (space : Byte) (kind : Nat) (kernel : Bool) :
    List (Nat × Word × Nat × Nat) → List Elem → Placed
  | [], acc => .ok acc.reverse
  | (lane, va, n, data) :: rest, acc =>
    if va.toNat % n ≠ 0 then .fault Code.align false va
    else if localOnly && 0x40_0000 ≤ va.toNat then .fault Code.lmrange false va
    else match s.check s.cur space va n kind kernel with
      | .ok t => s.placeAll localOnly space kind kernel rest (⟨lane, va, t, n, data⟩ :: acc)
      | .fault code late =>
        if !late then .fault code late va
        else match s.placeAll localOnly space kind kernel rest acc with
          | .ok es => if kind = 1 then .ok es else .fault code late va
          | .fault code' late' va' => if late' then .fault code late va else .fault code' late' va'
          | p => p
      | .miss => .miss va
      | .signet => .signet va

/-- A refusal of an element: its code, its lane and its address. -/
abbrev Refused := Option (Byte × Nat × Word)

/-- Of two refusals the one of the lowest lane (R145, R154). -/
def lowerRefused (x y : Refused) : Refused :=
  match x, y with
  | some p, some q => some (if q.2.1 < p.2.1 then q else p)
  | some p, none => some p
  | none, y => y

/-- The first element of a store that an issuer check refuses late (R37, R121, R163), with its code. -/
def State.lateOf (s : State) (space : Byte) (kind : Nat) (kernel : Bool) : List (Nat × Word × Nat × Nat) → Refused
  | [] => none
  | (lane, va, n, _) :: rest =>
    match s.check s.cur space va n kind kernel with
    | .fault code true => some (BitVec.ofNat 8 code, lane, va)
    | _ => s.lateOf space kind kernel rest

/-- Perform in lane order the elements that are performed at issue: the values read so far and the first refusal. -/
def State.performNow (s : State) (a : Agent) (kind : AccKind) :
    List Elem → List (Nat × Nat) → Refused → State × List (Nat × Nat) × Refused
  | [], got, bad => (s, got, bad)
  | e :: rest, got, bad =>
    match e.target with
    | .device _ _ => s.performNow a kind rest got bad
    | .loc l =>
      let r := s.performBy a (bits e.va 63 60 = 0) kind l e.bytes e.data
      match r.2 with
      | .ok v => r.1.performNow a kind rest (got ++ [(e.lane, v)]) bad
      | .error code => r.1.performNow a kind rest got (bad.orElse fun _ => some (BitVec.ofNat 8 code, e.lane, e.va))

/-- The elements of a load or atomic that are still to be performed after a refusal at issue: those of lower lanes, of which one
may be refused too (R145). -/
def belowRefused (bad : Refused) (far : List Elem) : List Elem :=
  match bad with
  | some (_, lane, _) => far.filter fun e => e.lane < lane
  | none => far

/-- Issue an access of the instruction in issue whose elements have been placed: those performed at issue are performed,
the others go to the network; of a load or atomic those behind one that goes there go with it, so that they are performed in lane
order (R49, R143, R144). A load or atomic blocks the context until its values return; a store does not (R46, R144). What is
refused is one fault of the access, of its lowest refused lane (R145, R154). -/
def State.issueAccess (s : State) (kind : AccKind) (back : Writeback) (elems : List Elem) (late : Refused)
    (ring : Option (BitVec 16)) : State :=
  let a := s.cur
  let stores : Bool := decide (kind = .store)
  let now := if stores then elems.filter (s.performedNow a) else elems.takeWhile (s.performedNow a)
  let far := if stores then elems.filter fun e => !s.performedNow a e else elems.dropWhile (s.performedNow a)
  match s.performNow a kind now [] none with
  | (s, got, bad) =>
    let bad := lowerRefused late bad
    let far := if stores then far else belowRefused bad far
    match bad, far with
    | some (code, _, va), [] =>
      if stores then
        ((s.addLate a ⟨code, va, ring, none, false⟩).closeRing (ownerOf a) ring).mod fun c =>
          (c.writeBack back got).retire s.latch
      else s.trap code.toNat va
    | none, [] => (s.closeRing (ownerOf a) ring).mod fun c => (c.writeBack back got).retire s.latch
    | _, _ =>
      let s : State := { s with
        net := s.net ++ [{ id := s.nextId, agent := a, kind := kind, todo := far, done := got,
                           refused := bad, back := back, latch := s.latch, ring := ring }]
        nextId := s.nextId + 1 }
      if stores then s.mod fun c => (c.writeBack back got).retire s.latch
      else s.mod fun c => { c with run := .blocked }

/-- An access of the instruction in issue: check every element, then perform or send (R119, R126, R143). `ops` is given by
an instruction that takes a ring entry as it is dispatched (R175). -/
def State.accessWith (s : State) (localOnly : Bool) (space : Byte) (kind : AccKind) (back : Writeback)
    (elems : List (Nat × Word × Nat × Nat)) (ops : Option (List Word)) : State :=
  match s.placeAll localOnly space kind.number s.c.kernel elems [] with
  | .fault code _ va => s.trap code va
  | .miss va => s.parkMiss va space kind.number
  | .signet va => (s.raiseAlarm .window (alarmAgent s.cur)).trap Code.prot va
  | .ok es =>
    let late := if kind = .store then s.lateOf space kind.number s.c.kernel elems else none
    let s := elems.foldl (fun s e => s.noteTranslation s.cur space e.2.1) s
    match ops with
    | none => s.issueAccess kind back es late none
    | some ops =>
      let r := s.takeRing ops
      r.1.issueAccess kind back es late (some r.2)

/-- An access of a scalar instruction: no ring entry. -/
def State.access (s : State) (space : Byte) (kind : AccKind) (back : Writeback)
    (elems : List (Nat × Word × Nat × Nat)) : State := s.accessWith false space kind back elems none

/-! ### HOME_ACCESS (R43) -/

/-- Pair order (R10, R48, R233): the oldest element of access `id` may be performed when no earlier access of the same injecting
agent still has an element for the same home. -/
def homeEnabled (net : List Access) (id : Nat) : Bool :=
  match net.find? fun x => x.id = id with
  | none => false
  | some x =>
    match x.todo with
    | [] => false
    | e :: _ =>
      (net.takeWhile fun y => y.id ≠ id).all fun y =>
        injector y.agent ≠ injector x.agent || y.todo.all fun e' => e'.home ≠ e.home

/-- Has the injecting agent an earlier message for the same home still under way (R48, R254)? -/
def State.messageAhead (s : State) (x : Access) : Bool :=
  match x.todo with
  | e :: _ => s.msgs.any fun m => m.injectedBy x.agent && m.id < x.id && m.home = e.home
  | [] => false

/-- Replace an access in the network. -/
def replaceAccess (net : List Access) (x : Access) : List Access := net.map fun y => if y.id = x.id then x else y

/-- Drop an access from the network. -/
def dropAccess (net : List Access) (id : Nat) : List Access := net.filter fun y => y.id ≠ id

/-- What the packet of an element asks of another device; a store of 16 bytes is a message (R254). -/
def AccKind.ls (k : AccKind) (n : Nat) : LsOp :=
  match k with
  | .load => .read
  | .store => if n = 16 then .message else .write
  | .amo op _ => .amo op

/-- The bytes that a packet carries: the data, then an atomic's comparand. -/
def AccKind.payload (k : AccKind) (n data : Nat) : List Byte :=
  match k with
  | .load => []
  | .store => toBytes n data
  | .amo _ cmp => toBytes n data ++ toBytes n cmp

/-- What a home or another device answers for one element. -/
def State.homeAnswer (s : State) (x : Access) (e : Elem) (reply : Reply) : State × Except Nat Nat :=
  match e.target with
  | .loc l => s.performBy x.agent (bits e.va 63 60 = 0) x.kind l e.bytes e.data
  | .device sp va => s.toDevice sp va (x.kind.ls e.bytes) e.bytes (x.kind.payload e.bytes e.data) reply

/-- Does an element wait for another device's reply: it has been sent, and none has come? -/
def State.unanswered (s : State) (e : Elem) (reply : Reply) : Bool :=
  match e.target, reply with
  | .device sp _, .own => match s.lsWay sp with
    | .ok _ => true
    | .error _ => false
  | _, _ => false

/-- A store's access is over: it leaves the network, its ring entry closes and a refusal becomes a late fault (R122,
R145). -/
def State.finishStore (s : State) (x : Access) : State :=
  let s := { s with net := dropAccess s.net x.id }
  let s := s.closeRing (ownerOf x.agent) x.ring
  match x.refused with
  | some (code, _, va) => s.addLate x.agent ⟨code, va, x.ring, some x.id, false⟩
  | none => s

/-- Is the next element of an access bound for another device? -/
def Access.foreign (x : Access) : Option Nat :=
  match x.todo with
  | e :: _ => match e.target with
    | .device _ _ => some e.home
    | .loc _ => none
  | [] => none

/-- A lost access completes with LINKLOST, if no element of a lower lane is refused: precisely for a load or atomic, late for a
store (R64, R145, R154). -/
def State.loseAccess (s : State) (x : Access) : State :=
  match x.todo with
  | [] => s
  | e :: _ =>
    let x := { x with todo := [], refused := lowerRefused x.refused (some (BitVec.ofNat 8 Code.linklost, e.lane, e.va)) }
    if x.kind = .store then s.finishStore x else { s with net := replaceAccess s.net x }

/-- The accesses lost with those of the given numbers: later ones of the same injecting agent for the same device go with them
(R10, R64). -/
def State.lostWith (s : State) (ids : List Nat) : List Access :=
  let first := s.net.filter fun x => ids.contains x.id && x.foreign.isSome
  s.net.filter fun x => x.foreign.isSome &&
    first.any fun y => injector y.agent = injector x.agent && y.foreign = x.foreign && decide (y.id ≤ x.id)

/-- An access after its element e has been performed or refused: a refused element of a load or atomic ends it; of a store it is
noted, the lowest lane first, and the other elements are still to be performed (R145). -/
def Access.after (x : Access) (e : Elem) (rest : List Elem) : Except Nat Nat → Access
  | .ok v => { x with todo := rest, done := x.done ++ [(e.lane, v)] }
  | .error code =>
    { x with todo := if x.kind = .store then rest else []
             refused := lowerRefused x.refused (some (BitVec.ofNat 8 code, e.lane, e.va)) }

/-- Does an answer say that the packet of the next element was lost on its way to another device (R64)? -/
def Access.wasLost (x : Access) : Except Nat Nat → Bool
  | .ok _ => false
  | .error code => code = Code.linklost && x.foreign.isSome

/-- HOME_ACCESS: the oldest element of an access is performed at its home (R43). An access to another device, if a packet for it can
leave, waits for that device's reply; with one that is lost go the rest of its access and the later ones (R64). -/
def State.homeAccess (s : State) (id : Nat) (reply : Reply) : State :=
  if !homeEnabled s.net id then s
  else match s.net.find? fun x => x.id = id with
    | none => s
    | some x =>
      match x.todo with
      | [] => s
      | e :: rest =>
        if s.unanswered e reply || s.messageAhead x then s
        else
          match s.homeAnswer x e reply with
          | (s, r) =>
            if x.wasLost r then (s.lostWith [id]).foldl State.loseAccess s
            else
              let x := x.after e rest r
              if x.todo.isEmpty && x.kind = .store then s.finishStore x else { s with net := replaceAccess s.net x }

/-- HOME_ACCESS. -/
def execHomeAccess (id : Nat) (reply : Reply) (s : State) : Out := .next (s.homeAccess id reply)

/-! ### REMOTE_VALUE_RETURN (R46) -/

/-- Has the blocking access of a context been answered? -/
def State.answered (s : State) (a : Agent) : Option Access :=
  s.net.find? fun x => x.agent = a && x.kind ≠ .store && x.todo.isEmpty

/-- The value of a remote load or atomic returns: it is written and the instruction retires, or its precise fault is
taken with epc at the instruction (R46, R121, R145). -/
def State.valueReturn (s : State) (a : Agent) : State :=
  match s.answered a with
  | none => s
  | some x =>
    let s := { s with net := dropAccess s.net x.id }
    let s := s.modCtx a fun c => { c with run := .ready }
    match x.refused with
    | some (code, _, va) => s.trapAt a code.toNat va x.latch.rep.isSome
    | none => s.modCtx a fun c => (c.writeBack x.back x.done).retire x.latch

/-- REMOTE_VALUE_RETURN. -/
def execRemoteValueReturn (a : Agent) (s : State) : Out := .next (s.valueReturn a)

end Sys2Proof.Machine
end

