-- ==== Sys2Proof/Machine/Mem.lean ====
section
/-! DEFINITION. Loads, stores, atomics, raddr and fences: majors 0x10 to 0x14 (R119 to R127, R50 to R53). -/

namespace Sys2Proof.Machine

/-- Bytes of a size code 0 to 6 (R85, R119). -/
def sizeBytes (sz : BitVec 3) : Nat :=
  match sz.toNat with
  | 0 | 1 => 1
  | 2 | 3 => 2
  | 4 | 5 => 4
  | _ => 8

/-- Does a load of this size code sign-extend (R119)? -/
def sizeSigned (sz : BitVec 3) : Bool := sz = 0 || sz = 2 || sz = 4

/-- A scalar load (R119). -/
def State.load (s : State) (d : BitVec 5) (space : Byte) (va : Word) (sz : BitVec 3) : State :=
  s.needLimits (loadSize sz) fun s =>
    s.access space .load (.scalar d (sizeBytes sz) (sizeSigned sz)) [(0, va, sizeBytes sz, 0)]

/-- The data of a scalar store: the low n bytes of X[d] (R119). -/
def storeData (v : Word) (sz : BitVec 3) : Nat := v.toNat % 2 ^ (8 * sizeBytes sz)

/-- A scalar store; a late refusal of it takes no ring entry (R119, R175). -/
def State.store (s : State) (d : BitVec 5) (space : Byte) (va : Word) (sz : BitVec 3) : State :=
  s.access space .store .none [(0, va, sizeBytes sz, storeData (s.c.getX d) sz)]

/-- X[a] + SignExt(imm13, 13) (R119). -/
def loadAddr (c : Ctx) (a : BitVec 5) (i : BitVec 13) : Word := c.getX a + i.signExtend 64

/-- ld. -/
def execLd (d a : BitVec 5) (sz : BitVec 3) (i : BitVec 13) (s : State) : Out :=
  .next (s.load d s.c.spc (loadAddr s.c a i) sz)

/-- st. -/
def execSt (d a : BitVec 5) (sz : BitVec 3) (i : BitVec 13) (s : State) : Out :=
  .next (s.needLimits (storeSize sz) fun s => s.store d s.c.spc (loadAddr s.c a i) sz)

/-- ldx: the space byte is the low byte of X[b] (R123). -/
def execLdx (d a b : BitVec 5) (sz : BitVec 3) (s : State) : Out :=
  .next (s.load d ((s.c.getX b).setWidth 8) (s.c.getX a) sz)

/-- stx (R123). -/
def execStx (d a b : BitVec 5) (sz : BitVec 3) (s : State) : Out :=
  .next (s.needLimits (storeSize sz) fun s => s.store d ((s.c.getX b).setWidth 8) (s.c.getX a) sz)

/-- ld.acq: its context waits for the value, so every later access is issued after it (R50, R123). -/
def execLdAcq (d a : BitVec 5) (sz : BitVec 3) (s : State) : Out := .next (s.load d s.c.spc (s.c.getX a) sz)

/-- Trap ALIGN on an address that n does not divide (R119). -/
def State.needAligned (s : State) (va : Word) (n : Nat) (k : State → State) : State :=
  if va.toNat % n ≠ 0 then s.trap Code.align va else k s

/-- st.rel: parks until every earlier access of the context is performed, then stores (R51, R123). The alignment is checked before
the wait; range, privilege, page and space are checked after it, with the access itself (DESIGN CHOICE, log entry 28). -/
def execStRel (d a : BitVec 5) (sz : BitVec 3) (s : State) : Out :=
  .next (s.needLimits (storeSize sz) fun s => s.needAligned (s.c.getX a) (sizeBytes sz) fun s =>
    s.afterRelease fun s => s.store d s.c.spc (s.c.getX a) sz)

/-! ### raddr (R124) -/

/-- Logical column and row of the executing tile, from SR[tileid] (R17, R166). -/
def ownXY (a : Agent) : Nat × Nat :=
  match tileNo a with
  | some t => (t % 30, t / 30)
  | none => (0xFFFF % 30, 0xFFFF / 30)

/-- The aperture address of an offset in the local memory of a rank's tile. -/
def raddrOf (xy : Nat × Nat) (rank w h off r : Word) : Word :=
  if w = 0 || w.toNat * h.toNat ≤ r.toNat || 0x3C_0000 ≤ off.toNat then
    0xF000_0000_FFC0_0000 ||| toWord (bits off 21 0)
  else
    let x0 := toWord xy.1 - rank % w
    let y0 := toWord xy.2 - rank / w
    let tile := (y0 + r / w) * 30 + x0 + r % w
    0xF000_0000_0000_0000 ||| (tile <<< 22) ||| off

/-- raddr; it reads no memory and never traps. -/
def execRaddr (d a b : BitVec 5) (s : State) : Out :=
  .next (s.setXRetire d (raddrOf (ownXY s.cur) s.c.rank s.c.gangw s.c.gangh (s.c.getX a) (s.c.getX b)))

/-! ### Atomics (R125, R126, R60) -/

/-- An atomic: .rel and .ar wait for the earlier accesses first; the old value comes back sign-extended. The alignment is checked
before the wait; range, privilege, page and space are checked after it, with the access itself (DESIGN CHOICE, log entry 28). -/
def State.amo (s : State) (op : Amo) (d a b : BitVec 5) (ord : BitVec 2) (wd : BitVec 1) : State :=
  let n := if wd = 1 then 8 else 4
  let low := fun (v : Word) => v.toNat % 2 ^ (8 * n)
  s.needAligned (s.c.getX a) n fun s =>
    let go := fun (s : State) =>
      s.access s.c.spc (.amo op (low (s.c.getX d))) (.scalar d n true) [(0, s.c.getX a, n, low (s.c.getX b))]
    if ord = 2 || ord = 3 then s.afterRelease go else go s

/-- amo.add. -/
def execAmoAdd (d a b : BitVec 5) (o : BitVec 2) (w : BitVec 1) (s : State) : Out := .next (s.amo .add d a b o w)
/-- amo.swap. -/
def execAmoSwap (d a b : BitVec 5) (o : BitVec 2) (w : BitVec 1) (s : State) : Out := .next (s.amo .swap d a b o w)
/-- amo.cas: X[d] is also the comparand. -/
def execAmoCas (d a b : BitVec 5) (o : BitVec 2) (w : BitVec 1) (s : State) : Out := .next (s.amo .cas d a b o w)
/-- amo.min. -/
def execAmoMin (d a b : BitVec 5) (o : BitVec 2) (w : BitVec 1) (s : State) : Out := .next (s.amo .min d a b o w)
/-- amo.max. -/
def execAmoMax (d a b : BitVec 5) (o : BitVec 2) (w : BitVec 1) (s : State) : Out := .next (s.amo .max d a b o w)
/-- amo.minu. -/
def execAmoMinu (d a b : BitVec 5) (o : BitVec 2) (w : BitVec 1) (s : State) : Out := .next (s.amo .minu d a b o w)
/-- amo.maxu. -/
def execAmoMaxu (d a b : BitVec 5) (o : BitVec 2) (w : BitVec 1) (s : State) : Out := .next (s.amo .maxu d a b o w)
/-- amo.and. -/
def execAmoAnd (d a b : BitVec 5) (o : BitVec 2) (w : BitVec 1) (s : State) : Out := .next (s.amo .and d a b o w)
/-- amo.or. -/
def execAmoOr (d a b : BitVec 5) (o : BitVec 2) (w : BitVec 1) (s : State) : Out := .next (s.amo .or d a b o w)
/-- amo.xor. -/
def execAmoXor (d a b : BitVec 5) (o : BitVec 2) (w : BitVec 1) (s : State) : Out := .next (s.amo .xor d a b o w)

/-! ### Fences (R52, R53, R127) -/

/-- The numbers of a context's accesses to memory in flight, loads and atomics or stores. -/
def State.openAccesses (s : State) (a : Agent) (stores : Bool) : List Nat :=
  (s.net.filter fun x => x.agent = a && (decide (x.kind = .store) = stores)).map fun x => x.id

/-- The numbers of a context's messages on their way: remote stores (R254). -/
def State.openMessages (s : State) (a : Agent) : List Nat :=
  (s.msgs.filter fun m => m.sender = some a).map fun m => m.id

/-- The numbers of the decrements that a context's task.done has asked for and that are not yet performed (R290). -/
def State.openDecrements (s : State) (a : Agent) : List Nat :=
  (s.taskUnits.toList.flatten.filter fun x => x.agent = a).map fun x => x.id

/-- The copy requests that a context has pushed and that still have an access or a semaphore-V to perform, those that a spill
keeps, unstarted, among them (R52, R262). -/
def State.openCopies (s : State) (a : Agent) : List Nat :=
  let n := s.ni (ownerOf a)
  (((n.cq.toList ++ n.kept.cq.toList).flatten).filter fun r => r.agent = a && r.phase ≠ .completing).map fun r => r.id

/-- The matrix entries of a tile not yet completed, qfences apart. -/
def Mm.open (m : Mm) : List Nat := (m.queue.filter fun e => e.op ≠ .qfence).map fun e => e.id

/-- The entries that a token of a tile's contexts can still record: those in the queue, and one that a pre-emption has withdrawn and
whose instruction is to run again (R54). -/
def State.heldEntries (s : State) (a : Agent) : List Nat :=
  match tileNo a with
  | none => []
  | some t => (s.mms.get Mm.initial t).open ++ (s.mms.get Mm.initial t).resume.toList

/-- The matrix entries not yet completed: the joint instructions of every facet of the tile. To the pre-emption handler the
withdrawn one is none of its own. -/
def State.openEntries (s : State) (a : Agent) : List Nat :=
  match tileNo a with
  | none => []
  | some t => if (s.ctx a).pe then (s.mms.get Mm.initial t).open else s.heldEntries a

/-- What fence.issue records for a kinds mask: bit 0 lo, 1 rl, 2 rs, 3 cp, 4 mm. Local-alias accesses are performed at
issue (log entry 11), so lo records nothing. -/
def State.recordKinds (s : State) (a : Agent) (k : BitVec 5) : List Nat :=
  (if bit k 1 then s.openAccesses a false else []) ++
    (if bit k 2 then s.openAccesses a true ++ s.openMessages a ++ s.openDecrements a else []) ++
    (if bit k 3 then s.openCopies a else []) ++ (if bit k 4 then s.openEntries a else [])

/-- Everything of a context that a token can still be waiting for. -/
def State.openIds (s : State) (a : Agent) : List Nat := s.recordKinds a 0x1F

/-- The token of a context. -/
def Ctx.token (c : Ctx) (t : BitVec 2) : Token := c.tokens[t.toNat]'t.isLt

/-- Is the recorded set of a token empty: has all of it been performed? -/
def State.tokenDone (s : State) (a : Agent) (t : BitVec 2) : Bool :=
  ((s.ctx a).token t).ids.all fun i => !(s.openIds a).contains i

/-- The oldest late fault of an access, message or entry that a token of a context records (R53). -/
def State.observed (s : State) (a : Agent) (t : BitVec 2) : Option LateFault :=
  (s.ctx a).late.find? fun l => (l.id.map ((s.ctx a).token t).ids.contains).getD false

/-- Run a fence.wait or fence.test that observes a token: a late fault that the token's set has raised is taken before it returns
(R53, R122). -/
def State.observing (s : State) (t : BitVec 2) (k : State → State) : State :=
  match s.observed s.cur t with
  | none => k s
  | some l => s.takeFault s.cur l

/-- fence.issue: waits, parked, for the token's set, then records (R52, R127). -/
def execFenceIssue (t : BitVec 2) (k : BitVec 5) (s : State) : Out :=
  .next (if s.tokenDone s.cur t then
      s.mod fun c => { c with tokens := c.tokens.set t.toNat ⟨s.recordKinds s.cur k⟩ t.isLt }.retire s.latch
    else s.park (.fence t.toNat))

/-- fence.wait. -/
def execFenceWait (t : BitVec 2) (s : State) : Out :=
  .next (s.observing t fun s => if s.tokenDone s.cur t then s.retire else s.park (.fence t.toNat))

/-- fence.test. -/
def execFenceTest (d : BitVec 5) (t : BitVec 2) (s : State) : Out :=
  .next (s.observing t fun s => s.setXRetire d (boolWord (s.tokenDone s.cur t)))

end Sys2Proof.Machine
end

