-- ==== Sys2Proof/Machine/Sync.lean ====
section
/-! DEFINITION. Mutexes, semaphores and the summit barrier: majors 0x15 and 0x2B and the barrier's phase step (R128 to
R136). -/

namespace Sys2Proof.Machine

/-- Run an instruction of a tile's own synchronisation; on a crest core it traps PROT with the word (R129, R135). -/
def State.onTile (s : State) (k : Nat → State → State) : State :=
  match s.cur with
  | .facet t _ _ => k t.val s
  | .crest _ _ => s.trapWord Code.prot

/-- The ctxid of a facet context within its tile, 6 bits (R128, R166). -/
def tileCtxid (a : Agent) : BitVec 6 := BitVec.ofNat 6 (ctxid a)

/-! ### Mutexes (R130) -/

/-- Mutex m of a tile. -/
def Tile.mutex (t : Tile) (m : Nat) : Mutex := t.mutexes[m % 16]'(Nat.mod_lt _ (by omega))

/-- Replace mutex m. -/
def Tile.setMutex (t : Tile) (m : Nat) (x : Mutex) : Tile :=
  { t with mutexes := t.mutexes.set (m % 16) x (Nat.mod_lt _ (by omega)) }

/-- mtx.lock. -/
def lockMutex (m t : Nat) (s : State) : State :=
  let x := (s.tile t).mutex m
  let me := tileCtxid s.cur
  if x.owner = some me then s.trap Code.prot (toWord m)
  else if x.owner = none then (s.modTile t fun t => t.setMutex m { x with owner := some me }).retire
  else (s.modTile t fun t => t.setMutex m { x with waiters := x.waiters ++ [s.cur] }).park (.mutex m)

/-- mtx.try. -/
def tryMutex (d : BitVec 5) (m t : Nat) (s : State) : State :=
  let x := (s.tile t).mutex m
  if x.owner = none && x.waiters.isEmpty then
    (s.modTile t fun t => t.setMutex m { x with owner := some (tileCtxid s.cur) }).setXRetire d 1
  else s.setXRetire d 0

/-- Ownership passes to the head waiter, which becomes ready, or the mutex becomes free. -/
def State.passMutex (s : State) (t m : Nat) : State :=
  let x := (s.tile t).mutex m
  match x.waiters with
  | [] => s.modTile t fun t => t.setMutex m { x with owner := none }
  | w :: rest => (s.modTile t fun t => t.setMutex m ⟨some (tileCtxid w), rest⟩).finish w id

/-- mtx.unlock: PROT if the context does not own it, then a release. -/
def unlockMutex (m t : Nat) (s : State) : State :=
  if ((s.tile t).mutex m).owner ≠ some (tileCtxid s.cur) then s.trap Code.prot (toWord m)
  else s.afterRelease fun s => s.retire.passMutex t m

/-- A mutex instruction: a number above 15 traps ILLEGAL (R129). -/
def mutexOp (b : BitVec 5) (f : Nat → Nat → State → State) (s : State) : State :=
  s.needLimits (b.toNat < 16) fun s => s.onTile (f b.toNat)

/-- mtx.lock. -/
def execMtxLock (b : BitVec 5) (s : State) : Out := .next (mutexOp b lockMutex s)
/-- mtx.try. -/
def execMtxTry (d b : BitVec 5) (s : State) : Out := .next (mutexOp b (tryMutex d) s)
/-- mtx.unlock. -/
def execMtxUnlock (b : BitVec 5) (s : State) : Out := .next (mutexOp b unlockMutex s)

/-- The lowest mutex that a context owns (R130). -/
def State.ownedMutex (s : State) (a : Agent) : Option Nat :=
  match tileNo a with
  | none => none
  | some t => (List.range 16).find? fun m => ((s.tile t).mutex m).owner = some (tileCtxid a)

/-! ### Semaphores (R131) -/

/-- Semaphore n of a tile. -/
def Tile.sem (t : Tile) (n : Nat) : Sem := t.sems[n % 32]'(Nat.mod_lt _ (by omega))

/-- Replace semaphore n. -/
def Tile.setSem (t : Tile) (n : Nat) (x : Sem) : Tile :=
  { t with sems := t.sems.set (n % 32) x (Nat.mod_lt _ (by omega)) }

/-- A permit can be taken at once. -/
def Sem.free (x : Sem) : Bool := x.count ≠ 0 && x.waiters.isEmpty

/-- sem.p. -/
def semTake (n t : Nat) (s : State) : State :=
  let x := (s.tile t).sem n
  if x.free then (s.modTile t fun t => t.setSem n { x with count := x.count - 1 }).retire
  else (s.modTile t fun t => t.setSem n { x with waiters := x.waiters ++ [s.cur] }).park (.semaphore n)

/-- sem.try. -/
def semTryTake (d : BitVec 5) (n t : Nat) (s : State) : State :=
  let x := (s.tile t).sem n
  if x.free then (s.modTile t fun t => t.setSem n { x with count := x.count - 1 }).setXRetire d 1
  else s.setXRetire d 0

/-- A V on a semaphore, by sem.v or by the copy engine: the head waiter takes the permit, or the count rises, or at 65,535
the permit is lost and the overflow bit set. -/
def State.semGive (s : State) (t n : Nat) : State :=
  let x := (s.tile t).sem n
  match x.waiters with
  | w :: rest => (s.modTile t fun t => t.setSem n { x with waiters := rest }).finish w id
  | [] => s.modTile t fun t =>
      t.setSem n (if x.count = 0xFFFF then { x with ovf := true } else { x with count := x.count + 1 })

/-- The word of sem.rd. -/
def Sem.word (x : Sem) : Word := toWord (x.count.toNat + x.waiters.length * 2 ^ 16 + (if x.ovf then 2 ^ 22 else 0))

/-- sem.p. -/
def execSemP (b : BitVec 5) (s : State) : Out := .next (s.onTile (semTake b.toNat))
/-- sem.v: a release. -/
def execSemV (b : BitVec 5) (s : State) : Out :=
  .next (s.onTile fun t s => s.afterRelease fun s => s.retire.semGive t b.toNat)
/-- sem.try. -/
def execSemTry (d b : BitVec 5) (s : State) : Out := .next (s.onTile (semTryTake d b.toNat))
/-- sem.rd: the overflow bit is cleared by the read. -/
def execSemRd (d b : BitVec 5) (s : State) : Out :=
  .next (s.onTile fun t s =>
    let x := (s.tile t).sem b.toNat
    (s.modTile t fun t => t.setSem b.toNat { x with ovf := false }).setXRetire d x.word)

/-! ### The summit barrier (R133 to R135) -/

/-- Channel ch of a tile. -/
def Tile.channel (t : Tile) (ch : Nat) : Channel := t.channels[ch % 16]'(Nat.mod_lt _ (by omega))

/-- Replace channel ch. -/
def Tile.setChannel (t : Tile) (ch : Nat) (x : Channel) : Tile :=
  { t with channels := t.channels.set (ch % 16) x (Nat.mod_lt _ (by omega)) }

/-- Phase p is complete at a count: (c - p) mod 2^32 lies between 1 and 2^31 (R133). -/
def phaseComplete (c p : BitVec 32) : Bool := 1 ≤ (c - p).toNat && (c - p).toNat ≤ 2 ^ 31

/-- The facets of a tile that are fenced for a missed heartbeat, as a mask; their arrivals complete nothing (R34, R136). -/
def State.fencedMask (s : State) (t : Nat) : BitVec 4 :=
  BitVec.ofNat 4 ((List.range 4).map fun f => if (s.facets.get Facet.initial (t * 4 + f)).fenced then 2 ^ f else 0).sum

/-- The facets that may arrive: the members of the open phase, and once that is reported also those that a bar.cfg has set
for the next (R135). -/
def Channel.mayArrive (x : Channel) : BitVec 4 := if x.reported then x.members ||| x.next.getD 0 else x.members

/-- Must an arrival wait for the open phase to complete: the facet's own is recorded (R134), or a bar.cfg has made it a member
only from the next phase on (DEDUCED, log entry 62)? -/
def Channel.mustWait (x : Channel) (f : Nat) : Bool := x.arrived.getLsbD f || (x.reported && !x.members.getLsbD f)

/-- A channel whose members have all arrived is reported. An arrival recorded of a facet that is fenced since counts no more
(DESIGN CHOICE, log entry 63): R136 says only that phases which need its arrival do not complete. -/
def Channel.report (x : Channel) (fenced : BitVec 4) : Channel :=
  { x with reported := x.reported || (x.arrived &&& ~~~fenced &&& x.members) = x.members }

/-- bar.arrive: PROT unless the facet is a member; while the facet's own arrival is open the context parks; then a
release, and the phase joined in X[d]. -/
def barArrive (d : BitVec 5) (ch t : Nat) (f : Nat) (s : State) : State :=
  let x := (s.tile t).channel ch
  if !x.mayArrive.getLsbD f then s.trap Code.prot (toWord ch)
  else if x.mustWait f then s.park (.arrive ch)
  else s.afterRelease fun s =>
    let y := { x with arrived := x.arrived ||| (1 <<< f) }
    (s.modTile t fun tl => tl.setChannel ch (y.report (s.fencedMask t))).setXRetire d (x.count.setWidth 64)

/-- The facet number of the context in issue. -/
def facetNo (a : Agent) : Nat :=
  match a with
  | .facet _ f _ => f.val
  | .crest _ _ => 0

/-- A barrier instruction: a channel above 15 traps ILLEGAL (R134). -/
def barOp (b : BitVec 5) (f : Nat → Nat → State → State) (s : State) : State :=
  s.needLimits (b.toNat < 16) fun s => s.onTile (f b.toNat)

/-- bar.arrive. -/
def execBarArrive (d b : BitVec 5) (s : State) : Out :=
  .next (barOp b (fun ch t s => barArrive d ch t (facetNo s.cur) s) s)

/-- The low word of X[a]: the phase an instruction names. -/
def phaseOf (c : Ctx) (a : BitVec 5) : BitVec 32 := (c.getX a).setWidth 32

/-- bar.wait. -/
def execBarWait (a b : BitVec 5) (s : State) : Out :=
  .next (barOp b (fun ch t s =>
    let p := phaseOf s.c a
    if phaseComplete ((s.tile t).channel ch).count p then s.retire else s.park (.barrier ch p)) s)

/-- bar.test. -/
def execBarTest (d a b : BitVec 5) (s : State) : Out :=
  .next (barOp b (fun ch t s =>
    s.setXRetire d (boolWord (phaseComplete ((s.tile t).channel ch).count (phaseOf s.c a)))) s)

/-- The members that a mode of bar.cfg names (R135). -/
def membersOf (mode : Nat) : BitVec 4 := if mode = 4 then 0xF else BitVec.ofNat 4 (2 ^ mode)

/-- The membership that a bar.cfg sets, from the first phase that the tile has not reported (R135): at once, an arrival
recorded for the open phase being counted under it, or once that phase has completed. -/
def Channel.configure (x : Channel) (members fenced : BitVec 4) : Channel :=
  if x.reported then { x with next := some members } else Channel.report { x with members := members } fenced

/-- bar.cfg: a bead traps PROT with the word (R135, R160 at step 7), a mode above 4 ILLEGAL. -/
def execBarCfg (a b : BitVec 5) (s : State) : Out :=
  .next (match s.cur with
    | .crest _ _ => s.needLimits (b.toNat < 16 && a.toNat ≤ 4) fun s => s.trapWord Code.prot
    | .facet t _ _ =>
      if isBead s.cur then s.trapWord Code.prot
      else s.needLimits (b.toNat < 16 && a.toNat ≤ 4) fun s =>
        let x := (s.tile t.val).channel b.toNat
        let y := x.configure (membersOf a.toNat) (s.fencedMask t.val)
        (s.modTile t.val fun t => t.setChannel b.toNat y).retire)

/-- The tiles that a gang holds (R29); a saved gang holds none (R183). -/
def Gang.tiles (g : Gang) : List Nat :=
  if g.phase = .saved then [] else (List.range g.h).flatMap fun y => (List.range g.w).map fun x => (g.y0 + y) * 30 + g.x0 + x

/-- A channel after its open phase has completed: the membership that waited for the next phase holds. -/
def Channel.completed (x : Channel) : Channel :=
  { x with count := x.count + 1, members := x.next.getD x.members, next := none, arrived := 0, reported := false }

/-- A phase completes once every tile of the gang has reported it: the count rises at every tile (R133). While a tile's counts are
in its spill area they stand as they are (R33, R134, R263; DEDUCED, log entry 73). -/
def State.completePhase (s : State) (slot ch : Nat) : State :=
  match s.gangs.find slot with
  | none => s
  | some g =>
    if g.tiles.all fun t => ((s.tile t).channel ch).reported && !(s.tile t).spilled then
      g.tiles.foldl (fun s t => s.modTile t fun tl =>
        tl.setChannel ch (tl.channel ch).completed) s
    else s

/-- BARRIER_PHASE_COMPLETE. -/
def execBarrierPhaseComplete (slot : Fin 256) (ch : Fin 16) (s : State) : Out := .next (s.completePhase slot.val ch.val)

end Sys2Proof.Machine
end

