-- ==== Sys2Proof/Machine/Special.lean ====
section
/-! DEFINITION. The special registers and major 0x17 (R80, R88, R165 to R168, R175, R182, R201, R207, R217, R219, R226,
R256). -/

namespace Sys2Proof.Machine

/-- Who may do what with a special register (R166): read-only, kernel write, kernel only, read and write. -/
inductive SrAccess where
  | ro | k | ko | rw
deriving DecidableEq, Repr

/-- A special register: its access, its writable bits, and whether it belongs to the matrix feature (R88, R96). -/
structure SrSpec where
  access : SrAccess
  mask : Word
  matrix : Bool
deriving DecidableEq, Repr

/-- A read-only register. -/
def SrSpec.readOnly (matrix : Bool) : SrSpec := ⟨.ro, 0, matrix⟩

/-- The special registers by number; none for a number that R88 does not list. -/
def srSpec (n : Nat) : Option SrSpec :=
  match n with
  | 0x000 => some ⟨.k, allOnes, false⟩
  | 0x001 => some ⟨.k, 0xFFFF_0FFF, false⟩
  | 0x002 => some ⟨.k, allOnes, false⟩
  | 0x003 => some ⟨.k, 0x174, false⟩
  | 0x004 => some ⟨.k, 0xFFFF_FFFF_FFFF_FF00, false⟩
  | 0x005 => some ⟨.rw, 0xFFFF_FFFF_FFFF_FFFD, false⟩
  | 0x006 => some ⟨.rw, 0x3F, false⟩
  | 0x007 => some ⟨.rw, 7, false⟩
  | 0x008 => some ⟨.rw, allOnes, false⟩
  | 0x009 => some ⟨.rw, 0xFF, false⟩
  | 0x00A => some ⟨.k, 0x003F_FFFF_003F_FFFF, false⟩
  | 0x00B => some ⟨.k, 0xFFFF_FFFF, false⟩
  | 0x00C => some ⟨.k, 0x3F, false⟩
  | 0x00D | 0x00E | 0x00F | 0x010 | 0x011 | 0x012 | 0x013 | 0x014 => some (.readOnly false)
  | 0x100 => some (.readOnly true)
  | 0x101 => some ⟨.k, 0x8000_0000_FFFF_FFFF, true⟩
  | 0x140 => some ⟨.k, 3, true⟩
  | 0x141 | 0x142 | 0x143 => some (.readOnly true)
  | 0x144 => some ⟨.k, 0xFF_FFFF_FFFF, true⟩
  | 0x148 | 0x149 | 0x14A | 0x14B | 0x14C | 0x14D | 0x14E => some ⟨.rw, allOnes, true⟩
  | 0x180 => some ⟨.rw, 0x7F, false⟩
  | 0x181 | 0x182 => some (.readOnly false)
  | 0x800 | 0x801 | 0x802 | 0x803 => some ⟨.ko, 0xF03F_FFFF_003F_FFFF, false⟩
  | 0x804 => some ⟨.ko, 0x8000_0000_0000_0000, false⟩
  | _ => none

/-- The facet-like key that holds a context's hbint: its facet, or on a crest core a register of its own (log entry 8). -/
def hbKey (a : Agent) : Nat := ownerKey (ownerOf a)

/-- The coprocessor-ring entry that cring.sel selects (R175). -/
def State.ringEntry (s : State) (a : Agent) : RingEntry :=
  (s.ni (ownerOf a)).ring[(s.ctx a).cringSel.toNat % 16]'(Nat.mod_lt _ (by omega))

/-- The word of a ring entry that cring.sel selects (R175). -/
def RingEntry.op (e : RingEntry) (word : Nat) : Word :=
  if word = 0 then toWord (e.seq.toNat * 2 ^ 48 + (if e.open_ then 2 ^ 32 else 0) + e.word.toNat)
  else if word ≤ 4 then e.ops.getD (word - 1) 0
  else 0

/-- A tile's tolerance register i (R217). -/
def Bezel.tol (b : Bezel) (i : Nat) : Word := b.tols[i % 7]'(Nat.mod_lt _ (by omega))

/-- The matrix engine of a tile. -/
def State.mm (s : State) (t : Nat) : Mm := s.mms.get Mm.initial t

/-- Change the matrix engine of a tile. -/
def State.modMm (s : State) (t : Nat) (f : Mm → Mm) : State := { s with mms := s.mms.put t (f (s.mm t)) }

/-- Change a tile's bezel state. -/
def State.modBz (s : State) (t : Nat) (f : Bezel → Bezel) : State := s.modMm t fun m => { m with bz := f m.bz }

/-- lmres (R182). -/
def lmresWord (wp : Bool) : Word :=
  (if wp then 0x8000_0000_0000_0000 else 0) ||| toWord (0x40_0000 * 2 ^ 32 + 0x3C_0000)

/-- The value of a tile's special register; 0 on a crest core (R255). -/
def srTile (a : Agent) (f : Nat → Word) : Word :=
  match tileNo a with
  | some t => f t
  | none => 0

/-- SR[n] of a context (R80, R166). -/
def State.srRead (s : State) (a : Agent) (n : Nat) : Word :=
  let c := s.ctx a
  match n with
  | 0x000 => c.epc
  | 0x001 => c.ecause
  | 0x002 => c.einfo
  | 0x003 => c.estat
  | 0x004 => c.tvec
  | 0x005 => c.uvec
  | 0x006 => c.fflags.setWidth 64
  | 0x007 => c.frm.setWidth 64
  | 0x008 => c.srgen
  | 0x009 => c.spc.setWidth 64
  | 0x00A => if isCrest a then 0 else c.cwin
  | 0x00B =>
    let f := s.facets.get Facet.initial (hbKey a)
    toWord (f.hbLeft.toNat * 2 ^ 32 + f.hbInterval.toNat)
  | 0x00C => c.repidx.setWidth 64
  | 0x00D => toWord (ctxid a)
  | 0x00E => if isCrest a then 0 else c.rank
  | 0x00F => if isCrest a then 0 else c.gangid
  | 0x010 => if isCrest a then 0 else c.gangw
  | 0x011 => if isCrest a then 0 else c.gangh
  | 0x012 => toWord ((tileNo a).getD 0xFFFF)
  | 0x013 => toWord (fmaskOf a)
  | 0x014 => toWord s.now
  | 0x100 => srTile a fun t => (s.mm t).wm
  | 0x101 => srTile a fun t => (s.mm t).seqpos
  | 0x140 => srTile a fun t => (s.mm t).bz.site
  | 0x141 => srTile a fun t => (s.mm t).bz.row
  | 0x142 => srTile a fun t => (s.mm t).bz.col
  | 0x143 => srTile a fun t => (s.mm t).bz.delta
  | 0x144 => srTile a fun t => (s.tile t).bzwin
  | 0x148 | 0x149 | 0x14A | 0x14B | 0x14C | 0x14D | 0x14E => srTile a fun t => (s.mm t).bz.tol (n - 0x148)
  | 0x180 => c.cringSel.setWidth 64
  | 0x181 => (s.ringEntry a).pc
  | 0x182 => (s.ringEntry a).op (c.cringSel.toNat / 16)
  | 0x800 | 0x801 | 0x802 | 0x803 => srTile a fun t => (s.tile t).win[(n - 0x800) % 4]'(Nat.mod_lt _ (by omega))
  | 0x804 => srTile a fun t => lmresWord (s.tile t).wp
  | _ => 0

/-- Change a tile's register; nothing on a crest core. -/
def State.srPutTile (s : State) (a : Agent) (f : Nat → State) : State :=
  match tileNo a with
  | some t => f t
  | none => s

/-- Store a whole new value of SR[n], read-only bits already kept; a 0 written to srgen stores the start value (R80). -/
def State.srPut (s : State) (a : Agent) (n : Nat) (v : Word) : State :=
  match n with
  | 0x000 => s.modCtx a fun c => { c with epc := v }
  | 0x001 => s.modCtx a fun c => { c with ecause := v }
  | 0x002 => s.modCtx a fun c => { c with einfo := v }
  | 0x003 => s.modCtx a fun c => { c with estat := v }
  | 0x004 => s.modCtx a fun c => { c with tvec := v }
  | 0x005 => s.modCtx a fun c => { c with uvec := v }
  | 0x006 => s.modCtx a fun c => { c with fflags := v.setWidth 6 }
  | 0x007 => s.modCtx a fun c => { c with frm := v.setWidth 3 }
  | 0x008 => s.modCtx a fun c => { c with srgen := if v = 0 then 0x9E37_79B9_7F4A_7C15 else v }
  | 0x009 => s.modCtx a fun c => { c with spc := v.setWidth 8 }
  | 0x00A => if isCrest a then s else s.modCtx a fun c => { c with cwin := v }
  | 0x00B =>
    let f := s.facets.get Facet.initial (hbKey a)
    { s with facets := s.facets.put (hbKey a) { f with hbInterval := v.setWidth 32 } }
  | 0x00C => s.modCtx a fun c => { c with repidx := v.setWidth 6 }
  | 0x101 => s.srPutTile a fun t => s.modMm t fun m => { m with seqpos := v }
  | 0x140 => s.srPutTile a fun t => s.modBz t fun b => { b with site := v }
  | 0x144 => s.srPutTile a fun t => s.modTile t fun tl => { tl with bzwin := v }
  | 0x148 | 0x149 | 0x14A | 0x14B | 0x14C | 0x14D | 0x14E =>
    s.srPutTile a fun t => s.modBz t fun b =>
      { b with tols := b.tols.set ((n - 0x148) % 7) v (Nat.mod_lt _ (by omega)) }
  | 0x180 => s.modCtx a fun c => { c with cringSel := v.setWidth 7 }
  | 0x800 | 0x801 | 0x802 | 0x803 =>
    s.srPutTile a fun t => s.modTile t fun tl =>
      { tl with win := tl.win.set ((n - 0x800) % 4) v (Nat.mod_lt _ (by omega)) }
  | 0x804 => s.srPutTile a fun t => s.modTile t fun tl => { tl with wp := bit v 63 }
  | _ => s

/-- The checks that every special-register instruction makes (R88, R91, R165): an unlisted number ILLEGAL, the matrix
registers on a crest core FEATURE, a kernel-only register at user privilege PRIV. -/
def State.withSr (s : State) (n : Nat) (k : SrSpec → State) : State :=
  match srSpec n with
  | none => s.trapWord Code.illegal
  | some sp =>
    if sp.matrix && isCrest s.cur then s.trapWord Code.feature
    else if sp.access = .ko && !s.c.kernel then s.trapWord Code.priv
    else k sp

/-- A write of SR[n] (R165): a read-only register traps ILLEGAL, one marked K traps PRIV at user privilege, and frm takes no
6 or 7 (R80). The old value goes to X[d]. -/
def State.srWrite (s : State) (d : BitVec 5) (n : Nat) (f : Word → Word) : State :=
  s.withSr n fun sp =>
    if sp.access = .ro then s.trapWord Code.illegal
    else if sp.access ≠ .rw && !s.c.kernel then s.trapWord Code.priv
    else
      let old := s.srRead s.cur n
      let v := (old &&& ~~~sp.mask) ||| (f old &&& sp.mask)
      if n = 0x007 && 6 ≤ v.toNat then s.trapWord Code.illegal
      else (s.srPut s.cur n v).setXRetire d old

/-- srr. -/
def execSrr (d : BitVec 5) (n : BitVec 12) (s : State) : Out :=
  .next (s.withSr n.toNat fun _ => s.setXRetire d (s.srRead s.cur n.toNat))
/-- srw. -/
def execSrw (d a : BitVec 5) (n : BitVec 12) (s : State) : Out :=
  .next (s.srWrite d n.toNat fun _ => s.c.getX a)
/-- srs. -/
def execSrs (d a : BitVec 5) (n : BitVec 12) (s : State) : Out :=
  .next (s.srWrite d n.toNat fun old => old ||| s.c.getX a)
/-- src. -/
def execSrc (d a : BitVec 5) (n : BitVec 12) (s : State) : Out :=
  .next (s.srWrite d n.toNat fun old => old &&& ~~~s.c.getX a)

end Sys2Proof.Machine
end

