-- ==== Sys2Proof/Machine/Tensor.lean ====
section
/-! DEFINITION. Tensor records, swizzle, fill stamps, slicing and the tensor-table instructions that are not joint
(R188 to R191, R209). -/

namespace Sys2Proof.Machine

/-! ### The fields of a record (R188) -/

/-- n bytes of a record at an offset. -/
def recAt (r : Vec) (off n : Nat) : Nat := r.toNat / 2 ^ (8 * off) % 2 ^ (8 * n)

/-- A record with n bytes replaced. -/
def recPut (r : Vec) (off n v : Nat) : Vec := BitVec.ofNat 512 (putBitsN r.toNat (8 * off) (8 * n) v)

/-- fmt. -/
def recFmt (r : Vec) : Nat := recAt r 0 1
/-- rank. -/
def recRank (r : Vec) : Nat := recAt r 1 1
/-- swz. -/
def recSwz (r : Vec) : Nat := recAt r 2 1
/-- V. -/
def recValid (r : Vec) : Bool := recAt r 3 1 % 2 = 1
/-- S. -/
def recSliced (r : Vec) : Bool := recAt r 3 1 / 2 % 2 = 1
/-- sbase. -/
def recSbase (r : Vec) : Nat := recAt r 4 4
/-- base. -/
def recBase (r : Vec) : Nat := recAt r 8 8
/-- Axis length d0 to d3. -/
def recD (r : Vec) (i : Nat) : Nat := recAt r (16 + 4 * i) 4
/-- Axis stride s0 to s3. -/
def recS (r : Vec) (i : Nat) : Nat := recAt r (32 + 4 * i) 4
/-- part0 to part3. -/
def recPart (r : Vec) (i : Nat) : Nat := recAt r (48 + 2 * i) 2
/-- cbk. -/
def recCbk (r : Vec) : Nat := recAt r 56 4

/-- The LQ2 format code (R65). -/
def lq2 : Nat := 7
/-- The E2M1 format code (R65). -/
def e2m1 : Nat := 6

/-- E4M3, E5M2, E2M1 and LQ2 carry block scales (R65, R189). -/
def isScaled (fmt : Nat) : Bool := 4 ≤ fmt && fmt ≤ 7

/-- chk of a record (R190). -/
def recChk (r : Vec) : Nat := (List.range 15).foldl (fun x i => x ^^^ recAt r (4 * i) 4) 0x4C41_4E56

/-- A record with chk recomputed. -/
def recSeal (r : Vec) : Vec := recPut r 60 4 (recChk r)

/-- A well-formed record (R190). -/
def recOk (r : Vec) : Bool :=
  decide (recFmt r ≤ 0xC) && decide (1 ≤ recRank r) && decide (recRank r ≤ 4) && recValid r &&
    decide (recSwz r % 8 = 0) && decide (bitsN (recSwz r) 4 3 ≠ 3) && decide (recAt r 3 1 < 4) &&
    ((List.range 4).all fun i => decide (recPart r i < 4)) &&
    ((List.range 4).all fun i => decide (i < recRank r) || (decide (recD r i = 1) && decide (recPart r i = 0))) &&
    (!isScaled (recFmt r) || (decide (recS r 0 = 1) &&
      [1, 2, 3].all fun i => decide (recS r i % 32 = 0))) &&
    (recFmt r ≠ lq2 || decide (recD r 0 % 8 = 0)) && decide (recAt r 60 4 = recChk r)

/-! ### Places (R189, R191) -/

/-- Swz(): swizzle an offset by a swz byte (R191). -/
def swizzle (swz o : Nat) : Nat :=
  if bitsN swz 7 7 = 0 then o
  else
    let sh := 4 + bitsN swz 6 5
    let f := bitsN swz 4 3
    o ^^^ (bitsN o (sh + 5 + f) (sh + 3 + f) * 2 ^ sh)

/-- The stamp of a swz byte (R191). -/
def stampOf (swz : Nat) : Nat := if bitsN swz 7 7 = 0 then 0 else 1 + 3 * bitsN swz 6 5 + bitsN swz 4 3

/-- The element offset of element (i0, i1). -/
def recElem (r : Vec) (i0 i1 : Nat) : Nat := i0 * recS r 0 + i1 * recS r 1

/-- The byte offset of an element offset from the base: an LQ2 element's is that of its index. -/
def elemByte (fmt e : Nat) : Nat :=
  if fmt = e2m1 then e / 2 else if fmt = lq2 then 2 * (e / 8) else e * (fmtBits fmt / 8)

/-- The bits that hold an element: its width, or an LQ2 index. -/
def elemBits (fmt : Nat) : Nat := if fmt = lq2 then 16 else fmtBits fmt

/-- The bytes of the access that holds an element. -/
def elemBytes (fmt : Nat) : Nat := if fmt = e2m1 then 1 else elemBits fmt / 8

/-- The bit at which an element lies in its byte: the upper half for an odd E2M1 element. -/
def elemShift (fmt e : Nat) : Nat := if fmt = e2m1 then 4 * (e % 2) else 0

/-- The address of an element: swizzled for a local-alias or aperture base (R239). -/
def elemVa (r : Vec) (i0 i1 : Nat) : Word :=
  let b := recBase r
  let o := elemByte (recFmt r) (recElem r i0 i1)
  if isPaged b then toWord (b + o)
  else toWord (b / 2 ^ 22 * 2 ^ 22 + swizzle (recSwz r) (b % 2 ^ 22 + o))

/-- The offset of an element's block scale from the start of its space (R189). -/
def scaleOff (r : Vec) (i0 i1 : Nat) : Nat := recSbase r + recElem r i0 i1 / 32

/-- The address of an element's block scale, in the space of the record's base (R239). -/
def scaleVa (r : Vec) (i0 i1 : Nat) : Word :=
  let b := recBase r
  if isPaged b then toWord (b + scaleOff r i0 i1)
  else if bitsN b 63 60 = 15 then toWord (b / 2 ^ 22 * 2 ^ 22 + scaleOff r i0 i1)
  else toWord (scaleOff r i0 i1)

/-! ### Fill stamps (R191) -/

/-- The fill stamp of a 1 KiB block of a tile. -/
def Tile.stamp (t : Tile) (block : Nat) : Nat := t.stamps.get 0 block

/-- Set the stamp of every block that n bytes at an offset touch. -/
def Tile.setStamps (t : Tile) (off n stamp : Nat) : Tile :=
  { t with stamps := (List.range ((off + n - 1) / 1024 + 1 - off / 1024)).foldl (fun st i =>
      let b := off / 1024 + i
      if stamp = 0 then st.del b else st.put b stamp) t.stamps }

/-! ### Tensor tables (R187, R209) -/

/-- Entry t of a tile's tensor table; 64 zero bytes where nothing is. -/
def Tile.tensor (t : Tile) (n : Nat) : Vec := t.tensors.get 0 n

/-- Set an entry. -/
def Tile.setTensor (t : Tile) (n : Nat) (r : Vec) : Tile :=
  { t with tensors := if r = 0 then t.tensors.del n else t.tensors.put n r }

/-- The parts of an axis and this rank's number among them (R209). -/
def sliceOf (sel w h r : Nat) : Nat × Nat :=
  if sel = 1 then (w, r % w) else if sel = 2 then (h, r / w) else (w * h, r)

/-- One axis of tt.slice: the record with its length cut, and the element offset so far. -/
def sliceAxis (w h r : Nat) (x : Vec × Nat) (a : Nat) : Vec × Nat :=
  let sel := recPart x.1 a % 4
  if sel = 0 then x
  else
    let p := sliceOf sel w h r
    let d := recD x.1 a
    let l := ceilDiv d p.1
    let l := if isScaled (recFmt x.1) && a = 0 then roundUp l 32 else l
    let lo := min (p.2 * l) d
    (recPut x.1 (16 + 4 * a) 4 (min l (d - lo)), x.2 + lo * recS x.1 a)

/-- tt.slice of a record: this rank's part; an empty part keeps base and sbase (R209). -/
def sliceRec (w h r : Nat) (rec_ : Vec) : Vec :=
  let x := [0, 1, 2, 3].foldl (sliceAxis w h r) (rec_, 0)
  let empty := [0, 1, 2, 3].any fun a => decide (recD x.1 a = 0)
  let v := if empty then x.1 else
    let v := recPut x.1 8 8 (recBase rec_ + elemByte (recFmt rec_) x.2)
    if isScaled (recFmt rec_) then recPut v 4 4 (recSbase rec_ + x.2 / 32) else v
  recSeal (recPut (recPut v 48 8 0) 3 1 (recAt rec_ 3 1 % 2 + 2))

/-- tt.rd: FEATURE on a crest core, PROT in a bead (R160), ILLEGAL for id 0 or n above 7. -/
def execTtRd (d : BitVec 5) (n : BitVec 5) (t : BitVec 8) (s : State) : Out :=
  .next (match s.cur with
    | .crest _ _ => s.trapWord Code.feature
    | .facet tile _ _ =>
      if isBead s.cur then s.trapWord Code.prot
      else s.needLimits (t ≠ 0 && n.toNat ≤ 7) fun s =>
        let r := (s.tile tile.val).tensor t.toNat
        s.setXRetire d (if recValid r then toWord (recAt r (8 * n.toNat) 8) else 0))

end Sys2Proof.Machine
end

