-- ==== Sys2Proof/Machine/Engine.lean ====
section
/-! DEFINITION. The matrix engine's arithmetic: reading operands, filling planes, streaming rows and converting drained rows,
with the references that the bezel keeps (R72, R81, R191, R192, R197 to R201, R213 to R215). -/

namespace Sys2Proof.Machine

/-! ### Geometry (R192) -/

/-- The class of a format. -/
def fmtClass (fmt : Nat) : Nat :=
  if fmt = 6 || fmt = 7 then 0 else if fmt = 4 || fmt = 5 || fmt = 9 then 1 else if fmt = 2 || fmt = 3 then 2 else 3

/-- K of a pair of formats. -/
def pairK (w a : Nat) : Nat :=
  match max (fmtClass w) (fmtClass a) with
  | 0 => 128 | 1 => 64 | 2 => 32 | _ => 16
/-- N of a pair of formats. -/
def pairN (w a : Nat) : Nat := if max (fmtClass w) (fmtClass a) = 3 then 16 else 32
/-- G of a pair of formats. -/
def pairG (w a : Nat) : Nat := if max (fmtClass w) (fmtClass a) = 3 then 16 else 32

/-- The formats allowed as W, as A, as C. -/
def wFormats : List Nat := [1, 2, 3, 4, 5, 6, 7, 9]
/-- A. -/
def aFormats : List Nat := [1, 2, 3, 4, 5, 6, 9]
/-- C. -/
def cFormats : List Nat := [1, 2, 3, 4, 5, 6, 9, 11]

/-- K of a plane. -/
def Plane.k (p : Plane) : Nat := pairK p.wfmt p.afmt
/-- N of a plane. -/
def Plane.n (p : Plane) : Nat := pairN p.wfmt p.afmt
/-- G of a plane. -/
def Plane.g (p : Plane) : Nat := pairG p.wfmt p.afmt

/-- A fault of an entry: its code and einfo, role in bits 63:56 and detail in bits 31:0 (R195). -/
abbrev MmFault := Nat × Word

/-- Build a fault. -/
def mmFault (code role detail : Nat) : MmFault := (code, toWord (role * 2 ^ 56 + detail % 2 ^ 32))

/-! ### Operand bytes (R72, R189, R191, R197) -/

/-- The local-memory offset of an element of a matrix operand. An element whose bytes cross a chunk of the swizzle, which R191 does
not place, lies from its first byte's place on (DESIGN CHOICE, log entry 80). -/
def elemOff (r : Vec) (i0 i1 : Nat) : Nat := swizzle (recSwz r) (recBase r + elemByte (recFmt r) (recElem r i0 i1))

/-- The codebook word's offset of an LQ2 index. -/
def codebookOff (r : Vec) (idx : Nat) : Nat := recCbk r + 4 * bitsN idx 15 8

/-- The accesses that hold an element with its scale and codebook entry: offset and bytes. -/
def State.elemAccesses (s : State) (t : Nat) (r : Vec) (i0 i1 : Nat) : List (Nat × Nat) :=
  let off := elemOff r i0 i1
  (off, elemBytes (recFmt r)) ::
    ((if isScaled (recFmt r) then [(scaleOff r i0 i1, 1)] else []) ++
     (if recFmt r = lq2 then [(codebookOff r (s.mem.read (lmLoc t off) 2), 4)] else []))

/-- The first operand byte of a run of elements outside user local memory (LMRANGE). -/
def State.rangeFault (s : State) (t role : Nat) (r : Vec) (els : List (Nat × Nat)) : Option MmFault :=
  if 2 ^ 22 ≤ recBase r then some (mmFault Code.lmrange role (recBase r))
  else ((els.flatMap fun (i0, i1) => s.elemAccesses t r i0 i1).find? fun (off, n) => 0x3C_0000 < off + n).map
    fun (off, _) => mmFault Code.lmrange role off

/-- The first element whose block has another stamp than the record (SWIZMIS). -/
def State.stampFault (s : State) (t role : Nat) (r : Vec) (els : List (Nat × Nat)) : Option MmFault :=
  let tl := s.tile t
  (els.find? fun (i0, i1) =>
    let off := elemOff r i0 i1
    tl.stamp (off / 1024) ≠ stampOf (recSwz r) || tl.stamp ((off + elemBytes (recFmt r) - 1) / 1024) ≠ stampOf (recSwz r)).map
    fun (i0, i1) => mmFault Code.swizmis role (elemOff r i0 i1)

/-- The range check of all operand bytes, then the stamps. -/
def State.operandFault (s : State) (t role : Nat) (r : Vec) (els : List (Nat × Nat)) : Option MmFault :=
  (s.rangeFault t role r els).orElse fun _ => s.stampFault t role r els

/-- Read n bytes of local memory for the engine: UNCORR names the offset. -/
def State.engineRead (s : State) (t role off n : Nat) : State × Except MmFault Nat :=
  match s.takeSoftError (lmLoc t off) n with
  | (s, true) => (s, .error (mmFault Code.uncorr role off))
  | (s, false) => (s, .ok (s.mem.read (lmLoc t off) n))

/-- Weight k of an LQ2 index under a codebook word, as its E4M3 code (R72). -/
def lq2Weight (idx cw k : Nat) : Nat :=
  let sign := fun i => bitsN idx (i + 1) (i + 1)
  let neg := if k < 7 then sign k else ((List.range 7).map sign).sum % 2
  (roundFloat ⟨4, 3, 7, .e4m3, false⟩ 0 false
    (.fin (neg = 1) (2 * bitsN cw (4 * k + 2) (4 * k) + bitsN idx 0 0) (-1) false) 0).code

/-- Read one element: its code (an LQ2 weight as the E4M3 code of its decoded value) and its block scale. -/
def State.readElem (s : State) (t role : Nat) (r : Vec) (i0 i1 : Nat) : State × Except MmFault (Nat × Nat) :=
  let fmt := recFmt r
  let e := recElem r i0 i1
  match s.engineRead t role (elemOff r i0 i1) (elemBytes fmt) with
  | (s, .error f) => (s, .error f)
  | (s, .ok v) =>
    match (if isScaled fmt then s.engineRead t role (scaleOff r i0 i1) 1 else (s, .ok 127)) with
    | (s, .error f) => (s, .error f)
    | (s, .ok sc) =>
      if fmt = lq2 then
        match s.engineRead t role (codebookOff r v) 4 with
        | (s, .error f) => (s, .error f)
        | (s, .ok cw) => (s, .ok (lq2Weight v cw (e % 8), sc))
      else (s, .ok (v / 2 ^ elemShift fmt e % 2 ^ elemBits fmt, sc))

/-- Read a run of elements in order. -/
def State.readElems (s : State) (t role : Nat) (r : Vec) :
    List (Nat × Nat) → State × Except MmFault (List (Nat × Nat))
  | [] => (s, .ok [])
  | (i0, i1) :: rest =>
    match s.readElem t role r i0 i1 with
    | (s, .error f) => (s, .error f)
    | (s, .ok v) =>
      match s.readElems t role r rest with
      | (s, .error f) => (s, .error f)
      | (s, .ok vs) => (s, .ok (v :: vs))

/-! ### Values (R71, R81) -/

/-- A value times a power of two. -/
def Val.scale (v : Val) (k : Int) : Val :=
  match v with
  | .fin n m e st => .fin n m (e + k) st
  | v => v

/-- An element's value before its scale; a scale of 0xFF makes it NaN. -/
def elemVal (fmt code sc : Nat) : Val :=
  if isScaled fmt && sc = 255 then .nan false else decodeFmt (if fmt = lq2 then 4 else fmt) code

/-- An element's value with its scale. -/
def scaledVal (fmt code sc : Nat) : Val := (elemVal fmt code sc).scale ((sc : Int) - 127)

/-- The sum of one group: products exact, NaN for a NaN factor, 0 × ∞, or +∞ with −∞; an exact zero is +0. R81 does not say
whether an invalid product or sum raises invalid: it does here, as in a scalar operation (DESIGN CHOICE, log entry 49). -/
def groupSum (xs : List (Val × Val)) : Exact :=
  let ps := xs.map fun (a, b) => mulExact a b
  let flags := ps.foldl (fun fl p => fl ||| p.flags) 0
  if ps.any fun p => p.val.isNan then ⟨.nan false, flags⟩
  else
    let v := sumExact 0 (ps.map fun p => p.val)
    ⟨if v.val.isZero then .zero false else v.val, flags ||| v.flags⟩

/-- Round(FP32, RNE, 0, a + b) (R81, R216), with its flags. -/
def addFp32 (a b : BitVec 32) : BitVec 32 × Flags :=
  let r := (sumExact 0 [decodeFmt 1 a.toNat, decodeFmt 1 b.toNat]).round 1 0 0
  (BitVec.ofNat 32 r.code, r.flags)

/-- The sum of a − b of two FP32 values. -/
def subFp32 (a b : BitVec 32) : BitVec 32 :=
  BitVec.ofNat 32 ((sumExact 0 [decodeFmt 1 a.toNat, (decodeFmt 1 b.toNat).neg]).round 1 0 0).code

/-- One accumulator element over the groups of a row and a column: each group's factor pairs with the sum of its two scales
(R81). -/
def accumulate (acc : BitVec 32) (groups : List (List (Val × Val) × Nat)) : BitVec 32 × Flags :=
  groups.foldl (fun x g =>
    let p := groupSum g.1
    let v := Machine.round 1 0 false (p.val.scale ((g.2 : Int) - 254)) 0
    let r := addFp32 x.1 (BitVec.ofNat 32 v.code)
    (r.1, x.2 ||| p.flags ||| v.flags ||| r.2)) (acc, 0)

/-! ### Planes (R197, R198, R213) -/

/-- The weight at (k, j) of a plane before its scale; none if absent. -/
def Plane.weight (p : Plane) (k j : Nat) : Option Val :=
  if k < p.kp && j < p.jp then some (elemVal p.wfmt (p.vals.get 0 (32 * k + j)) (p.scales.get 127 (32 * (k / p.g) + j)))
  else none

/-- The block scale of a plane's column j in group g. -/
def Plane.scaleAt (p : Plane) (g j : Nat) : Nat := p.scales.get 127 (32 * g + j)

/-- Entry k of the checksum column (R213): the exact sum of the scaled weights. One whose weights are all absent forms no product,
as an absent weight forms none (R81; DESIGN CHOICE, log entry 81). -/
def Plane.checksum (p : Plane) (k : Nat) : Option Val :=
  let ws := (List.range p.n).filterMap fun j => (p.weight k j).map fun v => v.scale ((p.scaleAt (k / p.g) j : Int) - 127)
  if ws.isEmpty then none else some (sumExact 0 ws).val

/-- A plane with the checksum column of its weights (R213). -/
def Plane.withColumn (p : Plane) : Plane := { p with column := (List.range p.k).map p.checksum }

/-- Is a plane one that mm.loadw could have filled: valid, with formats that pair? An area that mm.rest loads as it stands may
hold another (R203). -/
def Plane.sound (p : Plane) : Bool :=
  p.valid && wFormats.contains p.wfmt && aFormats.contains p.afmt && decide (p.wfmt = 9) == decide (p.afmt = 9)

/-- The elements of a block of W, column by column: plane place and tensor place. -/
def Plane.places (p : Plane) : List ((Nat × Nat) × (Nat × Nat)) :=
  (List.range p.jp).flatMap fun j => (List.range p.kp).map fun k => ((k, j), (p.kb * p.k + k, p.nb * p.n + j))

/-- Is an axis of a record of length 0, as tt.slice can leave it? Any matrix use then faults MMBOUND (R209). -/
def recEmpty (r : Vec) : Bool := [0, 1, 2, 3].any fun a => decide (recD r a = 0)

/-- The record and operand checks of mm.loadw in order, and the empty plane it would fill (R192, R197). -/
def loadwPlane (t kb nb af : Nat) (r : Vec) : Except MmFault Plane :=
  let wf := recFmt r
  let k := pairK wf af
  let n := pairN wf af
  if !recValid r || !wFormats.contains wf then .error (mmFault Code.ttbad 1 t)
  else if !aFormats.contains af then .error (mmFault Code.ttbad 2 t)
  else if decide (wf = 9) != decide (af = 9) then .error (mmFault Code.mmbound 1 af)
  else if recD r 0 ≤ kb * k then .error (mmFault Code.mmbound 1 kb)
  else if recD r 1 ≤ nb * n then .error (mmFault Code.mmbound 1 nb)
  else if recEmpty r then .error (mmFault Code.mmbound 1 0)
  else .ok { valid := true, wfmt := wf, afmt := af, t := t, kb := kb, nb := nb, kp := min k (recD r 0 - kb * k)
             jp := min n (recD r 1 - nb * n), vals := Table.empty, scales := Table.empty, column := [] }

/-- mm.loadw: fill the shadow plane. -/
def State.loadw (s : State) (tile t kb nb af : Nat) (r : Vec) : State × Except MmFault Unit :=
  match loadwPlane t kb nb af r with
  | .error f => (s, .error f)
  | .ok p =>
    let places := p.places
    let els := places.map fun x => x.2
    match s.operandFault tile 1 r els with
    | some f => (s, .error f)
    | none =>
      match s.readElems tile 1 r els with
      | (s, .error f) => (s, .error f)
      | (s, .ok vs) =>
        let p := (places.zip vs).foldl (fun (p : Plane) x =>
          let k := x.1.1.1
          let j := x.1.1.2
          { p with
            vals := p.vals.put (32 * k + j) x.2.1
            scales := if isScaled p.wfmt && k % p.g = 0 then p.scales.put (32 * (k / p.g) + j) x.2.2 else p.scales }) p
        (s.modMm tile fun m => { m with shadow := p.withColumn }, .ok ())

/-- mm.swap. -/
def Mm.swap (m : Mm) : Mm := { m with active := m.shadow, shadow := m.active }

/-! ### Accumulators -/

/-- Accumulator row i. -/
def Mm.row (m : Mm) (i : Nat) : AccRow := m.rows.get AccRow.initial i

/-- Replace row i. -/
def Mm.setRow (m : Mm) (i : Nat) (r : AccRow) : Mm := { m with rows := m.rows.put i r }

/-- Column j of a row. -/
def AccRow.col (r : AccRow) (j : Nat) : BitVec 32 := r.cols[j % 32]'(Nat.mod_lt _ (by omega))

/-- Replace column j. -/
def AccRow.setCol (r : AccRow) (j : Nat) (v : BitVec 32) : AccRow :=
  { r with cols := r.cols.set (j % 32) v (Nat.mod_lt _ (by omega)) }

/-- Set a field of mmwm (R201). -/
def putWm (w : Word) (lo width v : Nat) : Word := toWord (putBitsN w.toNat lo width v)

/-! ### Streams (R81, R199, R214, R215) -/

/-- The operands of a stream. -/
structure StreamOp where
  t : Nat
  row0 : Nat
  kb : Nat
  ar : Nat
  n : Nat
  ov : Bool

/-- One row of A as the engine uses it: for each k below K the value before its scale, and the scale of each group. -/
structure ARow where
  vals : List (Option Val)
  scales : List Nat

/-- The elements of row i of A that a stream reads. -/
def StreamOp.places (x : StreamOp) (p : Plane) (r : Vec) (i : Nat) : List (Nat × Nat) :=
  (List.range (min p.k (recD r 0 - x.kb * p.k))).map fun k => (x.kb * p.k + k, x.row0 + i)

/-- A row of A from what was read. -/
def aRow (p : Plane) (fmt : Nat) (vs : List (Nat × Nat)) : ARow :=
  { vals := (List.range p.k).map fun k => (vs[k]?).map fun v => elemVal fmt v.1 v.2
    scales := (List.range (p.k / p.g)).map fun g => ((vs[p.g * g]?).map fun v => v.2).getD 127 }

/-- The groups of a row of A against a column of factors: the pairs that form products, and the two scales added. -/
def groupsOf (p : Plane) (a : ARow) (w : Nat → Option Val) (ws : Nat → Nat) : List (List (Val × Val) × Nat) :=
  (List.range (p.k / p.g)).map fun g =>
    ((List.range p.g).filterMap fun i =>
      match (a.vals[p.g * g + i]?).bind id, w (p.g * g + i) with
      | some x, some y => some (x, y)
      | _, _ => none, a.scales.getD g 127 + ws g)

/-- Push a row of A through the plane into an accumulator row with its row reference (R81, R214). The flags are those of the
columns; those of the reference raise nothing (DESIGN CHOICE, log entry 74). -/
def pushRow (p : Plane) (ov : Bool) (a : ARow) (r : AccRow) : AccRow × Flags :=
  let x := (List.range p.n).foldl (fun (x : AccRow × Flags) j =>
    let v := accumulate (if ov then 0 else r.col j) (groupsOf p a (fun k => p.weight k j) (fun g => p.scaleAt g j))
    (x.1.setCol j v.1, x.2 ||| v.2)) (r, 0)
  let ref := accumulate (if ov then 0 else r.ref) (groupsOf p a (fun k => p.column.getD k none) (fun _ => 127))
  ({ x.1 with ref := ref.1 }, x.2)

/-- The exact scaled column sums of the rows streamed (R215). A sum of no element forms no product (DESIGN CHOICE, log entry 81). -/
def columnSums (p : Plane) (rows : List ARow) : ARow :=
  { vals := (List.range p.k).map fun k =>
      let vs := rows.filterMap fun r => ((r.vals[k]?).bind id).map fun v => v.scale ((r.scales.getD (k / p.g) 127 : Int) - 127)
      if vs.isEmpty then none else some (sumExact 0 vs).val
    scales := List.replicate (p.k / p.g) 127 }

/-- Q after a push of column sums from a start. Its flags raise nothing (DESIGN CHOICE, log entry 74). -/
def pushQ (p : Plane) (a : ARow) (q : Vector (BitVec 32) 32) : Vector (BitVec 32) 32 :=
  (List.range p.n).foldl (fun (q' : Vector (BitVec 32) 32) j =>
    q'.set (j % 32) (accumulate (q[j % 32]'(Nat.mod_lt _ (by omega)))
      (groupsOf p a (fun k => p.weight k j) (fun g => p.scaleAt g j))).1 (Nat.mod_lt _ (by omega))) q

/-- MMBOUND where R199 leaves einfo to the reader: an operand role, and the value of one of the fields that offend, as a free
value has it (R195; log entry 18). -/
def openFault (free : Word) (fields : List Nat) : MmFault :=
  mmFault Code.mmbound (1 + bits free 63 32 % 5) (fields.getD (bits free 31 0 % fields.length) 0)

/-- The checks of mm.stream in order (R199). -/
def streamFault (m : Mm) (x : StreamOp) (r : Vec) (free : Word) : Option MmFault :=
  let p := m.active
  if !recValid r || !aFormats.contains (recFmt r) then some (mmFault Code.ttbad 2 x.t)
  else if !p.sound || recFmt r ≠ p.afmt then some (openFault free [recFmt r, p.wfmt, p.afmt, if p.valid then 1 else 0])
  else if x.n = 0 || 512 < x.n || 512 < x.ar + x.n then some (mmFault Code.mmbound 4 x.n)
  else if recD r 1 < x.row0 + x.n then some (mmFault Code.mmbound 2 x.row0)
  else if recD r 0 ≤ x.kb * p.k then some (mmFault Code.mmbound 2 x.kb)
  else if recEmpty r then some (mmFault Code.mmbound 2 0)
  else if !x.ov && p.n ≠ m.geom then some (openFault free [p.n, m.geom])
  else none

/-- Stream rows i, i + 1, … of n: each is read, pushed and counted in srow; an UNCORR leaves the rows before it. -/
def State.streamRows (s : State) (tile : Nat) (x : StreamOp) (r : Vec) :
    List Nat → List ARow → Flags → State × Except MmFault (List ARow × Flags)
  | [], rows, fl => (s, .ok (rows.reverse, fl))
  | i :: rest, rows, fl =>
    let p := (s.mm tile).active
    match s.readElems tile 2 r (x.places p r i) with
    | (s, .error f) => (s, .error f)
    | (s, .ok vs) =>
      let a := aRow p (recFmt r) vs
      let v := pushRow p x.ov a ((s.mm tile).row (x.ar + i))
      let s := s.modMm tile fun m => { m.setRow (x.ar + i) v.1 with wm := putWm m.wm 0 10 (i + 1) }
      s.streamRows tile x r rest (a :: rows) (fl ||| v.2)

/-- mm.stream but for the batch: the rows streamed and the flags raised. -/
def State.stream (s : State) (tile : Nat) (x : StreamOp) (r : Vec) : State × Except MmFault (List ARow × Flags) :=
  let m := s.mm tile
  match streamFault m x r s.freeWord with
  | some f => (s.spend, .error f)
  | none =>
    let els := (List.range x.n).flatMap fun i => x.places m.active r i
    match s.operandFault tile 2 r els with
    | some f => (s, .error f)
    | none =>
      let wm := putWm (putWm (putWm m.wm 16 9 x.ar) 0 10 0) 63 1 0
      let s := s.modMm tile fun m => { m with wm := wm, geom := if x.ov then m.active.n else m.geom }
      s.streamRows tile x r (List.range x.n) [] 0

/-! ### Drained rows (R200) -/

/-- The operands of a drain. -/
structure DrainOp where
  t : Nat
  ar : Nat
  n : Nat
  rm : Nat
  sat : Bool
  row0 : Nat
  col0 : Nat

/-- The columns of a drain that lie in C. -/
def DrainOp.cols (x : DrainOp) (geom : Nat) (r : Vec) : Nat := min geom (recD r 0 - x.col0)

/-- The checks of mm.drain before the comparison, in order; a geometry that no stream sets faults too (R203). -/
def State.drainFault (s : State) (tile : Nat) (x : DrainOp) (r : Vec) : Option MmFault :=
  let geom := (s.mm tile).geom
  let fmt := recFmt r
  if !recValid r || !cFormats.contains fmt then some (mmFault Code.ttbad 3 x.t)
  else if x.n = 0 || 512 < x.ar + x.n then some (mmFault Code.mmbound 4 x.n)
  else if recD r 1 < x.row0 + x.n then some (mmFault Code.mmbound 3 x.row0)
  else if recD r 0 ≤ x.col0 then some (mmFault Code.mmbound 3 x.col0)
  else if recEmpty r then some (mmFault Code.mmbound 3 0)
  else if isScaled fmt && x.col0 % 32 ≠ 0 then some (mmFault Code.mmbound 3 x.col0)
  else if (isScaled fmt || geom ≠ 16) && geom ≠ 32 then some (mmFault Code.mmbound 4 geom)
  else s.rangeFault tile 3 r ((List.range x.n).flatMap fun i => (List.range (x.cols geom r)).map fun j =>
    (x.col0 + j, x.row0 + i))

/-- The block scale of one drained row of a scaled C: the columns of the row that lie in C form its one block (DEDUCED, log
entry 24). -/
def drainScale (fmt : Nat) (row : AccRow) (n : Nat) : Nat :=
  let vs := (List.range n).map fun j => decodeFmt 1 (row.col j).toNat
  let finite := vs.all fun v => match v with
    | .fin _ _ _ _ => true
    | _ => false
  let abs := vs.map fun v => if v.sign then v.neg else v
  let amax := abs.foldl (fun best v => if compareVal false best v < 0 then v else best) (.zero false)
  if !finite || amax.isZero then 127
  else match floatFmt fmt with
    | some f => (roundScale 3 true (divExact amax (decodeFloat f (maxCode f))).val 0).code
    | none => 127

/-- The context whose generator a column draws from: facet j / 8, or j / 4 with N = 16 (R74, R192). -/
def drainAgent (t : Fin 900) (geom j : Nat) : Agent := .facet t ⟨j / (geom / 4) % 4, Nat.mod_lt _ (by omega)⟩ 0

/-- Write one drained element: its code through the record's swizzle with its stamp, an E2M1 element into its half. -/
def State.writeDrained (s : State) (t : Nat) (r : Vec) (i0 i1 code : Nat) : State :=
  let fmt := recFmt r
  let off := elemOff r i0 i1
  let n := elemBytes fmt
  let v := if fmt = e2m1 then putBitsN (s.mem.read (lmLoc t off) 1) (elemShift fmt (recElem r i0 i1)) 4 code else code
  { s with mem := s.mem.write (lmLoc t off) n v }.modTile t fun tl => tl.setStamps off n (stampOf (recSwz r))

/-- Convert and write one row. -/
def State.drainRow (s : State) (t : Fin 900) (x : DrainOp) (r : Vec) (i : Nat) : State × Flags :=
  let m := s.mm t.val
  let row := m.row (x.ar + i)
  let fmt := recFmt r
  let cols := x.cols m.geom r
  let e := if isScaled fmt then drainScale fmt row cols else 127
  let s := if isScaled fmt then
      { s with mem := s.mem.write (lmLoc t.val (scaleOff r x.col0 (x.row0 + i))) 1 e }
    else s
  (List.range cols).foldl (fun (s, fl) j =>
    let a := drainAgent t m.geom j
    let cut := Machine.round fmt x.rm x.sat ((decodeFmt 1 (row.col j).toNat).scale (127 - (e : Int)))
    let v := cut (s.ctx a).srgen
    let s := if x.rm = 5 then s.modCtx a fun c => c.drawBeside fun g => (cut g).gen else s
    (s.writeDrained t.val r (x.col0 + j) (x.row0 + i) v.code, fl ||| v.flags)) (s, 0)

/-- The write phase: every row, and then drow. -/
def State.drainRows (s : State) (t : Fin 900) (x : DrainOp) (r : Vec) : State × Flags :=
  (List.range x.n).foldl (fun (s, fl) i =>
    let v := s.drainRow t x r i
    (v.1.modMm t.val fun m => { m with wm := putWm m.wm 32 10 (i + 1) }, fl ||| v.2)) (s, 0)

end Sys2Proof.Machine
end

