-- ==== Sys2Proof/Machine/Checks.lean ====
section
/-! DEFINITION. The bezel's own work: batches and the retry record, the drain check with its record and its counts, fixing,
replaying and injecting (R215 to R226). -/

namespace Sys2Proof.Machine

/-! ### The batch and the retry record (R215, R223) -/

/-- A change of the retry record other than a replay's own abandons a retry in progress (R223). -/
def Retry.abandon (r : Retry) : Retry := if r.going then { r with going := false, progress := 0 } else r

/-- mm.zero starts a batch; a replay leaves the record as it stands. -/
def Bezel.zeroed (b : Bezel) (r0 n : Nat) (replay : Bool) : Bezel :=
  { b with
    batch := some (r0, n), q := Vector.replicate 32 0, colCheck := true
    retry := if replay then b.retry else { Retry.initial with base := .zero } }

/-- mm.zero: rows and lanes cleared, mmwm.V cleared (R198). -/
def State.zeroRows (s : State) (tile r0 n : Nat) (replay : Bool) : State × Except MmFault Unit :=
  if n = 0 || 512 < r0 + n then (s, .error (mmFault Code.mmbound 4 n))
  else
    (s.modMm tile fun m =>
      let m := (List.range n).foldl (fun (m : Mm) i => m.setRow (r0 + i) AccRow.initial) m
      { m with wm := putWm m.wm 63 1 0, bz := m.bz.zeroed r0 n replay }, .ok ())

/-- Does the step of an mm.seq extend the last item: a run of the same tensors, n-block and row, ending at its k-block? -/
def RetryItem.extends (last x : RetryItem) : Bool :=
  last.run && x.run && last.wt = x.wt && last.at_ = x.at_ && last.af = x.af && last.nb = x.nb && last.row0 = x.row0 &&
    last.kb + last.count = x.kb && last.akb + last.count = x.akb

/-- Append an accumulating stream of the batch range to a record that is neither broken nor overflowed; `first` is false for a
later k-step of an mm.seq's run (R215). The k-steps behind an overwriting first one, which is the base, make one run with it and take
none of the eight entries; R215 does not say whether they do (DESIGN CHOICE, log entry 85). -/
def Retry.append (r : Retry) (x : RetryItem) (first : Bool) : Retry :=
  let r := r.abandon
  let grow : RetryItem → RetryItem := fun y => { y with count := y.count + 1 }
  let joins : Bool := match r.items.getLast?, r.base with
    | some y, _ => y.extends x
    | none, .stream y => y.extends x
    | none, _ => false
  if joins && !first then
    match r.items.getLast?, r.base with
    | some y, _ => { r with items := r.items.dropLast ++ [grow y] }
    | none, .stream y => { r with base := .stream (grow y) }
    | none, _ => r
  else if 8 ≤ r.items.length then { r with overflowed := true }
  else { r with items := r.items ++ [x] }

/-- A stream has ended: the batch range, Q and the retry record (R215). -/
def Bezel.streamed (b : Bezel) (p : Plane) (x : StreamOp) (rows : List ARow) (item : RetryItem) (first replay : Bool) :
    Bezel :=
  let sums := columnSums p rows
  if x.ov then
    { b with
      batch := some (x.ar, x.n), colCheck := true, q := pushQ p sums (Vector.replicate 32 0)
      retry := if replay then b.retry else { Retry.initial with base := .stream item } }
  else if b.batch = some (x.ar, x.n) then
    { b with
      q := if b.colCheck then pushQ p sums b.q else b.q
      retry := if replay || b.retry.broken || b.retry.overflowed then b.retry else b.retry.append item first }
  else
    { b with
      colCheck := false
      retry := if replay || b.retry.broken then b.retry else { b.retry.abandon with broken := true } }

/-- A stream with its batch: what mm.stream, mm.seq and bz.retry run. `run` marks a k-step of an mm.seq, `first` its first. R215 speaks
of the end of a stream; one that an UNCORR stops midway leaves batch range, Q and retry record as they were (DESIGN CHOICE, log entry
85). -/
def State.streamBatch (s : State) (tile : Nat) (x : StreamOp) (r : Vec) (run first replay : Bool) :
    State × Except MmFault Flags :=
  match s.stream tile x r with
  | (s, .error f) => (s, .error f)
  | (s, .ok (rows, fl)) =>
    let p := (s.mm tile).active
    let item : RetryItem := { wt := p.t, at_ := x.t, af := p.afmt, kb := p.kb, nb := p.nb, row0 := x.row0, akb := x.kb
                              count := 1, run := run }
    (s.modBz tile fun b => b.streamed p x rows item first replay, .ok fl)

/-! ### The check (R216 to R219) -/

/-- The magnitude of an FP32 pattern. -/
def absFp32 (x : BitVec 32) : BitVec 32 := x &&& 0x7FFF_FFFF

/-- The bound |abs| + |rel| × m of a tolerance register and a finite m; none for a NaN in it, an infinity for an infinite one
(R216). R216 has a NaN in rel make every finite row fail, and the term be 0 where m = +0 whatever rel holds; with both the row fails
(DESIGN CHOICE, log entry 85). -/
def boundOf (tol : Word) (m : Val) : Val :=
  let a := decodeFmt 1 (absFp32 (tol.extractLsb' 32 32)).toNat
  let r := decodeFmt 1 (absFp32 (tol.setWidth 32)).toNat
  if a.isNan || r.isNan then .nan false
  else if m.isZero then a
  else (sumExact 0 [a, (mulExact r m).val]).val

/-- |x − y| of two finite values. -/
def distance (x y : Val) : Val :=
  let v := (sumExact 0 [x, y.neg]).val
  if v.sign then v.neg else v

/-- Is a value finite? -/
def Val.isFinite : Val → Bool
  | .fin _ _ _ _ => true
  | _ => false

/-- Agree(s, r, m) under a tolerance register. -/
def agree (tol : Word) (s r m : BitVec 32) : Bool :=
  let s := decodeFmt 1 s.toNat
  let r := decodeFmt 1 r.toNat
  let m := decodeFmt 1 m.toNat
  if s.isNan || r.isNan then s.isNan && r.isNan
  else if !m.isFinite then true
  else if !s.isFinite || !r.isFinite then s = r
  else
    let b := boundOf tol m
    !b.isNan && compareVal false (distance s r) b ≤ 0

/-- The two sums over a list of accumulator elements: S and M. Their flags raise nothing (DESIGN CHOICE, log entry 74). -/
def sumsOf (xs : List (BitVec 32)) : BitVec 32 × BitVec 32 :=
  xs.foldl (fun (x : BitVec 32 × BitVec 32) c => ((addFp32 x.1 c).1, (addFp32 x.2 (absFp32 c)).1)) (0, 0)

/-- One failing row or column: its number, its delta R − S rounded to FP32, and M. -/
structure Failing where
  at_ : Nat
  delta : BitVec 32
  m : BitVec 32

/-- The comparison of one row or column. -/
def compareSum (tol : Word) (i : Nat) (ref : BitVec 32) (xs : List (BitVec 32)) : Option Failing :=
  let x := sumsOf xs
  if agree tol x.1 ref x.2 then none else some ⟨i, subFp32 ref x.1, x.2⟩

/-- The failing rows of a drained range. -/
def Mm.failingRows (m : Mm) (tol : Word) (ar n : Nat) : List Failing :=
  (List.range n).filterMap fun i =>
    let r := m.row (ar + i)
    compareSum tol (ar + i) r.ref ((List.range m.geom).map r.col)

/-- The failing columns. -/
def Mm.failingCols (m : Mm) (tol : Word) (ar n : Nat) : List Failing :=
  (List.range m.geom).filterMap fun j =>
    compareSum tol j (m.bz.q[j % 32]'(Nat.mod_lt _ (by omega))) ((List.range n).map fun i => (m.row (ar + i)).col j)

/-- The tolerance register of a weight format (R217). -/
def tolIndex (wfmt : Nat) : Nat :=
  match wfmt with
  | 1 => 0 | 3 => 1 | 2 => 2 | 4 => 3 | 9 => 3 | 5 => 4 | 6 => 5 | _ => 6

/-- The bezel record after a failed check (R219). Where no row fails, first, last and rd have no value in the spec, and cd has none
where no column does: they are free values, taken from two words (log entry 18). -/
def Bezel.failed (b : Bezel) (tol : Word) (cu : Bool) (rows cols : List Failing) (free free' : Word) : Bezel :=
  let first := (rows.head?.map fun x => x.at_).getD (bits free 8 0)
  let last := (rows.getLast?.map fun x => x.at_).getD (bits free 40 32)
  let delta := fun (l : List Failing) (v : BitVec 32) => (l.head?.map fun x => x.delta).getD v
  let m := fun (l : List Failing) => (l.head?.map fun x => x.m).getD 0
  { b with
    row := toWord (2 ^ 63 + (if cu then 2 ^ 62 else 0) + rows.length * 2 ^ 52 + last * 2 ^ 32 + first)
    col := toWord (cols.length * 2 ^ 32 + (cols.map fun x => 2 ^ x.at_).sum)
    delta := delta cols (free'.extractLsb' 32 32) ++ delta rows (free'.setWidth 32)
    boundTol := tol, boundRow := m rows, boundCol := m cols }

/-- The slices that a failed check is charged to (R226). -/
def slicesOf (geom : Nat) (cols : List Failing) : List Nat :=
  if cols.isEmpty then [0, 1, 2, 3] else [0, 1, 2, 3].filter fun f => cols.any fun x => x.at_ / (geom / 4) = f

/-- Charge one event to one slice; at the threshold the tile is declared lasting. -/
def State.chargeSlice (s : State) (tile f : Nat) : State :=
  let t := s.tile tile
  let r := countEvent s.now (windowCycles t.bzwin) (bits t.bzwin 39 32) (t.sliceEvents[f % 4]'(Nat.mod_lt _ (by omega)))
  let s := s.modTile tile fun t => { t with sliceEvents := t.sliceEvents.set (f % 4) r.1 (Nat.mod_lt _ (by omega)) }
  if r.2 then s.declareLasting tile 0 else s

/-- The bezel comparison of a drain: the state with its record, and whether it passed. Which tolerance an invalid active plane
chooses is not given: a free value (log entry 18). -/
def State.bezelCheck (s : State) (tile ar n : Nat) : State × Bool :=
  let m := s.mm tile
  let i := if m.active.valid then tolIndex m.active.wfmt else s.freeWord.toNat
  let s := if m.active.valid then s else s.spend
  let tol := m.bz.tol i
  let cu := !(m.bz.colCheck && m.bz.batch = some (ar, n))
  let rows := m.failingRows tol ar n
  let cols := if cu then [] else m.failingCols tol ar n
  if rows.isEmpty && cols.isEmpty then
    (s.modBz tile fun b => { b with row := b.row &&& ~~~0x8000_0000_0000_0000 }, true)
  else
    let s := s.spend.spend.modBz tile fun b => b.failed tol cu rows cols s.freeWord s.spend.freeWord
    let s := s.modTile tile fun t => { t with events := t.events + 1 }
    ((slicesOf m.geom cols).foldl (fun s f => s.chargeSlice tile f) s, false)

/-! ### Recovery (R221 to R225) -/

/-- The word of bz.locate (R221). -/
def Bezel.located (b : Bezel) : Word :=
  if bit b.row 63 && !bit b.row 62 && bits b.row 61 52 = 1 && bits b.col 37 32 = 1 then
    toWord (ctzN 32 (bits b.col 31 0) * 2 ^ 48 + bits b.row 8 0 * 2 ^ 32 + bits b.delta 31 0)
  else allOnes

/-- The sum of the two hidden bounds (R219, R222). -/
def Bezel.bounds (b : Bezel) : Val :=
  let x := boundOf b.boundTol (decodeFmt 1 b.boundRow.toNat)
  let y := boundOf b.boundTol (decodeFmt 1 b.boundCol.toNat)
  (sumExact 0 [x, y]).val

/-- bz.fix: the status, and the engine after it (R222). The flags of its additions raise nothing (DESIGN CHOICE, log entry 74). Of a
bound that is NaN, as a NaN tolerance at the failing check leaves it, R222 does not say how the deltas compare with it; they count as
too far apart (DESIGN CHOICE, log entry 85). -/
def Mm.fix (m : Mm) (l : Word) : Mm × Word :=
  let b := m.bz
  let rd := b.delta.setWidth 32
  let x := decodeFmt 1 rd.toNat
  let y := decodeFmt 1 (bits b.delta 63 32)
  if b.retry.going || b.located = allOnes then (m, 1)
  else if l ≠ b.located then (m, 3)
  else if !x.isFinite || !y.isFinite || b.bounds.isNan || 0 < compareVal false (distance x y) b.bounds then (m, 2)
  else
    let i := bits b.row 8 0
    let j := ctzN 32 (bits b.col 31 0)
    let r := m.row i
    let m := m.setRow i (r.setCol j (addFp32 (r.col j) rd).1)
    ({ m with bz := { b with row := b.row &&& ~~~0x8000_0000_0000_0000, fixes := b.fixes + 1 } }, 0)

/-- The steps of a retry record: the base's first, an item and the k-block within it, and whether the step overwrites. -/
def Retry.steps (r : Retry) : List (Option RetryItem × Nat × Bool) :=
  let of := fun (x : RetryItem) (base : Bool) => (List.range x.count).map fun c => (some x, c, base && c = 0)
  (match r.base with
   | .empty => []
   | .zero => [(none, 0, false)]
   | .stream x => of x true) ++ r.items.flatMap fun x => of x false

/-- Can the record be replayed (R223)? -/
def Retry.playable (r : Retry) : Bool := r.base ≠ .empty && !r.broken && !r.overflowed

/-- Run one step of bz.retry: its mm.loadw from the tensor table, mm.swap and mm.stream, or the mm.zero of the base. -/
def State.retryStep (s : State) (tile : Nat) (step : Option RetryItem × Nat × Bool) : State × Except MmFault Flags :=
  let range := (s.mm tile).bz.batch.getD (0, 0)
  match step.1 with
  | none =>
    match s.zeroRows tile range.1 range.2 true with
    | (s, .error f) => (s, .error f)
    | (s, .ok ()) => (s, .ok 0)
  | some x =>
    match s.loadw tile x.wt ((x.kb + step.2.1) % 2 ^ 32) x.nb x.af ((s.tile tile).tensor x.wt) with
    | (s, .error f) => (s, .error f)
    | (s, .ok ()) =>
      let s := s.modMm tile Mm.swap
      let op : StreamOp := ⟨x.at_, x.row0, (x.akb + step.2.1) % 2 ^ 32, range.1, range.2, step.2.2⟩
      s.streamBatch tile op ((s.tile tile).tensor x.at_) false false true

/-- bz.clear (R225). -/
def State.bzClear (s : State) (tile : Nat) (x : Word) : State :=
  let s := if bit x 0 then s.modBz tile fun b =>
      { b with row := 0, col := 0, delta := 0, boundTol := 0, boundRow := 0, boundCol := 0 } else s
  let s := if bit x 1 then s.modBz tile fun b => { b with retry := { Retry.initial with broken := true } } else s
  if bit x 2 then s.modTile tile fun t => { t with sliceEvents := Vector.replicate 4 [], bankEvents := Table.empty } else s

/-- bz.inject (R224). The flags of its addition raise nothing (DESIGN CHOICE, log entry 74). -/
def Mm.inject (m : Mm) (x v : Word) : Mm :=
  let i := bits x 8 0
  let j := bits x 20 16
  let v := v.setWidth 32
  let count := fun (m : Mm) (changed : Bool) =>
    if changed then { m with bz := { m.bz with injects := m.bz.injects + 1 } } else m
  let r := m.row i
  match bits x 31 30 with
  | 0 => let y := (addFp32 (r.col j) v).1; count (m.setRow i (r.setCol j y)) (y ≠ r.col j)
  | 1 => let y := (addFp32 r.ref v).1; count (m.setRow i { r with ref := y }) (y ≠ r.ref)
  | 2 =>
    let old := m.bz.q[j % 32]'(Nat.mod_lt _ (by omega))
    let y := (addFp32 old v).1
    let m := { m with bz := { m.bz with q := m.bz.q.set (j % 32) y (Nat.mod_lt _ (by omega)) } }
    count m (y ≠ old)
  | _ => m

/-- The counter of bz.stat (R225). -/
def State.bzStat (s : State) (tile sel : Nat) : Nat :=
  let t := s.tile tile
  let b := (s.mm tile).bz
  match sel with
  | 4 => t.events
  | 5 => b.fixes
  | 6 => b.retries
  | 7 => b.injects
  | f => ((t.sliceEvents[f % 4]'(Nat.mod_lt _ (by omega))).filter fun c => s.now < c + windowCycles t.bzwin).length

end Sys2Proof.Machine
end

