-- ==== Sys2Proof/Machine/MatrixArea.lean ====
section
/-! DEFINITION. The matrix save area: the map of R204 and, inside its pieces, the layout that the spec leaves open (DESIGN
CHOICE, log entry 14). -/

namespace Sys2Proof.Machine

/-- The save area's offset in local memory (R204). -/
def matrixArea : Nat := 0x3E_5000

/-- The bytes that hold the code of an element of a plane: an LQ2 weight as an E4M3 code. -/
def planeWidth (wfmt : Nat) : Nat :=
  match wfmt with
  | 1 => 4
  | 2 => 2
  | 3 => 2
  | _ => 1

/-! ### Writing -/

/-- A checksum entry (R213) as 40 bytes: a kind with the sign in bit 0 and what was cut off in bit 1, the exponent plus 2^15, and
37 bytes of magnitude, which hold the exact sum of 32 elements of any format. -/
def savedEntry (x : Option Val) : List (Nat × Nat × Nat) :=
  match x with
  | none => [(0, 1, 0), (1, 2, 0), (3, 37, 0)]
  | some (.nan q) => [(0, 1, if q then 5 else 4), (1, 2, 0), (3, 37, 0)]
  | some (.inf n) => [(0, 1, if n then 9 else 8), (1, 2, 0), (3, 37, 0)]
  | some (.fin n m e st) =>
    [(0, 1, 12 + (if n then 1 else 0) + (if st then 2 else 0)), (1, 2, ((e + 2 ^ 15) % 2 ^ 16).toNat), (3, 37, m)]

/-- Does the checksum column lie in the plane's piece: for pair classes 1 to 3? With the 128 entries of class 0 it does not fit. -/
def Plane.keepsColumn (p : Plane) : Bool := decide (p.k ≤ 64)

/-- A plane's values, checksum column and scales, as (offset, bytes, value), from the start of its piece. -/
def Plane.saved (p : Plane) : List (Nat × Nat × Nat) :=
  let w := planeWidth p.wfmt
  ((List.range (min p.kp p.k)).flatMap fun k => (List.range (min p.jp p.n)).map fun j =>
    (w * (k * p.n + j), w, p.vals.get 0 (32 * k + j))) ++
  ((List.range (p.k / p.g)).flatMap fun g => (List.range (min p.jp p.n)).map fun j =>
    (4992 + g * p.n + j, 1, p.scales.get 127 (32 * g + j))) ++
  (if p.keepsColumn then (List.range p.k).flatMap fun k =>
      (savedEntry (p.column.getD k none)).map fun (off, n, v) => (2048 + 40 * k + off, n, v)
    else [])

/-- A plane's header: 32 bytes. -/
def Plane.header (p : Plane) : List (Nat × Nat × Nat) :=
  [(0, 1, if p.valid then 1 else 0), (1, 1, p.wfmt), (2, 1, p.afmt), (3, 1, p.t), (4, 4, p.kb), (8, 4, p.nb),
   (12, 2, p.kp), (14, 2, p.jp)]

/-- Move a list of fields. -/
def shiftFields (base : Nat) (xs : List (Nat × Nat × Nat)) : List (Nat × Nat × Nat) :=
  xs.map fun (off, n, v) => (base + off, n, v)

/-- An item of the retry record: 21 bytes. -/
def RetryItem.saved (x : RetryItem) : List (Nat × Nat × Nat) :=
  [(0, 1, x.wt), (1, 1, x.at_), (2, 1, x.af % 128 + (if x.run then 128 else 0)), (3, 4, x.kb), (7, 4, x.nb),
   (11, 4, x.row0), (15, 4, x.akb), (19, 2, x.count)]

/-- The retry record: kind of base, items, state, progress; the base's stream and the items. -/
def Retry.saved (r : Retry) : List (Nat × Nat × Nat) :=
  let kind := match r.base with
    | .empty => 0
    | .zero => 1
    | .stream _ => 2
  let base := match r.base with
    | .stream x => x.saved
    | _ => []
  [(0, 1, kind), (1, 1, r.items.length),
   (2, 1, (if r.broken then 1 else 0) + (if r.overflowed then 2 else 0) + (if r.going then 4 else 0)), (4, 4, r.progress)] ++
    shiftFields 8 base ++ (r.items.zipIdx.flatMap fun (x, i) => shiftFields (29 + 21 * i) x.saved)

/-- The bezel state but for bzsite and the tolerances. -/
def Bezel.saved (b : Bezel) : List (Nat × Nat × Nat) :=
  let batch := b.batch.getD (0, 0)
  [(0x3858, 8, b.fixes), (0x3860, 8, b.retries), (0x3868, 8, b.injects)] ++
    (b.q.toList.zipIdx.map fun (v, i) => (0x3880 + 4 * i, 4, v.toNat)) ++
    [(0x3900, 8, b.row.toNat), (0x3908, 8, b.col.toNat), (0x3910, 8, b.delta.toNat), (0x3918, 8, b.boundTol.toNat),
     (0x3920, 4, b.boundRow.toNat), (0x3924, 4, b.boundCol.toNat), (0x3928, 1, if b.batch.isSome then 1 else 0),
     (0x392A, 2, batch.1), (0x392C, 2, batch.2), (0x392E, 1, if b.colCheck then 1 else 0)] ++
    shiftFields 0x3930 b.retry.saved

/-- A late fault recorded by mm.save: 16 bytes. -/
def savedFault (x : Nat × LateFault) : List (Nat × Nat × Nat) :=
  [(0, 1, x.2.code.toNat), (1, 1, x.1), (2, 1, 1 + (if x.2.ring.isSome then 2 else 0)), (4, 2, (x.2.ring.getD 0).toNat),
   (8, 8, x.2.info.toNat)]

/-- One accumulator row with its bezel lane. -/
def savedRow (r : AccRow) (i : Nat) : List (Nat × Nat × Nat) :=
  (r.cols.toList.zipIdx.map fun (v, j) => (128 * i + 4 * j, 4, v.toNat)) ++ [(0x1_0000 + 8 * i, 8, r.ref.toNat)]

/-- Every field of the matrix state at its place in the save area (R187, R204). -/
def Mm.saved (m : Mm) : List (Nat × Nat × Nat) :=
  ((List.range 512).flatMap fun i => savedRow (m.row i) i) ++ shiftFields 0x1_1000 m.active.saved ++
    shiftFields 0x1_2400 m.shadow.saved ++ shiftFields 0x1_3800 m.active.header ++ shiftFields 0x1_3820 m.shadow.header ++
    [(0x1_3840, 1, m.geom), (0x1_3848, 8, m.wm.toNat), (0x1_3850, 8, m.seqpos.toNat),
     (0x1_3870, 8, (m.resume.map (· + 1)).getD 0)] ++ shiftFields 0x1_0000 m.bz.saved ++
    ((List.range 16).map fun i => (0x1_3A02 + 16 * i, 1, 0)) ++
    ((m.savedLate.take 16).zipIdx.flatMap fun (x, i) => shiftFields (0x1_3A00 + 16 * i) (savedFault x)) ++
    ((m.bz.site :: m.bz.tols.toList).zipIdx.map fun (v, i) => (0x1_3B00 + 8 * i, 8, v.toNat))

/-- Write the save area of a tile; the late faults recorded are then in it (R203). -/
def State.saveMatrix (s : State) (t : Nat) : State :=
  let s := { s with mem := (s.mm t).saved.foldl (fun mem (off, n, v) =>
    mem.write (lmLoc t (matrixArea + off)) n (v % 2 ^ (8 * n))) s.mem }
  s.modMm t fun m => { m with savedLate := [] }

/-! ### Reading -/

/-- n bytes of the save area. -/
def State.areaAt (s : State) (t off n : Nat) : Nat := s.mem.read (lmLoc t (matrixArea + off)) n

/-- A checksum entry from its 40 bytes. -/
def entryOf (kind e m : Nat) : Option Val :=
  match kind / 4 % 4 with
  | 0 => none
  | 1 => some (.nan (kind % 2 = 1))
  | 2 => some (.inf (kind % 2 = 1))
  | _ => some (.fin (kind % 2 = 1) m ((e : Int) - 2 ^ 15) (kind / 2 % 2 = 1))

/-- A plane from its header and its piece, its checksum column with it. That of pair class 0, held exactly (R213), does not fit
beside the values in 5 KiB and is formed again from them (DESIGN CHOICE, log entry 14). -/
def State.savedPlane (s : State) (t head piece : Nat) : Plane :=
  let at_ := fun off n => s.areaAt t (head + off) n
  let p : Plane := { valid := at_ 0 1 % 2 = 1, wfmt := at_ 1 1, afmt := at_ 2 1, t := at_ 3 1, kb := at_ 4 4, nb := at_ 8 4
                     kp := at_ 12 2, jp := at_ 14 2, vals := Table.empty, scales := Table.empty, column := [] }
  let w := planeWidth p.wfmt
  let ks := List.range (min p.kp p.k)
  let js := List.range (min p.jp p.n)
  let p := { p with
    vals := (js.flatMap fun j => ks.map fun k => (k, j)).foldl (fun v (k, j) =>
      v.put (32 * k + j) (s.areaAt t (piece + w * (k * p.n + j)) w)) Table.empty
    scales := if isScaled p.wfmt then
        (js.flatMap fun j => (ks.filter fun k => k % p.g = 0).map fun k => (k / p.g, j)).foldl (fun v (g, j) =>
          v.put (32 * g + j) (s.areaAt t (piece + 4992 + g * p.n + j) 1)) Table.empty
      else Table.empty }
  if p.keepsColumn then
    { p with column := (List.range p.k).map fun k =>
        let at_ := fun off n => s.areaAt t (piece + 2048 + 40 * k + off) n
        entryOf (at_ 0 1) (at_ 1 2) (at_ 3 37) }
  else p.withColumn

/-- An item of the retry record. -/
def State.savedItem (s : State) (t off : Nat) : RetryItem :=
  let at_ := fun o n => s.areaAt t (off + o) n
  { wt := at_ 0 1, at_ := at_ 1 1, af := at_ 2 1 % 128, kb := at_ 3 4, nb := at_ 7 4, row0 := at_ 11 4, akb := at_ 15 4
    count := at_ 19 2, run := 128 ≤ at_ 2 1 }

/-- The retry record. -/
def State.savedRetry (s : State) (t : Nat) : Retry :=
  let at_ := fun o n => s.areaAt t (0x1_3930 + o) n
  { base := if at_ 0 1 = 0 then .empty else if at_ 0 1 = 1 then .zero else .stream (s.savedItem t 0x1_3938)
    items := (List.range (min 8 (at_ 1 1))).map fun i => s.savedItem t (0x1_3930 + 29 + 21 * i)
    broken := at_ 2 1 % 2 = 1, overflowed := at_ 2 1 / 2 % 2 = 1, progress := at_ 4 4, going := at_ 2 1 / 4 % 2 = 1 }

/-- The bezel state; a reserved bit of a register has no storage. -/
def State.savedBezel (s : State) (t : Nat) : Bezel :=
  let at_ := fun off n => s.areaAt t (0x1_0000 + off) n
  let w := fun off => toWord (at_ off 8)
  let d := fun off => BitVec.ofNat 32 (at_ off 4)
  { site := w 0x3B00 &&& 3, row := w 0x3900 &&& 0xFFF0_01FF_0000_01FF, col := w 0x3908 &&& 0x3F_FFFF_FFFF, delta := w 0x3910
    boundTol := w 0x3918, boundRow := d 0x3920
    boundCol := d 0x3924, tols := Vector.ofFn fun i => w (0x3B08 + 8 * i.val)
    batch := if at_ 0x3928 1 % 2 = 1 then some (at_ 0x392A 2, at_ 0x392C 2) else none
    q := Vector.ofFn fun i => d (0x3880 + 4 * i.val), colCheck := at_ 0x392E 1 % 2 = 1, retry := s.savedRetry t
    fixes := at_ 0x3858 8, retries := at_ 0x3860 8, injects := at_ 0x3868 8 }

/-- The late faults in the area. -/
def State.savedFaults (s : State) (t : Nat) : List (Nat × LateFault) :=
  (List.range 16).filterMap fun i =>
    let at_ := fun o n => s.areaAt t (0x1_3A00 + 16 * i + o) n
    if at_ 2 1 % 2 = 1 then
      some (at_ 1 1 % 4, ⟨BitVec.ofNat 8 (at_ 0 1), toWord (at_ 8 8), if at_ 2 1 / 2 % 2 = 1 then some (BitVec.ofNat 16 (at_ 4 2))
        else none, none, true⟩)
    else none

/-- One accumulator row. -/
def State.savedRow (s : State) (t i : Nat) : AccRow :=
  { cols := Vector.ofFn fun j => BitVec.ofNat 32 (s.areaAt t (128 * i + 4 * j.val) 4)
    ref := BitVec.ofNat 32 (s.areaAt t (0x1_0000 + 8 * i) 4) }

/-- Load the matrix state of R187, less tensor table and stamps, with the late faults recorded (R203). -/
def State.loadMatrix (s : State) (t : Nat) : State :=
  s.modMm t fun m =>
    { m with
      active := s.savedPlane t 0x1_3800 0x1_1000, shadow := s.savedPlane t 0x1_3820 0x1_2400
      rows := (List.range 512).foldl (fun rows i =>
        let r := s.savedRow t i
        if r = AccRow.initial then rows else rows.put i r) Table.empty
      geom := s.areaAt t 0x1_3840 1, wm := toWord (s.areaAt t 0x1_3848 8) &&& 0x81FF_03FF_01FF_03FF
      seqpos := toWord (s.areaAt t 0x1_3850 8) &&& 0x8000_0000_FFFF_FFFF
      bz := s.savedBezel t, savedLate := m.savedLate ++ s.savedFaults t
      resume := if s.areaAt t 0x1_3870 8 = 0 then none else some (s.areaAt t 0x1_3870 8 - 1) }

end Sys2Proof.Machine
end

