-- ==== Sys2Proof/Machine/Preempt.lean ====
section
/-! DEFINITION. Save records and pre-emption (R54, R101, R139, R180, R181, R183, R184, R396). -/

namespace Sys2Proof.Machine

/-! ### The save record (R181, R396) -/

/-- The park reason code of R396. -/
def Park.code : Park → Nat
  | .mailbox => 1
  | .queue => 2
  | .semaphore _ => 3
  | .mutex _ => 4
  | .barrier _ _ => 5
  | .arrive _ => 5
  | .fence _ => 6
  | .bead _ => 7
  | .beads => 7
  | .translation _ _ _ _ => 8
  | .resolved _ _ => 8
  | .wfi => 9
  | .clasp => 10
  | .matrix _ => 10
  | .matrixWait _ => 10
  | .row _ => 10
  | .task => 11
  | .cairn => 12
  | .copyFull _ => 13
  | .order => 14
  | .quiesce => 14
  | .tsync _ => 14

/-- The state code and park reason of R396, bits 3:0 and 11:8 of word 0xA20. A context between instructions is ready. -/
def Run.code : Run → Nat
  | .notLive => 0
  | .ready => 1
  | .busy _ => 2
  | .ringBusy => 2
  | .parked why => 3 + why.code * 256
  | .blocked => 1
  | .saved => 5
  | .halted => 6

/-- A fence token in a save record (R54, R181). The layout is not given: bit 0 that it waits for copy requests, bit 1 for matrix
entries, above them 1 more than the number of the last of those; 0 if it waits for none (DESIGN CHOICE, log entry 15). -/
def State.tokenWord (s : State) (a : Agent) (tok : Token) : Word :=
  let cp := tok.ids.filter (s.openCopies a).contains
  let mm := tok.ids.filter (s.heldEntries a).contains
  if cp.isEmpty && mm.isEmpty then 0
  else toWord (4 * ((cp ++ mm).foldl max 0 + 1) + (if cp.isEmpty then 0 else 1) + (if mm.isEmpty then 0 else 2))

/-- A token from a save record: the entries it still waits for, resumed from the saved engine state (R54). Numbers rise with the
pushes, so those up to the last recorded one are the recorded ones. -/
def State.tokenOf (s : State) (a : Agent) (w : Word) : Token :=
  let upTo := fun (ids : List Nat) => ids.filter fun i => decide (4 * (i + 1) ≤ w.toNat)
  ⟨(if bit w 0 then upTo (s.openCopies a) else []) ++ if bit w 1 then upTo (s.heldEntries a) else []⟩

/-- The special registers of a save record, in its order, at 0x980 (R181); the first is the resume address. -/
def recordRegs (c : Ctx) : List Word :=
  [c.pc, c.ecause, c.einfo, c.estat, c.uvec, c.fflags.setWidth 64, c.frm.setWidth 64, c.srgen, c.spc.setWidth 64, c.cwin,
   c.repidx.setWidth 64, c.cringSel.setWidth 64, c.tvec]

/-- Doublewords as bytes. -/
def wordBytes (ws : List Word) : List Byte := ws.flatMap fun w => toBytes 8 w.toNat

/-- The bytes 0x000 to 0xA27 of a context's save record (R181); `run` is its state at the save. -/
def State.recordBytes (s : State) (a : Agent) (run : Run) : List Byte :=
  let c := s.ctx a
  let low := (List.range 24).map fun i => c.xn i
  let held := if c.uih then c.heldRep.toNat * 2 ^ 16 else 0
  wordBytes (low ++ c.banks.1.toList) ++ (c.v.toList.flatMap fun v => toBytes 64 v.toNat) ++
    wordBytes ((List.range 8).map fun i => c.getK (BitVec.ofNat 3 i)) ++ wordBytes c.banks.2.toList ++
    wordBytes (recordRegs c ++ [toWord (fmaskOf a), 0, 0]) ++ wordBytes (c.tokens.toList.map (s.tokenWord a)) ++
    toBytes 8 (run.code + held)

/-- Write a facet context's save record. -/
def State.writeRecord (s : State) (t : Fin 900) (f : Fin 4) (k : Fin 11) (run : Run) : State :=
  { s with mem := s.mem.setBytes (lmLoc t.val (recordOffset f.val k.val)) (s.recordBytes (.facet t f k) run) }

/-- A doubleword of a context's save record. -/
def State.recordWord (s : State) (t : Fin 900) (f : Fin 4) (k : Fin 11) (off : Nat) : Word :=
  toWord (s.mem.read (lmLoc t.val (recordOffset f.val k.val + off)) 8)

/-- Reload a facet context from its save record (R183): one that was not live or halted is so again, any other goes on at
its resume address. A frm of 6 or 7 and a srgen of 0 that the record holds are restored as they stand (DESIGN CHOICE, log
entry 67). -/
def State.readRecord (s : State) (t : Fin 900) (f : Fin 4) (k : Fin 11) : State :=
  let a := Agent.facet t f k
  let w := s.recordWord t f k
  let est := w 0x998 &&& 0x1FD
  let uih := bit est 3
  let ordinary : Vector Word 8 := Vector.ofFn fun i => w (0xC0 + 8 * i.val)
  let shadow : Vector Word 8 := Vector.ofFn fun i => w (0x940 + 8 * i.val)
  let code := bits (w 0xA20) 3 0
  s.modCtx a fun c =>
    { c with
      x := Vector.ofFn fun i =>
        if i.val = 0 then 0
        else if h : 24 ≤ i.val then (if uih then shadow else ordinary)[i.val - 24]'(by omega)
        else w (8 * i.val)
      shadow := if uih then ordinary else shadow
      v := Vector.ofFn fun i =>
        BitVec.ofNat 512 (s.mem.read (lmLoc t.val (recordOffset f.val k.val + 0x100 + 64 * i.val)) 64)
      k := Vector.ofFn fun i => w (0x900 + 8 * i.val)
      pc := w 0x980 &&& ~~~3, epc := w 0x980, ecause := w 0x988 &&& 0xFFFF_0FFF, einfo := w 0x990, estat := est,
      uvec := w 0x9A0 &&& ~~~2, fflags := (w 0x9A8).setWidth 6, frm := (w 0x9B0).setWidth 3, srgen := w 0x9B8,
      spc := (w 0x9C0).setWidth 8, cwin := w 0x9C8 &&& 0x003F_FFFF_003F_FFFF, repidx := (w 0x9D0).setWidth 6,
      cringSel := (w 0x9D8).setWidth 7, tvec := w 0x9E0 &&& ~~~0xFF, heldRep := BitVec.ofNat 6 (bits (w 0xA20) 21 16),
      tokens := Vector.ofFn fun i => s.tokenOf a (w (0xA00 + 8 * i.val)), undo := none
      run := if code = 0 then .notLive else if code = 6 then .halted else .ready }

/-! ### Restore: kret with PE = 1 (R183, R184) -/

/-- The first context of a facet whose record names a feature this core lacks. -/
def State.missingFeature (s : State) (t : Fin 900) (f : Fin 4) : Option Agent :=
  (facetAgents t f).find? fun a =>
    match a with
    | .facet t f k => (s.recordWord t f k 0x9E8) &&& ~~~toWord (fmaskOf a) ≠ 0
    | .crest _ _ => false

/-- The late faults that mm.rest gave back pend to their control context once its kret has ended the handler, for its first boundary
after that (R203). -/
def State.admitLate (s : State) (a : Agent) : State :=
  match a with
  | .facet t f k =>
    let mine := fun (x : Nat × LateFault) => decide (k.val = 0) && decide (x.1 = f.val)
    if (s.mm t.val).savedLate.any mine then
      (s.modMm t.val fun m => { m with savedLate := m.savedLate.filter fun x => !mine x }).modCtx a fun c =>
        { c with late := c.late ++ ((s.mm t.val).savedLate.filter mine).map fun x => x.2 }
    else s
  | .crest _ _ => s

/-- Reload the eleven records of a facet, or fall through with FEATMIS. The tile's translation cache is emptied (R260). -/
def State.restoreFacet (s : State) (t : Fin 900) (f : Fin 4) : State :=
  let degrade : Bool := decide (bitsN (s.mem.read (lmLoc t.val 0x3F_F010) 8) 0 0 = 1)
  match s.missingFeature t f, degrade with
  | some a, false =>
    s.mod fun c => ({ c with ecause := (c.ecause &&& ~~~0xFF) ||| toWord Code.featmis }.setX 24 (toWord (ctxid a))).retire
      s.latch
  | _, _ =>
    let s := s.mod fun c => { c with kbank := c.bank }
    ((facetAgents t f).foldl (fun s a =>
      match a with
      | .facet t f k => s.readRecord t f k
      | .crest _ _ => s) s).modTile t.val (fun tl => { tl with tlb := [] }) |>.admitLate (.facet t f 0)

/-! ### Withdrawing a park (R34, R132, R134, R136, R252, R289, R306, R397) -/

/-- Take a context out of the waiters of its tile's mutexes and semaphores, of every work queue, of its tile's task order and
of every pool. -/
def State.unlist (s : State) (a : Agent) (why : Park) : State :=
  match why with
  | .mutex m =>
    match tileNo a with
    | some t => s.modTile t fun tl =>
        tl.setMutex m { tl.mutex m with waiters := (tl.mutex m).waiters.filter fun w => w ≠ a }
    | none => s
  | .semaphore n =>
    match tileNo a with
    | some t => s.modTile t fun tl => tl.setSem n { tl.sem n with waiters := (tl.sem n).waiters.filter fun w => w ≠ a }
    | none => s
  | .queue =>
    { s with queues := ⟨s.queues.cells.map fun (n, q) => (n, { q with waiters := q.waiters.filter fun w => w.agent ≠ a })⟩ }
  | .task =>
    match tileNo a with
    | some t => s.modTile t fun tl => { tl with taskOrder := tl.taskOrder.filter fun w => w.agent ≠ a }
    | none => s
  | .cairn =>
    { s with pools := ⟨s.pools.cells.map fun (n, p) =>
        (n, { p with shards := p.shards.map fun x => { x with waits := x.waits.filter fun w => w.agent ≠ a } })⟩ }
  | _ => s

/-- Close the clasp's partly issued joint instruction: each facet's entry that `drops` names is dropped and its ring entry
closed, and an issuer that `ready` names is ready to issue its instruction again (R34, R183 step 1, R293). -/
def State.cancelClasp (s : State) (t : Fin 900) (drops : ClaspEntry → Bool) (ready : Ctx → Bool) : State :=
  let clasp := (s.mm t.val).clasp
  let s := fourFacets.foldl (fun s f =>
    match (clasp[f.val]'f.isLt).filter drops with
    | some e =>
      (s.closeRing (.facet t f) (some e.seq)).modCtx (.facet t f 0) fun c =>
        if ready c then { c with run := .ready } else c
    | none => s) s
  s.modMm t.val fun m => { m with clasp := clasp.map fun e => e.filter fun x => !drops x }

/-- What a pre-emption does to the matrix entry a context waits on (R212, R230): a drain whose check has not run is
abandoned and an mm.seq or bz.retry stops at its next step boundary; any other entry is waited for. -/
def MmEntry.withdrawable (e : MmEntry) : Bool :=
  match e.op with
  | .drain _ _ _ _ _ _ _ => e.pos = 0
  | .seq _ => true
  | .retry _ => true
  | _ => false

/-- The queue after the issuers of an entry have been withdrawn. -/
def withdrawEntry (q : List MmEntry) (id : Nat) : List MmEntry :=
  q.filterMap fun e =>
    if e.id ≠ id then some e
    else match e.op with
      | .drain _ _ _ _ _ _ _ => if e.pos = 0 then none else some e
      | _ => if e.pos = 0 then none else some { e with stopping := true }

/-- Close the ring entries of a joint instruction's four issuers (R175). -/
def State.closeEntry (s : State) (t : Nat) (seqs : Vector (BitVec 16) 4) : State :=
  fourFacets.foldl (fun s f =>
    match facetOwner t f.val with
    | some o => s.closeRing o (some (seqs[f.val]'f.isLt))
    | none => s) s

/-- Withdraw the issuers of a matrix entry (R183 step 2). Its number is kept for when its instruction runs again (R54). -/
def State.withdrawIssuers (s : State) (t id : Nat) : State :=
  let q := (s.mm t).queue
  let rest := withdrawEntry q id
  let s := (q.filter fun e => e.id = id && !(rest.any fun e' => e'.id = id)).foldl (fun s e => s.closeEntry t e.seqs) s
  let again := q.any fun e => e.id = id && e.withdrawable
  s.modMm t fun m => { m with queue := rest, resume := if again then some id else m.resume }

/-- May this park be withdrawn by pre-emption now? A translation park that a TRESUME has ended under FREEZE is over: its fault is
taken first (R362). -/
def State.mayWithdraw (s : State) (a : Agent) (why : Park) : Bool :=
  match why, tileNo a with
  | .matrix id, some t =>
    match (s.mm t).queue.find? fun e => e.id = id with
    | some e => e.withdrawable || e.stopping
    | none => true
  | .resolved _ _, _ => false
  | _, _ => true

/-- The state of a context that pre-emption has stopped, ready to be saved (R183 step 2): a park withdrawn, a busy
operation abandoned (R101, R139), wfi completed (R173). None while it has to be waited for. -/
def State.stopContext (s : State) (a : Agent) : Option State :=
  let c := s.ctx a
  match c.run with
  | .ready => some s
  | .ringBusy => some (s.setCtx a { c with run := .ready })
  | .busy _ =>
    match c.undo with
    | none => some (s.setCtx a { c with run := .ready })
    | some u =>
      let c := { c with run := .ready, undo := none, pc := u.pc, repidx := u.repidx, fflags := u.fflags, srgen := u.srgen }
      let c := match u.x with
        | some (r, v) => c.setX r v
        | none => c
      let c := match u.v with
        | some (r, v) => c.setV r v
        | none => c
      some (s.setCtx a c)
  | .parked .wfi => some (s.setCtx a { c with run := .ready, pc := c.pc + 4 })
  | .parked why =>
    if s.mayWithdraw a why then
      let s := s.unlist a why
      let s := match why, tileNo a with
        | .matrix id, some t => s.withdrawIssuers t id
        | _, _ => s
      some (s.modCtx a fun c => { c with run := .ready })
    else none
  | _ => none

/-- Has pre-emption finished with a context: its record written, and a control context in its handler? One that has halted or exited
at kernel privilege has no kret to come: its record says so, and it enters no handler (DESIGN CHOICE, log entry 78). -/
def State.handled (s : State) (a : Agent) : Bool :=
  let c := s.ctx a
  match c.run with
  | .saved => true
  | .notLive => isBead a || c.kernel
  | .halted => isBead a || c.kernel
  | _ => c.pe

/-- Save one context: the record with its state at the save, then a bead is saved and a control context enters +0x80 with
PE = 1 (R183 step 3); one that is halted or has exited does too, and a late fault that pends to it, for which no boundary comes, is
dropped (DEDUCED, log entry 32). No einfo is given for a class 2 entry; it is 0 (DESIGN CHOICE, log entry 82). -/
def State.saveContext (s : State) (t : Fin 900) (f : Fin 4) (k : Fin 11) (run : Run) : State :=
  let a := Agent.facet t f k
  let s := s.writeRecord t f k run
  if k.val ≠ 0 then
    match run with
    | .notLive => s
    | .halted => s
    | _ => s.modCtx a fun c => { c with run := .saved }
  else
    let s := s.modCtx a fun c => { c with run := .ready, late := [] }
    let s := s.enterKernel a 0x80 (ecauseOf 2 0 false none) 0 (s.ctx a).pc
    s.modCtx a fun c => { c with estat := c.estat ||| 0x100 }

/-- Pre-empt one context if it is at a boundary where it can be saved: at user privilege, not frozen and every access performed
(R54, R136, R183, R185). One that has a late fault pending only leaves what it waits on: it takes the fault first (R122). A wfi
completes, so that its context is recorded as ready behind it, not as parked (DEDUCED, log entry 83). -/
def State.preemptContext (s : State) (a : Agent) : State :=
  match a with
  | .crest _ _ => s
  | .facet t f k =>
    let c := s.ctx a
    if s.handled a then
      (match c.run with
       | .notLive => s.writeRecord t f k .notLive
       | .halted => s.writeRecord t f k .halted
       | _ => s)
    else if c.frozen || c.kernel || !s.allPerformed a then s
    else
      match c.run with
      | .notLive => s.saveContext t f k .notLive
      | .halted => s.saveContext t f k .halted
      | run =>
        if s.lateDue a then (if run = .ready then s else (s.stopContext a).getD s)
        else
          match s.stopContext a with
          | none => s
          | some s => s.saveContext t f k (match run with
              | .parked .wfi => .ready
              | _ => run)

/-- A pre-emption request and its progress at a tile (R183, R185): held while FREEZE holds; the clasp is closed; every
context that can be saved is; the request is over when none is left, and the tile record then holds the facets' fmask
(R180). -/
def State.preempt (s : State) (t : Fin 900) : State :=
  let s := s.modTile t.val fun tl => { tl with preempt := true }
  if s.freeze then s
  else
    let parked := fourFacets.any fun f => (s.ctx (.facet t f 0)).run = .parked .clasp && !(s.ctx (.facet t f 0)).kernel
    let s := if parked then s.cancelClasp t (fun _ => true) Ctx.kernel else s
    let s := (tileAgents t).foldl State.preemptContext s
    if (tileAgents t).all s.handled then
      { s with mem := s.mem.write (lmLoc t.val 0x3F_F018) 8 (fmaskOf (.facet t 0 0)) }.modTile t.val fun tl =>
        { tl with preempt := false }
    else s

/-- PREEMPTION. -/
def execPreemption (t : Fin 900) (s : State) : Out := .next (s.preempt t)

end Sys2Proof.Machine
end

