-- ==== Sys2Proof/Machine/System.lean ====
section
/-! DEFINITION. Major 0x00 but fwcall, the beads and the heartbeat of major 0x16, and the steps by which control leaves a
context: busy ends, user-level interrupts, heartbeat misses, FREEZE and THAW (R101, R156 to R164, R169 to R178, R185,
R397). -/

namespace Sys2Proof.Machine

/-! ### Traps and returns (R169, R172, R177) -/

/-- trap: class 1, einfo the immediate, epc the trap itself. -/
def execTrap (i : BitVec 16) (s : State) : Out :=
  .next (let a := s.cur
    let s' := s.enterKernel a 0 (ecauseOf 1 0 false none) (i.setWidth 64) s.c.resume
    if s.c.kt && !isCrest a then s' else s'.modCtx a fun c => { c with repidx := 0 })

/-- kret. -/
def execKret (s : State) : Out :=
  .next (s.needKernel fun s =>
    match s.cur with
    | .facet t f _ => if s.c.pe then s.restoreFacet t f else (s.leaveKernel s.cur).admitLate s.cur
    | .crest _ _ => s.leaveKernel s.cur)

/-- Go to an address: on a crest core bit 0 enters bytecode mode (R318). A facet's pc is a multiple of 4 (R83), so that bits 1
and 0 of a uiret's shadow x31 are dropped (DESIGN CHOICE, log entry 27). -/
def Ctx.jump (c : Ctx) (crest : Bool) (a : Word) : Ctx := if crest then c.goto a else { c with pc := a &&& ~~~3 }

/-- Exchange the live bank of x24 to x31 with the other (R176, R177). -/
def Ctx.swapBank (c : Ctx) : Ctx := { c with shadow := c.bank }.setBank c.shadow

/-- Leaving a user-level interrupt handler: the bank, UIH, the held repidx, then the jump to the shadow x31. -/
def Ctx.leaveUser (c : Ctx) (crest : Bool) : Ctx :=
  let target := c.xn 31
  { c.swapBank with
    estat := estatOf c.pe c.msv c.emu c.kt c.puih false c.pprv c.kernel
    repidx := c.heldRep, heldRep := 0 }.jump crest target

/-- uiret: PROT unless a user-level interrupt handler runs. -/
def execUiret (s : State) : Out :=
  .next (if s.c.uih then s.mod (Ctx.leaveUser · (isCrest s.cur)) else s.trapWord Code.prot)

/-! ### Beads (R158 to R160) -/

/-- A facet context's facet and bead. -/
def beadOf (t : Fin 900) (f : Fin 4) (k : Nat) : Option Agent :=
  if h : k < 11 then some (.facet t f ⟨k, h⟩) else none

/-- Is bead k of a facet live? -/
def State.beadLive (s : State) (t : Fin 900) (f : Fin 4) (k : Nat) : Bool :=
  match beadOf t f k with
  | some a => (s.ctx a).live
  | none => false

/-- The live beads of a facet, bit k for bead k. -/
def State.beadMask (s : State) (t : Fin 900) (f : Fin 4) : Nat :=
  ((List.range 11).map fun k => if k ≠ 0 && s.beadLive t f k then 2 ^ k else 0).sum

/-- The lowest bead that is not live. -/
def State.freeBead (s : State) (t : Fin 900) (f : Fin 4) : Option (Fin 11) :=
  ([1, 2, 3, 4, 5, 6, 7, 8, 9, 10] : List (Fin 11)).find? fun k => !(s.ctx (.facet t f k)).live

/-- The context of a bead as bead.start leaves it, from its previous life and its starter (R158). The shadow bank is kept: where
the bead ended in its user handler, that is the bank that was live. -/
def startedBead (old starter : Ctx) (k : Nat) (target arg : Word) : Ctx :=
  let top := (starter.xn 30 &&& ~~~0x3F) - 0x4000 - 0x2000 * toWord (k - 1)
  { old with
    x := ((Vector.replicate 32 0).set 1 arg).set 30 top
    v := Vector.replicate 32 0, k := Vector.replicate 8 0, shadow := old.banks.2, pc := target, run := .ready, estat := 0, repidx := 0,
    spc := starter.spc, cwin := starter.cwin, uvec := starter.uvec, tvec := starter.tvec }

/-- Run a facet instruction of major 0x16; on a crest core it traps FEATURE (R157). -/
def State.onFacet (s : State) (k : Fin 900 → Fin 4 → State → State) : State :=
  match s.cur with
  | .facet t f _ => k t f s
  | .crest _ _ => s.trapWord Code.feature

/-- bead.start. -/
def execBeadStart (d a b : BitVec 5) (s : State) : Out :=
  .next (s.onFacet fun t f s =>
    if isBead s.cur then s.trapWord Code.prot
    else
      let target := s.c.getX a
      if target.toNat % 4 ≠ 0 then s.trap Code.align target
      else s.afterRelease fun s =>
        match s.freeBead t f with
        | none => s.setXRetire d allOnes
        | some k =>
          let c := s.c
          (s.modCtx (.facet t f k) fun old => startedBead old c k.val target (c.getX b)).setXRetire d (toWord k.val))

/-- The banks that a bead leaves to its next life where it ends in a kernel handler: the kernel bank as the handler has left it
(R171), and the user shadow bank, which the handler's entry from a user handler put into the save record (R158). -/
def State.leaveBanks (s : State) (a : Agent) : State :=
  match a with
  | .facet t f k =>
    let c := s.ctx a
    if c.kt then
      s.setCtx a { c with
        kbank := c.bank
        shadow := if c.puih then s.readBank t.val (bankSlot (recordOffset f.val k.val) true) else c.shadow }
    else s
  | .crest _ _ => s

/-- End a bead: PROT with its lowest mutex if it owns one, then a release, then not live (R130, R159). -/
def State.endBead (s : State) : State :=
  match s.ownedMutex s.cur with
  | some m => s.trap Code.prot (toWord m)
  | none => s.afterRelease fun s => (s.leaveBanks s.cur).mod fun c => { c with run := .notLive }

/-- bead.end: PROT in a control context. -/
def execBeadEnd (s : State) : Out :=
  .next (s.onFacet fun _ _ s => if isBead s.cur then s.endBead else s.trapWord Code.prot)

/-- bead.wait: a value outside 1 to 10, or the waiter's own number, completes at once. -/
def execBeadWait (a : BitVec 5) (s : State) : Out :=
  .next (s.onFacet fun t f s =>
    let k := bits (s.c.getX a) 3 0
    if k = 0 || 10 < k || k = ctxNo s.cur || !s.beadLive t f k then s.retire else s.park (.bead k))

/-- bead.live. -/
def execBeadLive (d : BitVec 5) (s : State) : Out :=
  .next (s.onFacet fun t f s => s.setXRetire d (toWord (s.beadMask t f)))

/-- hbeat: the timer reloads with the interval (R162). -/
def execHbeat (s : State) : Out :=
  .next (s.onFacet fun t f s => (s.modFacet t f fun x => { x with hbLeft := x.hbInterval }).retire)

/-! ### halt and wfi (R173) -/

/-- halt: a bead ends as by bead.end; a control context releases, halts with its registers in place, and a halt notice goes
to the resident kernel. -/
def execHalt (s : State) : Out :=
  .next (if isBead s.cur then s.endBead
    else s.afterRelease fun s =>
      let epc := s.c.pc
      (s.mod fun c => { c with run := .halted }).pushRecord { s.recordFor s.cur 6 0 with epc := epc })

/-- May a user-level interrupt be delivered to a context (R176)? -/
def Ctx.deliverable (c : Ctx) : Bool := !c.pending.isEmpty && bit c.uvec 0 && !c.uih && !c.kernel

/-- wfi: at kernel privilege it completes at once. -/
def execWfi (s : State) : Out := .next (if s.c.kernel || s.c.deliverable then s.retire else s.park .wfi)

/-! ### USER_INTERRUPT_DELIVERY (R176, R397) -/

/-- Enter the user handler for a pending interrupt, with the resume address. -/
def Ctx.enterUser (c : Ctx) (u : UserInt) (resume : Word) : Ctx :=
  let c' := { c.swapBank with
    estat := estatOf c.pe c.msv c.emu c.kt c.puih true c.pprv c.kernel
    heldRep := c.repidx, repidx := 0, pc := c.uvec &&& ~~~3, bytecode := false }
  (((c'.setXn 24 (toWord u.kind)).setXn 25 u.lo).setXn 26 u.hi).setXn 31 resume

/-- Drop the mailbox entry in which a pending completion waited (R176); the overflow entries of a spill stand ahead of older ones. -/
def dropHeld (mail : List MailEntry) (ctx : Nat) (u : UserInt) : List MailEntry :=
  let mine := fun (e : MailEntry) => e.held && decide (e.ctx = ctx)
  let same := fun (e : MailEntry) => mine e && decide (e.lo = u.lo) && decide (e.hi = u.hi)
  mail.eraseP (if mail.any same then same else mine)

/-- Deliver the oldest pending user-level interrupt of a context that is at a boundary. -/
def State.deliverUser (s : State) (a : Agent) : State :=
  let c := s.ctx a
  match c.pending with
  | [] => s
  | u :: rest =>
    let s := if u.kind = 1 then s.modNi (ownerOf a) fun n => { n with mail := dropHeld n.mail (ctxNo a) u } else s
    s.setCtx a ({ c with pending := rest, run := .ready }.enterUser u c.resume)

/-- The parks that a deliverable interrupt does not withdraw: translation, and joint issue and the matrix (R397). The table of
R397 names gang.exit's park on its facet's beads in no row; it is withdrawn as bead.wait's is (DESIGN CHOICE, log entry 61). -/
def Park.keepsUser : Park → Bool
  | .translation _ _ _ _ => true
  | .resolved _ _ => true
  | .clasp => true
  | .matrix _ => true
  | .matrixWait _ => true
  | .row _ => true
  | .quiesce => true
  | _ => false

/-- Is a pre-emption request before a context's tile (R183)? -/
def State.preempting (s : State) (a : Agent) : Bool :=
  match tileNo a with
  | some t => (s.tile t).preempt
  | none => false

/-- Delivery at a boundary: a ready context, one parked on wfi (wfi completes, R173), or one whose park is withdrawn and whose
instruction runs again after uiret. A late fault that is due and a pre-emption request come first (R183, R186, R293): the
boundary after a wfi then takes the fault. -/
def State.userDelivery (s : State) (a : Agent) : State :=
  let c := s.ctx a
  if !c.deliverable || c.frozen || s.preempting a then s
  else match c.run with
    | .parked .wfi =>
      let t := s.modCtx a fun c => { c with pc := c.pc + 4, run := .ready }
      if s.lateDue a then t else t.deliverUser a
    | .ready => if s.lateDue a then s else s.deliverUser a
    | .parked why => if why.keepsUser || s.lateDue a then s else (s.unlist a why).deliverUser a
    | _ => s

/-- USER_INTERRUPT_DELIVERY. -/
def execUserInterruptDelivery (a : Agent) (s : State) : Out := .next (s.userDelivery a)

/-! ### LATE_FAULT (R122, R174) -/

/-- LATE_FAULT: the fault that is due is taken at its context's instruction boundary: it is ready, or parked before issue on
what an interrupt withdraws too (R397); its instruction has performed nothing and epc names it. wfi completes only on an
interrupt or a pre-emption (R173), and the boundary after it takes the fault. -/
def execLateFault (a : Agent) (s : State) : Out :=
  .next (let c := s.ctx a
    if c.frozen || !s.lateDue a then s
    else match c.run with
      | .ready => s.takeLate a
      | .parked why => if why.keepsUser || why = .wfi then s else (s.unlist a why).takeLate a
      | _ => s)

/-! ### BUSY_END (R101, R175) -/

/-- A busy context becomes ready when its cycles are over, or when the ring entry it needs is closed. -/
def execBusyEnd (a : Agent) (s : State) : Out :=
  .next (match (s.ctx a).run with
    | .busy t => if t ≤ s.now then s.modCtx a fun c => { c with run := .ready, undo := none } else s
    | .ringBusy => if s.ringBlocked (ownerOf a) then s else s.modCtx a fun c => { c with run := .ready }
    | _ => s)

/-! ### The heartbeat (R162 to R164) -/

/-- Does a facet's timer count in this tile cycle: some context of it is ready at user privilege (R162)? -/
def State.heartRuns (s : State) (t : Fin 900) (f : Fin 4) : Bool :=
  (facetAgents t f).any fun a =>
    let c := s.ctx a
    c.canIssue && !c.kernel

/-- HEARTBEAT_MISS: a timer that has reached 0 fences its facet (R163); an interval of 0 disables it. One that stands at 0 when srw
gives it an interval, with no hbeat to reload it, is taken to have reached 0 (DESIGN CHOICE, log entry 77). -/
def execHeartbeatMiss (t : Fin 900) (f : Fin 4) (s : State) : Out :=
  .next (let x := s.facet t f
    if x.hbLeft = 0 && x.hbInterval ≠ 0 && !x.fenced then
      s.modFacet t f fun x => { x with fenced := true, missed := true }
    else s)

/-! ### FREEZE and THAW (R185) -/

/-- Every facet context that issues or may come to issue is frozen at its boundary, with its state in place. -/
def State.freezeAll (s : State) : State :=
  let s := { s with freeze := true }
  { s with ctxs := ⟨s.ctxs.cells.map fun (n, c) =>
      (n, if n < 39600 && c.live && c.run ≠ .saved && c.run ≠ .halted then { c with frozen := true } else c)⟩ }

/-- THAW: frozen contexts return to the states they would have had, and a kernel crash before it is over: the next one is the first
of its own (R185, R366). -/
def State.thawAll (s : State) : State :=
  { s with
    freeze := false
    mgmt := { s.mgmt with crashed := false }
    ctxs := ⟨s.ctxs.cells.map fun (n, c) => (n, { c with frozen := false })⟩ }

/-- FREEZE. -/
def execFreeze (s : State) : Out := .next s.freezeAll

/-- THAW; after a second kernel crash the device stays frozen (R366). -/
def execThaw (s : State) : Out := .next (if s.mgmt.frozenTwice then s else s.thawAll)

end Sys2Proof.Machine
end

