-- ==== Sys2Proof/Machine/Matrix.lean ====
section
/-! DEFINITION. The matrix engine's instructions: joint issue and the clasp, the matrix queue, the sequencer, mm.save and
mm.rest, the tensor-table instructions, and the step that runs the queue's head (R193 to R212, R293). -/

namespace Sys2Proof.Machine

/-! ### The four control contexts -/

/-- The control contexts of a tile. -/
def controls (t : Fin 900) : List Agent := fourFacets.map fun f => .facet t f 0

/-- Make a context ready if it is parked and the park is of the given kind; its instruction runs again. -/
def State.unpark (s : State) (a : Agent) (p : Park → Bool) : State :=
  s.modCtx a fun c => match c.run with
    | .parked why => if p why then { c with run := .ready } else c
    | _ => c

/-- Trap all four issuers precisely. -/
def State.trapFour (s : State) (t : Fin 900) (code : Nat) (info : Word) : State :=
  (controls t).foldl (fun s a => (s.modCtx a fun c => { c with run := .ready }).trapAt a code info false) s

/-! ### Entries leave the queue -/

/-- Entries of the queue that are joint instructions, not qfence marks. -/
def Mm.entries (m : Mm) : List MmEntry := m.queue.filter fun e => e.op ≠ .qfence

/-- Take an entry out of the queue and close its ring entries (R175). -/
def State.dropEntry (s : State) (t : Fin 900) (e : MmEntry) : State :=
  (s.modMm t.val fun m => { m with queue := m.queue.filter fun x => x.id ≠ e.id }).closeEntry t.val e.seqs

/-- An entry has completed: its flags are raised in the four issuers (R79). -/
def State.completeEntry (s : State) (t : Fin 900) (e : MmEntry) (fl : BitVec 6) : State :=
  (controls t).foldl (fun s a => s.modCtx a (Ctx.raiseBeside · (e.flags ||| fl))) (s.dropEntry t e)

/-- Does a context wait for this entry? -/
def State.waitsFor (s : State) (id : Nat) (a : Agent) : Bool := (s.ctx a).run = .parked (.matrix id)

/-- The issuers' park ends: their instruction retires. -/
def State.finishIssuers (s : State) (t : Fin 900) (id : Nat) (f : Ctx → Ctx) : State :=
  ((controls t).filter (s.waitsFor id)).foldl (fun s a => s.finish a f) s

/-- Is it an mm.save that waits at the clasp (R203)? -/
def ClaspEntry.isSave (e : ClaspEntry) : Bool :=
  match e.joint with
  | .queued .save _ => true
  | _ => false

/-- Is a late fault of an entry recorded for a facet, not delivered (R203, R212): an mm.save waits in the queue, or at the clasp
for this facet, or the facet's control context has entered the pre-emption handler and the entry is not that handler's own? -/
def State.recordsLate (s : State) (t : Fin 900) (e : MmEntry) (i : Fin 4) : Bool :=
  ((s.mm t.val).queue.any fun x => x.op = .save) || (((s.mm t.val).clasp[i.val]'i.isLt).map ClaspEntry.isSave).getD false ||
    ((s.ctx (.facet t i 0)).pe && !e.kts.getLsbD i.val)

/-- A late fault of an entry (R195, R293): it and every later entry but qfences, mm.save and mm.rest leave unperformed; it is
recorded, or it pends to the control contexts, parks on the matrix and at the clasp end, and the clasp is cancelled but for an
mm.save. -/
def State.lateEntry (s : State) (t : Fin 900) (e : MmEntry) (f : MmFault) : State :=
  let q := (s.mm t.val).queue
  let stays := fun (x : MmEntry) => x.op = .qfence || x.op = .save || x.op = .rest
  let s := (q.filter fun x => !stays x).foldl (fun s x => s.dropEntry t x) s
  let s := fourFacets.foldl (fun s i =>
    let l : LateFault := ⟨BitVec.ofNat 8 f.1, f.2, some (e.seqs[i.val]'i.isLt), some e.id, true⟩
    if s.recordsLate t e i then
      s.modMm t.val fun m => { m with savedLate := m.savedLate ++ [(i.val, l)] }
    else s.addLate (.facet t i 0) l) s
  if (s.mm t.val).queue.any fun x => x.op = .save then s
  else
    let s := (controls t).foldl (fun s a => s.unpark a fun why => match why with
      | .matrix _ => true
      | .matrixWait _ => true
      | .row _ => true
      | _ => false) s
    s.cancelClasp t (fun x => !x.isSave) fun _ => true

/-- One issuer takes a precise fault of its entry: BEZEL goes to the user handler where bzsite.uen is set and the interrupt is
deliverable (R218); behind an interrupt that is already pending it waits its turn, since they are delivered in arrival order
(R176), and under a pre-emption request it pends, since the pre-emption is taken first (R186, R230). -/
def State.issuerFault (s : State) (t : Nat) (f : MmFault) (a : Agent) : State :=
  let s := s.modCtx a fun c => { c with run := .ready }
  let c := s.ctx a
  if f.1 = Code.bezel && bit (s.mm t).bz.site 0 && bit c.uvec 0 && !c.uih && !c.kernel then
    if (s.tile t).preempt || !c.pending.isEmpty then s.setCtx a { c with pending := c.pending ++ [⟨2, c.pc, 0x0F⟩] }
    else s.setCtx a (c.enterUser ⟨2, c.pc, 0x0F⟩ c.pc)
  else s.trapAt a f.1 f.2 false

/-- A precise fault of mm.drain, mm.seq or bz.retry: the entry leaves, its issuers take the fault at their instruction. -/
def State.preciseEntry (s : State) (t : Fin 900) (e : MmEntry) (f : MmFault) : State :=
  ((controls t).filter (s.waitsFor e.id)).foldl (fun s a => s.issuerFault t.val f a) (s.dropEntry t e)

/-! ### mm.drain (R200) -/

/-- mmwm when a drain's check has passed. -/
def drainedWm (wm : Word) (ar n : Nat) : Word :=
  let w := putWm (putWm wm 48 9 ar) 32 10 0
  if ar ≤ bits w 24 16 && bits w 24 16 + bits w 9 0 ≤ ar + n then putWm w 63 1 1 else w

/-- The check phase. BEZEL's einfo is not given: a free value (log entry 18). -/
def State.drainCheck (s : State) (t : Nat) (x : DrainOp) (r : Vec) : State × Except MmFault Unit :=
  match s.drainFault t x r with
  | some f => (s, .error f)
  | none =>
    match s.bezelCheck t x.ar x.n with
    | (s, false) => (s.spend, .error (Code.bezel, s.freeWord))
    | (s, true) => (s.modMm t fun m => { m with wm := drainedWm m.wm x.ar x.n }, .ok ())

/-! ### mm.seq (R205, R206) -/

/-- A little-endian field of a descriptor. -/
def seqField (d : Vec) (off n : Nat) : Nat := recAt d off n

/-- What is wrong with a descriptor, if anything: role 5, and the offending value. -/
def seqFault (d : Vec) : Option MmFault :=
  let f := seqField d
  let rm := f 3 1 / 2 % 8
  let zero := [f 0 1, f 1 1, f 2 1, f 12 2, f 14 2, f 8 2].any fun v => decide (v = 0)
  if zero then some (mmFault Code.mmbound 5 0)
  else if 512 < f 10 2 + f 8 2 then some (mmFault Code.mmbound 5 (f 8 2))
  else if 6 ≤ rm then some (mmFault Code.mmbound 5 rm)
  else none

/-- The start of an mm.seq: the descriptor and the three records are read, and seqpos is set if no sequence is in progress. -/
def State.seqStart (s : State) (t desc : Nat) : State × Except MmFault (List Vec) :=
  match s.engineRead t 5 desc 32 with
  | (s, .error f) => (s, .error f)
  | (s, .ok v) =>
    let d := BitVec.ofNat 512 v
    match seqFault d with
    | some f => (s, .error f)
    | none =>
      let rec_ := fun off => (s.tile t).tensor (seqField d off 1)
      (s.modMm t fun m => { m with seqpos := if bit m.seqpos 63 then m.seqpos else 0x8000_0000_0000_0000 },
       .ok [d, rec_ 0, rec_ 1, rec_ 2])

/-- One step of a sequence by its number. kbo + k, nbo + i and ccol + i × N are taken modulo 2^32, the width of the fields that
they stand in (DESIGN CHOICE, log entry 79). -/
def State.seqStep (s : State) (t : Fin 900) (held : List Vec) (step : Nat) : State × Except MmFault Flags :=
  let d := held.getD 0 0
  let ra := held.getD 1 0
  let rw := held.getD 2 0
  let rc := held.getD 3 0
  let f := seqField d
  let flags := f 3 1
  let kn := f 14 2
  let i := step / (kn + 1)
  let k := step % (kn + 1)
  if k < kn then
    match s.loadw t.val (f 1 1) ((f 20 4 + k) % 2 ^ 32) ((f 16 4 + i) % 2 ^ 32) (recFmt ra) rw with
    | (s, .error e) => (s, .error e)
    | (s, .ok ()) =>
      let s := s.modMm t.val Mm.swap
      s.streamBatch t.val ⟨f 0 1, f 4 4, (f 20 4 + k) % 2 ^ 32, f 10 2, f 8 2, k = 0 && flags % 2 = 0⟩ ra true (k = 0) false
  else
    let x : DrainOp := ⟨f 2 1, f 10 2, f 8 2, flags / 2 % 8, flags / 16 % 2 = 1, f 24 4,
      (f 28 4 + i * (s.mm t.val).geom) % 2 ^ 32⟩
    match s.drainCheck t.val x rc with
    | (s, .error e) => (s, .error e)
    | (s, .ok ()) =>
      let r := s.drainRows t x rc
      (r.1, .ok r.2)

/-- The number of steps of a sequence. -/
def seqSteps (d : Vec) : Nat := seqField d 12 2 * (seqField d 14 2 + 1)

/-- A stopped entry leaves at its step boundary (R203, R212); it has not retired and raises no flag (R79). -/
def State.seqRun (s : State) (t : Fin 900) (e : MmEntry) (desc : Nat) : State :=
  if e.pos = 0 then
    match s.seqStart t.val desc with
    | (s, .error f) => s.preciseEntry t e f
    | (s, .ok held) =>
      s.modMm t.val fun m => { m with queue := m.queue.map fun x => if x.id = e.id then { x with pos := 1, held := held } else x }
  else
    let total := seqSteps (e.held.getD 0 0)
    let step := bits (s.mm t.val).seqpos 31 0
    let last := fun (s : State) (fl : Flags) =>
      ((s.modMm t.val fun m => { m with seqpos := 0 }).finishIssuers t e.id id).completeEntry t e fl
    if total ≤ step then last s 0
    else
      match s.seqStep t e.held step with
      | (s, .error f) => s.preciseEntry t e f
      | (s, .ok fl) =>
        if total ≤ step + 1 then last s fl
        else s.modMm t.val fun m =>
          { m with
            seqpos := 0x8000_0000_0000_0000 ||| toWord (step + 1)
            queue := m.queue.map fun x => if x.id = e.id then { x with flags := x.flags ||| fl } else x }

/-! ### bz.retry (R223) -/

/-- bz.retry: one step of the record, and after the last one the end. -/
def State.retryRun (s : State) (t : Fin 900) (e : MmEntry) (d : BitVec 5) : State :=
  let r := (s.mm t.val).bz.retry
  let done := fun (s : State) (v : Word) => (s.finishIssuers t e.id (Ctx.setX · d v)).completeEntry t e 0
  if !r.playable then done s 1
  else
    match r.steps[r.progress]? with
    | none =>
      done (s.modMm t.val fun m =>
        { m with
          shadow := { m.shadow with valid := false }
          bz := { m.bz with retries := m.bz.retries + 1, retry := { m.bz.retry with progress := 0, going := false } } }) 0
    | some step =>
      let s := s.modBz t.val fun b => { b with retry := { b.retry with going := true } }
      match s.retryStep t.val step with
      | (s, .error f) => s.preciseEntry t e f
      | (s, .ok fl) =>
        let s := s.modBz t.val fun b => { b with retry := { b.retry with progress := r.progress + 1 } }
        s.modMm t.val fun m =>
          { m with queue := m.queue.map fun x => if x.id = e.id then { x with pos := 1, flags := x.flags ||| fl } else x }

/-! ### The head of the queue runs (R55, R194) -/

/-- An entry that may raise a late fault ends. -/
def State.lateEnd (t : Fin 900) (e : MmEntry) (r : State × Except MmFault Flags) : State :=
  match r with
  | (s, .error f) => s.lateEntry t e f
  | (s, .ok fl) => s.completeEntry t e fl

/-- mm.save of an entry (R203): the area is written, MSV is set in each issuer. -/
def State.saveRun (s : State) (t : Fin 900) (e : MmEntry) : State :=
  ((s.saveMatrix t.val).finishIssuers t e.id fun c => { c with estat := c.estat ||| 0x80 }).completeEntry t e 0

/-- Run the head entry: whole, or one phase of a drain, or one step of a sequence or a retry. bz.fix and bz.inject raise no flag in
their issuers (DESIGN CHOICE, log entry 74). -/
def State.runEntry (s : State) (t : Fin 900) (e : MmEntry) : State :=
  let r := e.recs.getD 0 0
  if e.stopping then s.dropEntry t e
  else match e.op with
  | .loadw tid kb nb af =>
    match s.loadw t.val tid kb nb af r with
    | (s, .error f) => s.lateEntry t e f
    | (s, .ok ()) => s.completeEntry t e 0
  | .swap => (s.modMm t.val Mm.swap).completeEntry t e 0
  | .zero r0 n =>
    match s.zeroRows t.val r0 n false with
    | (s, .error f) => s.lateEntry t e f
    | (s, .ok ()) => s.completeEntry t e 0
  | .stream tid row0 kb ar n ov => State.lateEnd t e (s.streamBatch t.val ⟨tid, row0, kb, ar, n, ov⟩ r false true false)
  | .drain tid ar n rm sat row0 col0 =>
    let x : DrainOp := ⟨tid, ar, n, rm, sat, row0, col0⟩
    if e.pos = 0 then
      match s.drainCheck t.val x r with
      | (s, .error f) => s.preciseEntry t e f
      | (s, .ok ()) =>
        (s.finishIssuers t e.id id).modMm t.val fun m =>
          { m with queue := m.queue.map fun x => if x.id = e.id then { x with pos := 1 } else x }
    else
      let y := s.drainRows t x r
      y.1.completeEntry t e y.2
  | .seq desc => s.seqRun t e desc
  | .fix d l =>
    let y := (s.mm t.val).fix l
    ((s.modMm t.val fun _ => y.1).finishIssuers t e.id (Ctx.setX · d y.2)).completeEntry t e 0
  | .retry d => s.retryRun t e d
  | .clear x => (s.bzClear t.val x).completeEntry t e 0
  | .inject x v => (s.modMm t.val fun m => m.inject x v).completeEntry t e 0
  | .qfence => s
  | .save => s.saveRun t e
  | .rest => ((s.loadMatrix t.val).finishIssuers t e.id id).completeEntry t e 0

/-- Has an entry begun the part that FREEZE lets it finish: a drain's writes (R212)? -/
def MmEntry.begun (e : MmEntry) : Bool :=
  match e.op with
  | .drain _ _ _ _ _ _ _ => e.pos ≠ 0
  | _ => false

/-- Does the next step of an entry draw from srgen: the writes of an SR drain, or a sequence's step that drains with SR (R74, R206)? -/
def MmEntry.draws (e : MmEntry) (m : Mm) : Bool :=
  match e.op with
  | .drain _ _ _ rm _ _ _ => e.pos ≠ 0 && rm = 5
  | .seq _ =>
    let d := e.held.getD 0 0
    let kn := seqField d 14 2
    e.pos ≠ 0 && seqField d 3 1 / 2 % 8 = 5 && bits m.seqpos 31 0 % (kn + 1) = kn
  | _ => false

/-- Is a draw of a busy operation of a control context still open? Pre-emption would take it back with the operation, and no byte
that a drain wrote may then hold it (R101). -/
def State.drawOpen (s : State) (t : Fin 900) : Bool :=
  (controls t).any fun a =>
    match (s.ctx a).undo with
    | some u => u.srgen ≠ (s.ctx a).srgen
    | none => false

/-- The entry that a tile's matrix queue can run now: its head, not a qfence, not held by FREEZE, and not one that would draw
while a busy operation's draw is open. -/
def State.readyEntry (s : State) (t : Fin 900) : Option MmEntry :=
  match (s.mm t.val).queue with
  | e :: _ => if e.op = .qfence || (s.freeze && !e.begun) || (e.draws (s.mm t.val) && s.drawOpen t) then none else some e
  | [] => none

/-- MATRIX_ENTRY_START. -/
def execMatrixEntryStart (t : Fin 900) (s : State) : Out :=
  .next (match s.readyEntry t with
    | some e => s.runEntry t e
    | none => s)

/-! ### The clasp (R193, R194, R293) -/

/-- Is a late fault of a matrix entry pending to a context (R293)? -/
def State.matrixLate (s : State) (a : Agent) : Bool := (s.ctx a).late.any fun l => l.matrix

/-- What holds a release back though all four words and values agree: a full queue, FREEZE, a pre-emption, a pending late
fault. -/
def State.claspHeld (s : State) (t : Fin 900) (j : Joint) : Bool :=
  let full := match j with
    | .queued _ _ => decide (8 ≤ (s.mm t.val).queue.length)
    | _ => false
  full || (controls t).any fun a =>
    let c := s.ctx a
    c.frozen || ((s.tile t.val).preempt && !c.kernel) || s.matrixLate a

/-- The tensor ids that an operation names (R194). -/
def MmOp.tensors : MmOp → List Nat
  | .loadw t _ _ _ => [t]
  | .stream t _ _ _ _ _ => [t]
  | .drain t _ _ _ _ _ _ => [t]
  | _ => []

/-- May an operation be one that a pre-emption withdrew and that runs again (R212, R230)? -/
def MmOp.mayResume : MmOp → Bool
  | .drain _ _ _ _ _ _ _ => true
  | .seq _ => true
  | .retry _ => true
  | _ => false

/-- For which of the four issuers an instruction is a kernel handler's. -/
def State.handlers (s : State) (t : Fin 900) : BitVec 4 :=
  BitVec.ofNat 4 (fourFacets.map fun f => if (s.ctx (.facet t f 0)).kt then 2 ^ f.val else 0).sum

/-- Put an entry at the tail of the queue. The first drain, mm.seq or bz.retry of user code after a pre-emption that withdrew one
takes that one's number (R54). -/
def State.newEntry (s : State) (t : Fin 900) (op : MmOp) (seqs : Vector (BitVec 16) 4) : State × Nat :=
  let m := s.mm t.val
  let old := if op.mayResume && s.handlers t = 0 then m.resume else none
  let e : MmEntry := { id := old.getD s.nextId, op := op, recs := op.tensors.map (s.tile t.val).tensor, seqs := seqs, pos := 0
                       held := [], stopping := false, flags := 0, kts := s.handlers t }
  (s.fresh.modMm t.val fun m => { m with queue := m.queue ++ [e], resume := if old.isSome then none else m.resume }, e.id)

/-- Enter the queue: the record copies are read now. mm.save with MSV set in all four issuers retires at once; with MSV set in
some of them only, of which R203 does not speak, it saves as where none is set (DESIGN CHOICE, log entry 72). -/
def State.enterQueue (s : State) (t : Fin 900) (op : MmOp) (wait : Bool) (seqs : Vector (BitVec 16) 4) : State :=
  if op = .save && (controls t).all fun a => (s.ctx a).msv then
    ((controls t).foldl (fun s a => s.finish a id) s).closeEntry t.val seqs
  else
    let x := s.newEntry t op seqs
    (controls t).foldl (fun s a =>
      if wait then s.modCtx a fun c => { c with run := .parked (.matrix x.2) } else s.finish a id) x.1

/-- All four issuers of an instruction that takes effect at release retire, and their ring entries close. -/
def State.finishFour (s : State) (t : Fin 900) (seqs : Vector (BitVec 16) 4) : State :=
  ((controls t).foldl (fun s a => s.finish a id) s).closeEntry t.val seqs

/-- All four issuers trap, and their ring entries close. -/
def State.failFour (s : State) (t : Fin 900) (seqs : Vector (BitVec 16) 4) (code : Nat) (info : Word) : State :=
  (s.closeEntry t.val seqs).trapFour t code info

/-- Release a joint instruction once for the tile (R194, R209). -/
def State.release (s : State) (t : Fin 900) (j : Joint) (seqs : Vector (BitVec 16) 4) : State :=
  match j with
  | .queued op wait => s.enterQueue t op wait seqs
  | .sync => s.finishFour t seqs
  | .ttLoad id off =>
    match s.takeSoftError (lmLoc t.val off) 64 with
    | (s, true) => s.failFour t seqs Code.uncorr (toWord off)
    | (s, false) =>
      let r := BitVec.ofNat 512 (s.mem.read (lmLoc t.val off) 64)
      if recOk r then (s.modTile t.val fun tl => tl.setTensor id r).finishFour t seqs
      else s.failFour t seqs Code.ttbad (toWord id)
  | .ttSlice id =>
    let r := (s.tile t.val).tensor id
    let c := s.ctx (.facet t 0 0)
    if !recValid r || recSliced r then s.failFour t seqs Code.ttbad (toWord id)
    else (s.modTile t.val fun tl => tl.setTensor id (sliceRec c.gangw.toNat c.gangh.toNat c.rank.toNat r)).finishFour t seqs
  | .ttInval id => (s.modTile t.val fun tl => tl.setTensor id 0).finishFour t seqs

/-- Do two facets bring the same word and values? -/
def ClaspEntry.agrees (x y : ClaspEntry) : Bool := x.word = y.word && x.vals = y.vals

/-- The clasp: once all four facets have issued, CLASPMIS where any differs from facet 0, else the release if nothing holds it. -/
def State.tryClasp (s : State) (t : Fin 900) : State :=
  let m := s.mm t.val
  match m.clasp[0], m.clasp[1], m.clasp[2], m.clasp[3] with
  | some e0, some e1, some e2, some e3 =>
    let seqs : Vector (BitVec 16) 4 := #v[e0.seq, e1.seq, e2.seq, e3.seq]
    let mask := (if e1.agrees e0 then 0 else 2) + (if e2.agrees e0 then 0 else 4) + (if e3.agrees e0 then 0 else 8)
    let open_ := fun (s : State) => s.modMm t.val fun m => { m with clasp := Vector.replicate 4 none }
    if (controls t).any fun a => (s.ctx a).frozen then s
    else if mask ≠ 0 then (open_ s).failFour t seqs Code.claspmis (toWord mask)
    else if s.claspHeld t e0.joint then s
    else (open_ s).release t e0.joint seqs
  | _, _, _, _ => s

/-! ### Joint and single issue (R160, R193, R202, R211) -/

/-- An instruction of majors 0x20 to 0x23: FEATURE on a crest core, PROT in a bead (R96, R160). -/
def State.onEngine (s : State) (k : Fin 900 → Fin 4 → State → State) : State :=
  match s.cur with
  | .crest _ _ => s.trapWord Code.feature
  | .facet t f _ => if isBead s.cur then s.trapWord Code.prot else k t f s

/-- In a kernel handler with MSV = 0 a joint instruction is a DOUBLE (R178). -/
def State.needSaved (s : State) (k : State → State) : State :=
  if s.c.kt && !s.c.msv then
    s.double s.cur (ecauseOf 0 Code.double false none) (s.latch.word.setWidth 64) s.c.pc
  else k s

/-- Bring a joint instruction to the clasp: it takes its ring entry, with the scalar values of its fields d, a and b, and parks
until the clasp releases it. -/
def State.toClasp (s : State) (t : Fin 900) (f : Fin 4) (vals : List Word) (j : Joint) : State :=
  s.needRing fun s =>
    let r := s.takeRing vals
    let s := r.1.modMm t.val fun m =>
      { m with clasp := m.clasp.set f.val (some ⟨s.latch.word, vals, r.2, j⟩) f.isLt }
    (s.park .clasp).tryClasp t

/-- A joint instruction of the ordinary kind. -/
def State.joint (s : State) (vals : List Word) (j : Joint) : State :=
  s.onEngine fun t f s => s.needSaved fun s => s.toClasp t f vals j

/-- An operand address of tt.load or mm.seq: alignment, local alias, kernel reserve (R205, R209). -/
def State.operandAddr (s : State) (va : Word) (align : Nat) (k : State → State) : State :=
  if va.toNat % align ≠ 0 then s.trap Code.align va
  else if 0x40_0000 ≤ va.toNat then s.trap Code.lmrange va
  else if !s.c.kernel && 0x3C_0000 ≤ va.toNat then s.trap Code.prot va
  else k s

/-- Does an entry that has not completed still have to write accumulator row r (R202)? -/
def MmEntry.writesRow (e : MmEntry) (m : Mm) (r : Nat) : Bool :=
  match e.op with
  | .zero r0 n => r0 ≤ r && r < r0 + n
  | .stream _ _ _ ar n _ => ar ≤ r && r < ar + n
  | .seq _ => true
  | .retry _ => match m.bz.batch with
    | some (r0, n) => r0 ≤ r && r < r0 + n
    | none => false
  | .fix _ _ => true
  | .inject x _ => bits x 31 30 = 0 && bits x 8 0 = r
  | .rest => true
  | _ => false

/-- Does the queue hold an entry that writes row r? -/
def Mm.rowBusy (m : Mm) (r : Nat) : Bool := m.queue.any fun e => e.writesRow m r

/-! ### Majors 0x20, 0x21 and 0x23 -/

/-- mm.loadw (R197). -/
def execMmLoadw (a b : BitVec 5) (t : BitVec 8) (s : State) : Out :=
  .next (s.onEngine fun _ _ s => s.needLimits (t ≠ 0) fun s =>
    let x := s.c.getX a
    let y := s.c.getX b
    s.joint [0, x, y] (.queued (.loadw t.toNat (bits x 31 0) (bits y 31 0) (bits y 35 32)) false))

/-- mm.stream (R199). -/
def execMmStream (a b : BitVec 5) (t : BitVec 8) (s : State) : Out :=
  .next (s.onEngine fun _ _ s => s.needLimits (t ≠ 0) fun s =>
    let x := s.c.getX a
    let y := s.c.getX b
    s.joint [0, x, y]
      (.queued (.stream t.toNat (bits x 31 0) (bits x 63 32) (bits y 8 0) (bits y 25 16) (bit y 63)) false))

/-- mm.drain (R200). -/
def execMmDrain (a b : BitVec 5) (t : BitVec 8) (s : State) : Out :=
  .next (s.onEngine fun _ _ s =>
    let x := s.c.getX a
    let y := s.c.getX b
    s.needLimits (t ≠ 0 && bits x 30 28 < 6) fun s =>
      s.joint [0, x, y] (.queued (.drain t.toNat (bits x 8 0) (bits x 25 16) (bits x 30 28) (bit x 31) (bits y 31 0)
        (bits y 63 32)) true))

/-- mm.zero (R198). -/
def execMmZero (a : BitVec 5) (s : State) : Out :=
  .next (let x := s.c.getX a
    s.joint [0, x, 0] (.queued (.zero (bits x 8 0) (bits x 25 16)) false))

/-- mm.swap (R198). -/
def execMmSwap (s : State) : Out := .next (s.joint [0, 0, 0] (.queued .swap false))

/-- mm.rdrow (R202). -/
def execMmRdrow (d a : BitVec 5) (s : State) : Out :=
  .next (s.onEngine fun t _ s => s.needLimits (d.toNat < 31) fun s =>
    let x := s.c.getX a
    if 512 ≤ x.toNat then s.trap Code.mmbound (mmFault Code.mmbound 4 x.toNat).2
    else
      let m := s.mm t.val
      if m.rowBusy x.toNat then s.park (.row x.toNat)
      else
        let r := (m.row x.toNat).cols.toList.map BitVec.toNat
        s.mod fun c => ((c.setV d (packVec 32 (r.take 16))).setV (d + 1) (packVec 32 (r.drop 16))).retire s.latch)

/-- mm.wait (R202). -/
def execMmWait (s : State) : Out :=
  .next (s.onEngine fun t _ s =>
    match (s.mm t.val).entries.getLast? with
    | some e => s.park (.matrixWait e.id)
    | none => s.retire)

/-- mm.save (R203). -/
def execMmSave (s : State) : Out :=
  .next (s.onEngine fun t f s => s.needKernel fun s => s.toClasp t f [0, 0, 0] (.queued .save true))

/-- mm.rest (R203). -/
def execMmRest (s : State) : Out :=
  .next (s.onEngine fun t f s => s.needKernel fun s => s.toClasp t f [0, 0, 0] (.queued .rest true))

/-- mm.sync (R202). -/
def execMmSync (s : State) : Out := .next (s.joint [0, 0, 0] .sync)

/-- mm.seq (R205). -/
def execMmSeq (a : BitVec 5) (s : State) : Out :=
  .next (s.onEngine fun _ _ s =>
    let va := s.c.getX a
    s.operandAddr va 32 fun s => s.joint [0, va, 0] (.queued (.seq va.toNat) true))

/-- tt.load (R209). -/
def execTtLoad (a : BitVec 5) (t : BitVec 8) (s : State) : Out :=
  .next (s.onEngine fun _ _ s => s.needLimits (t ≠ 0) fun s =>
    let va := s.c.getX a
    s.operandAddr va 64 fun s => s.joint [0, va, 0] (.ttLoad t.toNat va.toNat))

/-- tt.slice (R209). -/
def execTtSlice (t : BitVec 8) (s : State) : Out :=
  .next (s.onEngine fun _ _ s => s.needLimits (t ≠ 0) fun s => s.joint [0, 0, 0] (.ttSlice t.toNat))

/-- tt.inval (R209). -/
def execTtInval (t : BitVec 8) (s : State) : Out :=
  .next (s.onEngine fun _ _ s => s.needLimits (t ≠ 0) fun s => s.joint [0, 0, 0] (.ttInval t.toNat))

end Sys2Proof.Machine
end

