-- ==== Sys2Proof/Machine/Bezel.lean ====
section
/-! DEFINITION. The bezel's instructions: major 0x22 (R220 to R225, R231). The joint ones take effect when their queue entry
starts. -/

namespace Sys2Proof.Machine

/-- bz.locate (R221): single, at issue. -/
def execBzLocate (d : BitVec 5) (s : State) : Out :=
  .next (s.onEngine fun t _ s => s.setXRetire d (s.mm t.val).bz.located)

/-- bz.fix (R222). -/
def execBzFix (d a : BitVec 5) (s : State) : Out :=
  .next (let l := s.c.getX a
    s.joint [0, l, 0] (.queued (.fix d l) true))

/-- bz.retry (R223). -/
def execBzRetry (d : BitVec 5) (s : State) : Out := .next (s.joint [0, 0, 0] (.queued (.retry d) true))

/-- bz.clear (R225): bit 2 of X[a] is for kernel privilege. -/
def execBzClear (a : BitVec 5) (s : State) : Out :=
  .next (s.onEngine fun _ _ s =>
    let x := s.c.getX a
    if bit x 2 && !s.c.kernel then s.trapWord Code.priv else s.joint [0, x, 0] (.queued (.clear x) false))

/-- bz.inject (R224): at user privilege only with bzsite.ui. -/
def execBzInject (a b : BitVec 5) (s : State) : Out :=
  .next (s.onEngine fun t _ s =>
    if !s.c.kernel && !bit (s.mm t.val).bz.site 1 then s.trapWord Code.priv
    else
      let x := s.c.getX a
      let v := s.c.getX b
      s.joint [0, x, v] (.queued (.inject x v) false))

/-- bz.stat (R225): single, at issue. -/
def execBzStat (d a : BitVec 5) (s : State) : Out :=
  .next (s.onEngine fun t _ s => s.setXRetire d (toWord (s.bzStat t.val (bits (s.c.getX a) 2 0))))

end Sys2Proof.Machine
end

