-- ==== Sys2Proof/Machine/Copy.lean ====
section
/-! DEFINITION. The copy engine: the accesses of a request, its kinds, its checks, and the steps by which a request leaves
its queue, signals and completes (R55 to R58, R233 to R249, R260, R261). -/

namespace Sys2Proof.Machine

/-! ### The fields of a request (R237, R240) -/

/-- A word of a request. -/
def CopyReq.w (r : CopyReq) (i : Nat) : Word := r.words.getD i 0
/-- kind. -/
def CopyReq.kind (r : CopyReq) : Nat := bits (r.w 0) 7 0
/-- src, a tensor id or 0. -/
def CopyReq.src (r : CopyReq) : Nat := bits (r.w 0) 15 8
/-- dst, a tensor id or 0. -/
def CopyReq.dst (r : CopyReq) : Nat := bits (r.w 0) 23 16
/-- swz, as tensor-record byte 2. -/
def CopyReq.swz (r : CopyReq) : Nat := bits (r.w 0) 31 27 * 8
/-- cookie. -/
def CopyReq.cookie (r : CopyReq) : Nat := bits (r.w 0) 47 32
/-- sem. -/
def CopyReq.sem (r : CopyReq) : Nat := bits (r.w 0) 55 51
/-- MB. -/
def CopyReq.mb (r : CopyReq) : Bool := bit (r.w 0) 56
/-- UI. -/
def CopyReq.ui (r : CopyReq) : Bool := bit (r.w 0) 57
/-- REL. -/
def CopyReq.rel (r : CopyReq) : Bool := bit (r.w 0) 58
/-- SV. -/
def CopyReq.sv (r : CopyReq) : Bool := bit (r.w 0) 59
/-- MC. -/
def CopyReq.mc (r : CopyReq) : Bool := bit (r.w 0) 60
/-- Has it left its queue, with pieces still to perform? -/
def CopyReq.isRunning (r : CopyReq) : Bool :=
  match r.phase with
  | .running _ => true
  | _ => false
/-- The mark of a qfence in a queue it was not pushed to. -/
def CopyReq.mark (r : CopyReq) : Bool := r.words.isEmpty
/-- A pair of 32-bit halves of a word. -/
def pairOf (w : Word) : Nat × Nat := (bits w 31 0, bits w 63 32)

/-- The tiles of a rectangle field, in rows from the north-west tile; none if it runs off the array (R240, R243). -/
def rectTiles (nw w h : Nat) : Option (List Nat) :=
  if nw % 30 + w > 30 || nw / 30 + h > 30 then none
  else some ((List.range h).flatMap fun y => (List.range w).map fun x => nw + 30 * y + x)

/-- The rectangle of an MC fill or an mcast. -/
def CopyReq.rect (r : CopyReq) : Option (List Nat) :=
  rectTiles (bits (r.w 3) 41 32) (bits (r.w 3) 52 48 + 1) (bits (r.w 3) 60 56 + 1)

/-- The aperture address of an offset of a tile (R40). -/
def apertureVa (tile off : Nat) : Word := toWord (15 * 2 ^ 60 + tile * 2 ^ 22 + off)

/-! ### Accesses (R36 to R40, R233, R245) -/

/-- A request under way: the state, units done, flags of reduce.add, tiles written, and why it stopped. -/
structure CopyRun where
  s : State
  req : CopyReq
  count : Nat
  flags : BitVec 6
  wrote : List Nat
  stop : Option (Nat × Word)

/-- Where an access of a request goes. -/
inductive CopyPlace where
  | at_ (l : Nat) (direct : Bool)
  | device (sp : Byte) (at_ : Word)
  | bad (code : Nat)
  | signet

/-- The checks of one access of a request, under the pusher's privilege (R121, R247, R260, R359); kind 0 read, 1 write. The
write protection of the handler image does not cover it (R182). -/
def State.copyWhere (s : State) (r : CopyReq) (va : Word) (n kind : Nat) : CopyPlace :=
  if isPaged va.toNat then
    match s.translate (tlbTile r.agent) r.spc va true with
    | none => .bad Code.xlate
    | some l =>
      if Config.signetBase ≤ l.pa va then .signet
      else if !permits l.perms kind r.priv then .bad Code.prot
      else match s.checkSpace r.agent r.spc va true (hbmLoc (l.pa va)) with
        | .ok (.loc l) => .at_ l false
        | .ok (.device sp v) => .device sp v
        | .fault code _ => .bad code
        | _ => .bad Code.xlate
  else match s.check r.agent r.spc va n 0 r.priv with
    | .ok (.loc l) => .at_ l (bits va 63 60 = 0)
    | .ok (.device sp v) => .device sp v
    | .fault code _ => .bad code
    | _ => .bad Code.xlate

/-- Stop a request at an address. -/
def CopyRun.fail (c : CopyRun) (code : Nat) (va : Word) : CopyRun := { c with stop := some (code, va) }

/-- A copy request remembers the translation of a paged access in its tile's or core's cache (R260). -/
def CopyRun.note (c : CopyRun) (va : Word) : CopyRun :=
  if isPaged va.toNat then
    match c.s.translate (tlbTile c.req.agent) c.req.spc va true with
    | some l => { c with s := c.s.remember (tlbTile c.req.agent) c.req.spc va l }
    | none => c
  else c

/-- An access of a request to another device of the domain: its packet leaves, and the answer is a free value (R63, R64; log entry
18). -/
def CopyRun.foreign (c : CopyRun) (va : Word) (sp : Byte) (at_ : Word) (n : Nat) (data : Option Nat) : CopyRun × Nat :=
  match (match data with
    | none => c.s.askDevice sp at_ .read n []
    | some v => c.s.askDevice sp at_ .write n (toBytes n v)) with
  | (s, .ok v) => ({ c with s := s }, v)
  | (s, .error code) => ({ c with s := s }.fail code va, 0)

/-- One access of n bytes within a page (R233, R43): a read (`data` none) or a write, whose local-memory blocks get
the stamp if one is given (R246). A request that has stopped does nothing. -/
def CopyRun.inPage (c : CopyRun) (va : Word) (n : Nat) (data : Option Nat) (stamp : Option Nat) : CopyRun × Nat :=
  if c.stop.isSome then (c, 0)
  else match c.s.copyWhere c.req va n (if data.isSome then 1 else 0) with
    | .bad code => (c.fail code va, 0)
    | .signet => ({ c with s := c.s.raiseAlarm .window (alarmAgent c.req.agent) }.fail Code.prot va, 0)
    | .device sp at_ => (c.note va).foreign va sp at_ n data
    | .at_ l direct =>
      let c := c.note va
      let kind : AccKind := if data.isSome then .store else .load
      let x := if direct then c.s.performAt kind l n (data.getD 0)
               else c.s.arrive (srcTile c.req.agent) kind l n (data.getD 0)
      let c := { c with s := x.1 }
      match x.2 with
      | .error code => (c.fail code va, 0)
      | .ok v =>
        if data.isSome && 2 ^ 40 ≤ l then
          let t := (l - 2 ^ 40) / 2 ^ 22
          let s := match stamp with
            | some st => c.s.modTile t fun tl => tl.setStamps ((l - 2 ^ 40) % 2 ^ 22) n st
            | none => c.s
          ({ c with s := s, wrote := if c.wrote.contains t then c.wrote else t :: c.wrote }, v)
        else (c, v)

/-- Do the checks find the place of an access? -/
def CopyRun.reaches (c : CopyRun) (va : Word) (n kind : Nat) : Bool :=
  match c.s.copyWhere c.req va n kind with
  | .at_ _ _ => true
  | .device _ _ => true
  | _ => false

/-- The bytes of a paged access that lie in the page of its first byte. -/
def firstPart (va : Word) (n : Nat) : Nat := if isPaged va.toNat then min n (0x10000 - bits va 15 0) else n

/-- One access of an element or of a run of bytes. An element of a paged base may lie across two pages: each part has its page's
translation, and where one is refused nothing is performed (R239, R358; log entry 80). -/
def CopyRun.io (c : CopyRun) (va : Word) (n : Nat) (data : Option Nat) (stamp : Option Nat) : CopyRun × Nat :=
  let k := firstPart va n
  if k = n then c.inPage va n data stamp
  else
    let kind := if data.isSome then 1 else 0
    let far := va + toWord k
    let more := data.map fun v => v / 2 ^ (8 * k)
    if c.reaches va k kind && !c.reaches far (n - k) kind then c.inPage far (n - k) more stamp
    else
      let x := c.inPage va k (data.map fun v => v % 2 ^ (8 * k)) stamp
      let y := x.1.inPage far (n - k) more stamp
      (y.1, x.2 + y.2 * 2 ^ (8 * k))

/-- The byte runs of [va, va + n) that do not cross a multiple of g. -/
def runsOf (va n g : Nat) : List (Nat × Nat) :=
  if n = 0 then []
  else (List.range ((va % g + n - 1) / g + 1)).map fun i =>
    let lo := if i = 0 then va else va / g * g + g * i
    let hi := min (va + n) (va / g * g + g * (i + 1))
    (lo, hi - lo)

/-- Read n bytes of flat source. -/
def CopyRun.readFlat (c : CopyRun) (va n : Nat) : CopyRun × Nat :=
  (runsOf va n 64).foldl (fun (c, v) (lo, k) =>
    let r := c.io (toWord lo) k none none
    (r.1, v + r.2 * 2 ^ (8 * (lo - va)))) (c, 0)

/-- Write n bytes of flat destination; in local memory through Swz() with the request's swz field (R246). -/
def CopyRun.writeFlat (c : CopyRun) (va n data : Nat) : CopyRun :=
  let swz := c.req.swz
  let flat := isPaged va || bitsN swz 7 7 = 0
  let g := if flat then 64 else min 64 (2 ^ (4 + bitsN swz 6 5))
  (runsOf va n g).foldl (fun c (lo, k) =>
    let to_ := if flat then lo else lo / 2 ^ 22 * 2 ^ 22 + swizzle swz (lo % 2 ^ 22)
    (c.io (toWord to_) k (some (data / 2 ^ (8 * (lo - va)) % 2 ^ (8 * k)))
      (if isPaged va then none else some (stampOf swz))).1) c

/-- Count units once the work before them has not stopped. -/
def CopyRun.tally (c : CopyRun) (n : Nat) : CopyRun := if c.stop.isSome then c else { c with count := c.count + n }

/-- The bytes of a pattern from an address on: byte (A mod 8) at address A (R243). -/
def patternBytes (pat : Word) (va n : Nat) : Nat :=
  fromBytes ((List.range n).map fun i => BitVec.ofNat 8 (pat.toNat / 2 ^ (8 * ((va + i) % 8))))

/-- A piece of a flat copy, or of a flat fill (`src` none), at most 64 bytes within a 64-byte block of the destination, read whole
and then written (R245). -/
def CopyRun.flatPiece (c : CopyRun) (src : Option Nat) (dst : Nat) (pat : Word) (lo k : Nat) : CopyRun :=
  let r := match src with
    | some a => c.readFlat (a + (lo - dst)) k
    | none => (c, patternBytes pat lo k)
  (r.1.writeFlat lo k r.2).tally k

/-- Write one piece at an offset of a tile of a rectangle, as an aperture write; the tile counts with its last piece. An offset past
the tile's local memory stays in that tile's aperture and is refused. -/
def CopyRun.rectTile (c : CopyRun) (t lo k data : Nat) (last : Bool) : CopyRun :=
  let c := if 0x40_0000 < lo + k then c.fail Code.nack (apertureVa t lo) else c.writeFlat (apertureVa t lo).toNat k data
  if last then c.tally 1 else c

/-! ### Tensor sides (R189, R239, R241 to R243) -/

/-- Read an element: its code, or the LQ2 index that holds it. -/
def CopyRun.readElem (c : CopyRun) (r : Vec) (i0 i1 : Nat) : CopyRun × Nat :=
  let x := c.io (elemVa r i0 i1) (elemBytes (recFmt r)) none none
  (x.1, x.2 / 2 ^ elemShift (recFmt r) (recElem r i0 i1) % 2 ^ elemBits (recFmt r))

/-- The bytes at their home that an update of part of a byte, or reduce.add, starts from: such an update needs only W
(R241, R257), so this makes no check of its own. Another device's are read by a packet (R63). -/
def CopyRun.heldPart (c : CopyRun) (va : Word) (n : Nat) : CopyRun × Nat :=
  match c.s.copyWhere c.req va n 1 with
  | .at_ l _ => (c, c.s.mem.read l n)
  | .device sp at_ => if c.stop.isSome then (c, 0) else c.foreign va sp at_ n none
  | _ => (c, 0)

/-- Those bytes of an element, which may lie across two pages. -/
def CopyRun.held (c : CopyRun) (va : Word) (n : Nat) : CopyRun × Nat :=
  let k := firstPart va n
  let x := c.heldPart va k
  if k = n then x
  else
    let y := x.1.heldPart (va + toWord k) (n - k)
    (y.1, x.2 + y.2 * 2 ^ (8 * k))

/-- Write an element through its record's swizzle, with its stamp. -/
def CopyRun.writeElem (c : CopyRun) (r : Vec) (i0 i1 v : Nat) : CopyRun :=
  let fmt := recFmt r
  let va := elemVa r i0 i1
  let n := elemBytes fmt
  let x := if fmt = e2m1 then c.held va n else (c, 0)
  let v := if fmt = e2m1 then putBitsN x.2 (elemShift fmt (recElem r i0 i1)) 4 v else v % 2 ^ elemBits fmt
  (x.1.io va n (some v) (if isPaged va.toNat then none else some (stampOf (recSwz r)))).1

/-- dst + src of reduce.add: with wrap for integers, Round(fmt, RNE, 0, dst + src) with its flags for floats (R241). -/
def CopyRun.addElem (c : CopyRun) (r : Vec) (i0 i1 v : Nat) : CopyRun :=
  let fmt := recFmt r
  let x := c.held (elemVa r i0 i1) (elemBytes fmt)
  if fmt = 0xB || fmt = 0xC then x.1.writeElem r i0 i1 (x.2 + v)
  else
    let res := (sumExact 0 [decodeFmt fmt x.2, decodeFmt fmt v]).round fmt 0 0
    let c := x.1.writeElem r i0 i1 res.code
    if c.stop.isSome then c else { c with flags := c.flags ||| res.flags }

/-- What a window is filled from: another record, from a column on, or a pattern. -/
inductive WindowFrom where
  | rec_ (r : Vec) (o0 : Nat)
  | pattern (p : Word)

/-- Does the element at a column of a window move with its own access? LQ2 moves whole indices, at the first element of each
(R239). -/
def elemMoves (fmt d0 x : Nat) : Bool := !(fmt = lq2 && x ≠ 0 && d0 % 8 ≠ 0)

/-- Does a block scale move with the element: with the first element of its block (R239, R243)? -/
def scaleMoves (fmt d0 x : Nat) : Bool := isScaled fmt && (x = 0 || d0 % 32 = 0)

/-- The access to an element's block scale. That of an aperture base lies in the tile that the base names, whose windows admit no
offset past its local memory (R239). -/
def CopyRun.scale (c : CopyRun) (r : Vec) (i0 i1 : Nat) (data : Option Nat) : CopyRun × Nat :=
  let va := scaleVa r i0 i1
  if bitsN (recBase r) 63 60 = 15 && 0x40_0000 ≤ scaleOff r i0 i1 && c.stop.isNone then (c.fail Code.nack va, 0)
  else c.io va 1 data none

/-- What one element of a window and its block scale are to become. -/
def CopyRun.windowRead (c : CopyRun) (src : WindowFrom) (fmt d0 x s1 : Nat) : CopyRun × Nat × Nat :=
  match src with
  | .pattern p => (c, p.toNat, bits p 63 56)
  | .rec_ r o0 =>
    let v := if elemMoves fmt d0 x then c.readElem r (o0 + x) s1 else (c, 0)
    let sc := if scaleMoves fmt d0 x then v.1.scale r (o0 + x) s1 none else (v.1, 0)
    (sc.1, v.2, sc.2)

/-- Write one element of a window and its block scale. -/
def CopyRun.windowWrite (c : CopyRun) (rd : Vec) (d0 d1 x : Nat) (v sc : Nat) (add tally : Bool) : CopyRun :=
  let c :=
    if elemMoves (recFmt rd) d0 x then (if add then c.addElem rd d0 d1 v else c.writeElem rd d0 d1 v) else c
  let c := if scaleMoves (recFmt rd) d0 x then (c.scale rd d0 d1 (some sc)).1 else c
  if tally then c.tally 1 else c

/-- One piece of a row, from row s1 of the source to row d1 of the destination: the elements at the columns `xs`, all read and then
written. -/
def CopyRun.windowPiece (c : CopyRun) (src : WindowFrom) (rd : Vec) (p0 s1 d1 : Nat) (add tally : Bool) (xs : List Nat) :
    CopyRun :=
  let got := xs.foldl (fun (c, vs) x =>
    let r := CopyRun.windowRead c src (recFmt rd) (p0 + x) x s1
    (r.1, vs ++ [(x, r.2)])) (c, [])
  got.2.foldl (fun c (x, v, sc) => c.windowWrite rd (p0 + x) d1 x v sc add tally) got.1

/-- The pieces of a row: the runs of columns whose destination elements lie in one aligned 64-byte block (R245; DEDUCED, log
entry 33). -/
def rowPieces (rd : Vec) (p0 d1 n0 : Nat) : List (List Nat) :=
  (List.range n0).splitBy fun a b => (elemVa rd (p0 + a) d1).toNat / 64 == (elemVa rd (p0 + b) d1).toNat / 64

/-! ### The checks before the first access (R247) -/

/-- The tensor table that a request reads its records from; a crest core has none (R255). -/
def State.copyTensor (s : State) (r : CopyReq) (n : Nat) : Option Vec :=
  match tileNo r.agent with
  | some t => some ((s.tile t).tensor n)
  | none => none

/-- Does kind 2 or 3 name an index tensor, and do its sides have to be tensors? -/
def CopyReq.tensorKind (r : CopyReq) : Bool := r.kind = 2 || r.kind = 3 || r.kind = 7

/-- The records read when the request leaves (R234). -/
def State.copyRecs (s : State) (r : CopyReq) : CopyRecs :=
  { src := if r.tensorKind || (r.kind = 1 && r.src ≠ 0) then s.copyTensor r r.src else none
    dst := if r.tensorKind || ((r.kind = 1 || r.kind = 4) && r.dst ≠ 0) then s.copyTensor r r.dst else none
    idx := if r.kind = 2 || r.kind = 3 then s.copyTensor r (bits (r.w 1) 7 0) else none }

/-- Does the request name a tensor id at all? -/
def CopyReq.namesTensor (r : CopyReq) : Bool :=
  r.tensorKind || (r.kind = 1 && r.src ≠ 0) || (r.kind = 4 && r.dst ≠ 0)

/-- The TTBAD row of R247. -/
def copyTensorsBad (r : CopyReq) (crest : Bool) (x : CopyRecs) : Bool :=
  let invalid := fun (o : Option Vec) => match o with
    | some v => !recValid v
    | none => false
  (r.namesTensor && crest) || invalid x.src || invalid x.dst || invalid x.idx ||
    (match x.src, x.dst with
     | some a, some b => recFmt a ≠ recFmt b ||
         (r.kind = 7 && !([1, 2, 3, 0xB, 0xC].contains (recFmt a))) ||
         ((r.kind = 2 || r.kind = 3) && recD a 0 ≠ recD b 0)
     | _, _ => false) ||
    (match x.idx with
     | some v => recFmt v ≠ 0xB || recRank v ≠ 1
     | none => false) ||
    (bitsN r.swz 7 7 = 1 && bitsN r.swz 4 3 = 3)

/-- A window inside its tensor. -/
def insideRec (r : Vec) (o n : Nat × Nat) : Bool := o.1 + n.1 ≤ recD r 0 && o.2 + n.2 ≤ recD r 1

/-- The MMBOUND row of R247, under R241 and R242. -/
def copyOutside (r : CopyReq) (x : CopyRecs) : Bool :=
  match x.src, x.dst, x.idx with
  | some a, some b, none =>
    let o := pairOf (r.w 1)
    let p := pairOf (r.w 2)
    let n := pairOf (r.w 3)
    (isScaled (recFmt b) && (o.1 % 32 ≠ 0 || p.1 % 32 ≠ 0 || n.1 % 32 ≠ 0)) || !insideRec a o n || !insideRec b p n
  | some a, some b, some i =>
    let n := bits (r.w 3) 31 0
    bits (r.w 1) 63 32 + n > recD i 0 || bits (r.w 2) 31 0 + n > recD (if r.kind = 2 then b else a) 1
  | none, some b, _ => !insideRec b (pairOf (r.w 1)) (pairOf (r.w 3))
  | _, _, _ => false

/-- Does a request write a rectangle (R243)? -/
def CopyReq.isRect (r : CopyReq) : Bool := r.kind = 5 || (r.kind = 4 && r.mc)

/-- The LMRANGE row of R247: the rules of R243; MC = 1 on a fill with a tensor destination too (DESIGN CHOICE, log entry 33); an mcast
offset with bits 63:22 set (DEDUCED, log entry 33). -/
def copyRectBad (r : CopyReq) : Bool :=
  (r.mc && (r.kind ≠ 4 || r.dst ≠ 0)) ||
    (r.isRect && (r.rect.isNone || bits (r.w (if r.kind = 5 then 2 else 1)) 63 22 ≠ 0))

/-- The request's destination address, where it has one (R239). -/
def CopyReq.destVa (r : CopyReq) (x : CopyRecs) : Option Word :=
  match x.dst with
  | some v => some (toWord (recBase v))
  | none => if r.kind = 1 then some (r.w 2) else if r.kind = 4 then some (r.w 1) else none

/-- The tiles that SV signals (R239): with the aperture address where the V arrives through the aperture; none where there
is no tile to signal, or the address names no tile. -/
def CopyReq.svTiles (r : CopyReq) (x : CopyRecs) : Option (List (Nat × Option Word)) :=
  if r.isRect then
    let off := bits (r.w (if r.kind = 5 then 2 else 1)) 21 0
    (r.rect.getD []).map (fun t => (t, some (apertureVa t off))) |> some
  else
    let own := (tileNo r.agent).map fun t => [(t, none)]
    match r.destVa x with
    | none => own
    | some va => if bits va 63 60 = 15 then some [(bits va 31 22, some va)] else own

/-- The checks of R247 in its order: the first failure's status. -/
def copyStatus (r : CopyReq) (x : CopyRecs) : Option Nat :=
  let k := r.kind
  if k = 0 || 9 < k || (k = 1 && decide (r.src = 0) != decide (r.dst = 0)) then some Code.illegal
  else if k = 8 && (!r.rel || 12 < bits (r.w 2) 3 0 || bits (r.w 3) 15 14 = 0 || bits (r.w 3) 15 14 = 3) then
    some Code.illegal
  else if k = 9 && !r.priv then some Code.priv
  else if copyTensorsBad r (isCrest r.agent) x then some Code.ttbad
  else if copyOutside r x then some Code.mmbound
  else if copyRectBad r then some Code.lmrange
  else if r.sv && (r.svTiles x).isNone then some Code.prot
  else none

/-! ### The pieces of a request (R245) -/

/-- The flat source of a copy or an mcast; none for a fill. -/
def CopyReq.byteSrc (r : CopyReq) : Option Nat := if r.kind = 4 then none else some (r.w 1).toNat
/-- The word of the flat destination, or of the rectangle's offset. -/
def CopyReq.byteDst (r : CopyReq) : Word := if r.kind = 4 then r.w 1 else r.w 2
/-- The pattern of a fill. -/
def CopyReq.pattern (r : CopyReq) : Word := if r.kind = 4 then r.w 2 else 0
/-- The first column and row of the source window; whole rows of a gather's or scatter's tensors. -/
def CopyReq.from_ (r : CopyReq) : Nat × Nat := if r.kind = 1 || r.kind = 7 then pairOf (r.w 1) else (0, 0)
/-- The first column and row of the destination window. -/
def CopyReq.to_ (r : CopyReq) : Nat × Nat :=
  if r.kind = 4 then pairOf (r.w 1) else if r.kind = 1 || r.kind = 7 then pairOf (r.w 2) else (0, 0)
/-- Is it a gather or a scatter? -/
def CopyReq.indexed (r : CopyReq) : Bool := r.kind = 2 || r.kind = 3

/-- What the pieces of a request are filled from. -/
def CopyReq.windowFrom (r : CopyReq) (x : CopyRecs) : WindowFrom :=
  match x.src with
  | some a => .rec_ a r.from_.1
  | none => .pattern r.pattern

/-- The pieces of row s1 of the source and row d1 of the destination. -/
def CopyReq.rowItems (r : CopyReq) (x : CopyRecs) (s1 d1 : Nat) : List CopyItem :=
  let rd := x.dst.getD 0
  let n0 := if r.indexed then recD (x.src.getD 0) 0 else bits (r.w 3) 31 0
  (rowPieces rd r.to_.1 d1 n0).map (.piece s1 d1)

/-- What a request has to do, in the order of R245: a flat copy or fill by pieces, an mcast or a fill of a rectangle by pieces (of
byte count 0 every tile counts at once: DESIGN CHOICE, log entry 33), a window by rows, a gather or scatter by indices. -/
def CopyReq.items (r : CopyReq) (x : CopyRecs) : List CopyItem :=
  let n := pairOf (r.w 3)
  if r.isRect then
    let off := bits r.byteDst 21 0
    if n.1 = 0 then (r.rect.getD []).map fun _ => .counted
    else (runsOf off n.1 64).map fun (lo, k) => .rect lo k
  else if r.indexed then (List.range n.1).map .index
  else if r.kind = 1 || r.kind = 4 || r.kind = 7 then
    match x.dst with
    | some _ => (List.range n.2).map .row
    | none => (runsOf r.byteDst.toNat n.1 64).map fun (lo, k) => .flat lo k
  else []

/-- The row that an index of a gather or scatter names: −1 skips, one outside the tensor stops with MMBOUND (R242). -/
def CopyRun.indexRow (c : CopyRun) (x : CopyRecs) (i : Nat) : CopyRun × List CopyItem :=
  let r := c.req
  let ri := x.idx.getD 0
  let gather : Bool := decide (r.kind = 2)
  let lim := recD ((if gather then x.src else x.dst).getD 0) 1
  let at_ := bits (r.w 1) 63 32 + i
  let row := bits (r.w 2) 31 0 + i
  let got := c.readElem ri at_ 0
  let v := signedN got.2 32
  if got.1.stop.isSome then (got.1, [])
  else if v = -1 then (got.1, [.counted])
  else if v < 0 || (lim : Int) ≤ v then (got.1.fail Code.mmbound (elemVa ri at_ 0), [])
  else
    let s1 := if gather then v.toNat else row
    let d1 := if gather then row else v.toNat
    (got.1, r.rowItems x s1 d1 ++ [.counted])

/-- Perform one item: what it leaves to do next. A piece is indivisible (R245). -/
def CopyRun.item (c : CopyRun) (x : CopyRecs) (i : CopyItem) : CopyRun × List CopyItem :=
  let r := c.req
  if c.stop.isSome then (c, [])
  else match i with
  | .flat lo k => (c.flatPiece r.byteSrc r.byteDst.toNat r.pattern lo k, [])
  | .rect lo k =>
    let off := bits r.byteDst 21 0
    let got := match r.byteSrc with
      | some a => c.readFlat (a + (lo - off)) k
      | none => (c, patternBytes r.pattern lo k)
    (got.1, (r.rect.getD []).map fun t => .rectTile t lo k got.2 (lo + k = off + bits (r.w 3) 31 0))
  | .rectTile t lo k data last => (c.rectTile t lo k data last, [])
  | .row y => (c, r.rowItems x (r.from_.2 + y) (r.to_.2 + y))
  | .piece s1 d1 xs =>
    (c.windowPiece (r.windowFrom x) (x.dst.getD 0) r.to_.1 s1 d1 (r.kind = 7) (!r.indexed) xs, [])
  | .index i => c.indexRow x i
  | .counted => (c.tally 1, [])

/-- Perform items to the end, each with what it leaves to do. -/
def CopyRun.all (c : CopyRun) (x : CopyRecs) (items : List CopyItem) : CopyRun :=
  items.foldl (fun c i =>
    let y := c.item x i
    y.2.foldl (fun c j => (c.item x j).1) y.1) c

/-- Perform so many items: what is left. -/
def CopyRun.some_ (x : CopyRecs) : Nat → CopyRun → List CopyItem → CopyRun × List CopyItem
  | 0, c, l => (c, l)
  | _, c, [] => (c, [])
  | n + 1, c, i :: rest =>
    let y := c.item x i
    CopyRun.some_ x n y.1 (y.2 ++ rest)

/-! ### Queues (R55 to R57, R234) -/

/-- A copy queue. -/
def State.copyQueue (s : State) (o : Owner) (q : Fin 2) : List CopyReq := (s.ni o).cq[q.val]'q.isLt

/-- Replace a copy queue. -/
def State.setCopyQueue (s : State) (o : Owner) (q : Fin 2) (rs : List CopyReq) : State :=
  s.modNi o fun n => { n with cq := n.cq.set q.val rs q.isLt }

/-- Change the requests of a number in a queue. -/
def State.modReq (s : State) (o : Owner) (q : Fin 2) (id : Nat) (f : CopyReq → CopyReq) : State :=
  s.setCopyQueue o q ((s.copyQueue o q).map fun r => if r.id = id then f r else r)

/-- Is the facet of an owner fenced (R163)? -/
def State.ownerFenced (s : State) : Owner → Bool
  | .facet t f => (s.facet t f).fenced
  | .crest _ => false

/-- Is an access, a message or a task decrement of a number still to be performed? -/
def State.unperformed (s : State) (i : Nat) : Bool :=
  (s.net.any fun x => x.id = i) || (s.msgs.any fun m => m.id = i) || s.taskUnits.toList.flatten.any fun x => x.id = i

/-- May a request of a queue go on as far as it is concerned: queued, not held by FREEZE or by a spill under way, and with REL its
pusher's earlier accesses performed (R57, R185, R234, R262)? FREEZE holds a crest core's requests only in a kernel crash (R365). What a
handler pushes once the queues have been spilled may (R33, R183 step 6). -/
def State.mayLeave (s : State) (o : Owner) (r : CopyReq) : Bool :=
  r.phase = .queued && !r.mark && !(s.freeze && (!isCrest r.agent || s.mgmt.crashed)) && !((s.ni o).quiescing && !(s.ni o).spilled) &&
    (!r.rel || r.after.all fun i => !s.unperformed i)

/-- Take a completed request out of its queue; its ring entry closes (R234). -/
def State.dropReq (s : State) (o : Owner) (q : Fin 2) (id : Nat) : State :=
  let rs := s.copyQueue o q
  let s := (rs.filter fun r => r.id = id).foldl (fun s r => s.closeRing o (some r.ring)) s
  s.setCopyQueue o q (rs.filter fun r => r.id ≠ id)

/-- A request whose accesses and V operations are done: a completion is placed when MB = 1, UI = 1 or the status is not
success (R238). -/
def State.afterSignals (s : State) (o : Owner) (q : Fin 2) (r : CopyReq) : State :=
  if r.mb || r.ui || r.status ≠ 0 then s.modReq o q r.id fun _ => { r with phase := .completing }
  else s.dropReq o q r.id

/-- A request whose accesses are done: its V operations follow if it succeeded (R58, R247). -/
def State.afterWork (s : State) (o : Owner) (q : Fin 2) (r : CopyReq) : State :=
  if r.status = 0 && !r.targets.isEmpty then s.modReq o q r.id fun _ => { r with phase := .signalling }
  else s.afterSignals o q r

/-- The outcome of a run, kept in its request; info is the failing address, or the flags of reduce.add (R248). -/
def CopyRun.finish (c : CopyRun) (x : CopyRecs) : CopyReq :=
  let r := c.req
  match c.stop with
  | some (code, va) => { r with status := BitVec.ofNat 8 code, count := c.count, info := va, targets := [], used := c.wrote }
  | none =>
    { r with status := 0, count := c.count, used := c.wrote
             info := if r.kind = 7 then c.flags.setWidth 64 else 0
             targets := if r.sv then (r.svTiles x).getD [] else [] }

/-- An SV address that names no tile stops the request with LMRANGE (R40, R239). -/
def CopyRun.checkSv (c : CopyRun) (x : CopyRecs) : CopyRun :=
  if c.stop.isSome || !c.req.sv || c.req.isRect then c
  else match c.req.destVa x with
    | some va => if bits va 63 60 = 15 && (bits va 59 32 ≠ 0 || 900 ≤ bits va 31 22) then c.fail Code.lmrange va else c
    | none => c

/-- The head request of a queue, if it is of a kind and may leave. -/
def State.headReq (s : State) (o : Owner) (q : Fin 2) (kind : CopyReq → Bool) : Option CopyReq :=
  match s.copyQueue o q with
  | r :: _ => if s.mayLeave o r && kind r then some r else none
  | [] => none

/-- A request as it leaves its queue: a fenced facet's is not performed and completes with NACK (R163); else the checks of R247. -/
def State.leaveQueue (s : State) (o : Owner) (r : CopyReq) (x : CopyRecs) : CopyRun :=
  let c : CopyRun := { s := s, req := r, count := 0, flags := 0, wrote := [], stop := none }
  if s.ownerFenced o then c.fail Code.nack 0
  else match copyStatus r x with
    | some code => c.fail code 0
    | none => c

/-- A request of a kind that does not move bytes piece by piece leaves its queue and runs whole. -/
def State.runReq (s : State) (o : Owner) (q : Fin 2) (kind : CopyReq → Bool) (work : CopyRun → CopyRun) : State :=
  match s.headReq o q kind with
  | none => s
  | some r =>
    let x := s.copyRecs r
    let c := s.leaveQueue o r x
    let c := if c.stop.isSome then c else (work c).checkSv x
    c.s.afterWork o q (c.finish x)

/-- The request at the head of a queue that can go on, if it is of a kind: it leaves, or it has left and has pieces still to perform.
What it has read, and what it has to do. -/
def State.headCopy (s : State) (o : Owner) (q : Fin 2) (kind : CopyReq → Bool) :
    Option (CopyRun × CopyRecs × List CopyItem) :=
  match s.copyQueue o q with
  | [] => none
  | r :: _ =>
    if !kind r then none
    else match r.phase with
      | .running w =>
        let c : CopyRun := { s := s, req := r, count := r.count, flags := w.flags, wrote := r.used, stop := none }
        some (if s.ownerFenced o then c.fail Code.nack 0 else c, w.recs, w.todo)
      | _ =>
        if s.mayLeave o r then some (s.leaveQueue o r (s.copyRecs r), s.copyRecs r, r.items (s.copyRecs r)) else none

/-- The request at the head of a queue performs all that it has to do, then its V operations and its completion follow (R55, R234).
-/
def State.runCopy (s : State) (o : Owner) (q : Fin 2) (kind : CopyReq → Bool) : State :=
  match s.headCopy o q kind with
  | none => s
  | some (c, x, l) =>
    let c := (c.all x l).checkSv x
    c.s.afterWork o q (c.finish x)

/-- It performs only so many of its pieces, and those of other agents may come before the next (R43, R55, R245; log entry 33). -/
def State.copyPieces (s : State) (o : Owner) (q : Fin 2) (n : Nat) : State :=
  match s.headCopy o q fun r => [1, 2, 3, 4, 5, 7].contains r.kind with
  | none => s
  | some (c, x, l) =>
    let y := CopyRun.some_ x n c l
    if y.1.stop.isSome || y.2.isEmpty then
      let c := y.1.checkSv x
      c.s.afterWork o q (c.finish x)
    else y.1.s.modReq o q c.req.id fun r =>
      { r with phase := .running ⟨y.2, x, y.1.flags⟩, count := y.1.count, used := y.1.wrote }

/-- COPY: a copy request, or one of a kind that does not exist (status ILLEGAL). -/
def execCopy (o : Owner) (q : Fin 2) (s : State) : Out :=
  .next (s.runCopy o q fun r => r.kind = 1 || r.kind = 0 || 9 < r.kind)
/-- GATHER. -/
def execGather (o : Owner) (q : Fin 2) (s : State) : Out := .next (s.runCopy o q fun r => r.kind = 2)
/-- SCATTER. -/
def execScatter (o : Owner) (q : Fin 2) (s : State) : Out := .next (s.runCopy o q fun r => r.kind = 3)
/-- FILL. -/
def execFill (o : Owner) (q : Fin 2) (s : State) : Out := .next (s.runCopy o q fun r => r.kind = 4)
/-- MCAST. -/
def execMcast (o : Owner) (q : Fin 2) (s : State) : Out := .next (s.runCopy o q fun r => r.kind = 5)
/-- REDUCE_ADD. -/
def execReduceAdd (o : Owner) (q : Fin 2) (s : State) : Out := .next (s.runCopy o q fun r => r.kind = 7)

/-! ### qfence (R56, R244) -/

/-- The copy queues that a qfence names, its own included: of its tile, or of its crest core (R255). -/
def fenceQueues (o : Owner) (q : Fin 2) (r : CopyReq) : List (Owner × Fin 2) :=
  let mask := bits (r.w 1) 8 0
  let all : List (Owner × Fin 2) := match o with
    | .facet t _ => fourFacets.flatMap fun f => [(.facet t f, 0), (.facet t f, 1)]
    | .crest k => [(.crest k, 0), (.crest k, 1)]
  let pick := all.zipIdx.filter fun (x, i) => mask / 2 ^ i % 2 = 1 || x = (o, q)
  pick.map fun (x, _) => x

/-- Does it name the matrix queue? -/
def fenceMatrix (o : Owner) (r : CopyReq) : Option Nat :=
  match o with
  | .facet t _ => if bits (r.w 1) 8 8 = 1 then some t.val else none
  | .crest _ => none

/-- Has every entry ahead of a qfence in a queue been performed? -/
def aheadDone (rs : List CopyReq) (id : Nat) : Bool := (rs.takeWhile fun r => r.id ≠ id).all fun r => r.phase = .completing

/-- Does a spill keep a qfence's mark, with the entries ahead of it still to perform (R56, R262)? -/
def Ni.keepsMark (n : Ni) (q : Fin 2) (id : Nat) : Bool := n.spilled && (n.kept.cq[q.val]'q.isLt).any fun x => x.id = id

/-- Is a qfence satisfied (R56)? -/
def State.fenceSatisfied (s : State) (o : Owner) (q : Fin 2) (r : CopyReq) : Bool :=
  ((fenceQueues o q r).all fun (o', q') => !(s.ni o').keepsMark q' r.id && aheadDone (s.copyQueue o' q') r.id) &&
    match fenceMatrix o r with
    | some t => match (s.mm t).queue with
      | e :: _ => e.id = r.id || !((s.mm t).queue.any fun e => e.id = r.id)
      | [] => true
    | none => true

/-- Take the marks of a satisfied qfence out of the queues it was not pushed to. -/
def State.liftMarks (s : State) (o : Owner) (q : Fin 2) (r : CopyReq) : State :=
  let s := (fenceQueues o q r).foldl (fun s (o', q') =>
    if (o', q') = (o, q) then s else s.setCopyQueue o' q' ((s.copyQueue o' q').filter fun x => x.id ≠ r.id)) s
  match fenceMatrix o r with
  | some t => s.modMm t fun m => { m with queue := m.queue.filter fun e => e.id ≠ r.id }
  | none => s

/-- The qfence of a queue that has just been satisfied, if there is one. -/
def State.satisfiedFence (s : State) (o : Owner) (q : Fin 2) : Option CopyReq :=
  (s.copyQueue o q).find? fun r =>
    r.kind = 6 && s.mayLeave o r && s.fenceSatisfied o q r

/-- QFENCE: a satisfied qfence lets the entries behind its marks start; at the head of its own queue it completes, with the
checks of R247 and the V of R239. -/
def execQfence (o : Owner) (q : Fin 2) (s : State) : Out :=
  .next (let s := match s.satisfiedFence o q with
      | some r => (s.liftMarks o q r).modReq o q r.id fun r => { r with phase := .fenced }
      | none => s
    match s.copyQueue o q with
    | r :: _ =>
      if r.phase = .fenced then
        let x := s.copyRecs r
        s.afterWork o q ((s.leaveQueue o r x).finish x)
      else s
    | [] => s)

/-! ### tlbinv (R261) -/

/-- Is a cached translation named by a tlbinv? -/
def tlbinvNames (r : CopyReq) (e : TlbEntry) : Bool :=
  bit (r.w 2) 8 || (e.space.toNat = bits (r.w 2) 7 0 &&
    (r.w 1).toNat / 0x10000 ≤ e.page && e.page < (r.w 1).toNat / 0x10000 + bits (r.w 3) 31 0)

/-- The space of an address that has been translated, in the network. -/
def paged (l : Nat) : Bool := l < 2 ^ 40

/-- TLBINV: every cache of the device and every crest core drops the named translations; it completes only after every
access that used one has been performed. Which of the accesses in flight did so the model does not keep: it waits for all
paged ones, those to other devices among them (DESIGN CHOICE, log entry 13). -/
def execTlbinv (o : Owner) (q : Fin 2) (s : State) : Out :=
  .next (if s.net.any fun x => x.todo.any fun e => match e.target with
        | .loc l => paged l
        | .device _ _ => isPaged e.va.toNat
      then s
    else s.runReq o q (fun r => r.kind = 9) fun c =>
      { c with
        s := { c.s with tiles := ⟨c.s.tiles.cells.map fun (n, t) =>
                 (n, { t with tlb := t.tlb.filter fun e => !tlbinvNames c.req e })⟩ }
        count := bits (c.req.w 3) 31 0 })

/-! ### SEMAPHORE_V (R58, R239) -/

/-- Does some window of nonempty range of a tile grant W to a source (R239)? -/
def State.grantsV (s : State) (t : Nat) (src : Option Nat) : Bool :=
  (s.tile t).win.toList.any fun w => windowAdmits w (bits w 21 0) 0 false true (s.sameGang t src) (s.sameRegion t src)

/-- Is a V that arrives through the aperture admitted: the request wrote to that tile, or a window grants it (R239); a fenced or
spilled tile refuses it (R163, R264)? -/
def State.vAdmitted (s : State) (r : CopyReq) (t : Nat) : Bool :=
  !s.shut t && (r.used.contains t || s.grantsV t (srcTile r.agent))

/-- The V of a request at one of its tiles: at the pushing tile itself; through the aperture where the tile admits it; in another
device's space as a packet for that device (R37, R239). Or the code of its refusal. -/
def State.sendV (s : State) (r : CopyReq) (t : Nat) : Option Word → State × Option Nat
  | none => (s.semGive t r.sem, none)
  | some va =>
    if s.ownSpace r.spc then
      if s.vAdmitted r t then (s.semGive t r.sem, none) else (s, some Code.nack)
    else match s.askDevice r.spc va .signal 0 [BitVec.ofNat 8 r.sem] with
      | (s, .ok _) => (s, none)
      | (s, .error code) => (s, some code)

/-- SEMAPHORE_V: the next destination of the head request receives its V, or refuses it and the request ends with the refusal's
status, NACK at a tile of this device. -/
def execSemaphoreV (o : Owner) (q : Fin 2) (s : State) : Out :=
  .next (match s.copyQueue o q with
    | r :: _ =>
      if r.phase ≠ .signalling then s
      else match r.targets with
        | [] => s.afterSignals o q r
        | (t, via) :: rest =>
          match s.sendV r t via with
          | (s, some code) => s.afterSignals o q { r with targets := [], status := BitVec.ofNat 8 code, info := via.getD 0 }
          | (s, none) =>
            if rest.isEmpty then s.afterSignals o q { r with targets := [] }
            else s.modReq o q r.id fun _ => { r with targets := rest }
    | [] => s)

/-! ### COMPLETION (R58, R176, R238, R248, R250) -/

/-- The two doublewords of a completion. -/
def CopyReq.entry (r : CopyReq) (held : Bool) : MailEntry :=
  { ctx := ctxNo r.agent
    lo := toWord (r.cookie + r.kind * 2 ^ 16 + r.status.toNat * 2 ^ 24 + r.count % 2 ^ 32 * 2 ^ 32)
    hi := r.info, held := held, reserve := false }

/-- Is there an entry that software may fill: 31 of a facet's, all 32 of a crest core's, which gets no HBMISS notice (R250,
R255)? -/
def State.room (s : State) (o : Owner) : Bool :=
  let used := ((s.ni o).mail.filter fun e => !e.reserve).length
  match o with
  | .facet _ _ => used < 31
  | .crest _ => used < 32

/-- COMPLETION: the head request's completion is placed once an entry is free; one for a user-level interrupt is pended to
its context when uvec.en = 1, and waits in its entry (R176). -/
def execCompletion (o : Owner) (q : Fin 2) (s : State) : Out :=
  .next (match s.copyQueue o q with
    | r :: _ =>
      if r.phase ≠ .completing || !s.room o then s
      else
        let pend : Bool := r.ui && bit (s.ctx r.agent).uvec 0
        let e := r.entry pend
        let s := s.modNi o fun n => { n with mail := n.mail ++ [e] }
        let s := if pend then s.modCtx r.agent fun c => { c with pending := c.pending ++ [⟨1, e.lo, e.hi⟩] } else s
        s.dropReq o q r.id
    | [] => s)

end Sys2Proof.Machine
end

