-- ==== Sys2Proof/Machine/Netif.lean ====
section
/-! DEFINITION. Majors 0x24 to 0x27: pushing copy requests, the spill area, messages, mailboxes, the tag table; and the
network interface's own steps (R164, R233 to R236, R250 to R266, R359 to R363). -/

namespace Sys2Proof.Machine

/-! ### Pushing (R234 to R236, R175) -/

/-- The facet or crest core of the context in issue. -/
def State.me (s : State) : Owner := ownerOf s.cur

/-- Is a copy queue full: 8 entries (R234)? -/
def State.copyFull (s : State) (o : Owner) (q : Fin 2) : Bool := decide (8 ≤ (s.copyQueue o q).length)

/-- The queue that a request names. -/
def queueOf (w0 : Word) : Fin 2 := if bit w0 48 then 1 else 0

/-- The queues that the mark of a qfence could wait for, numbered as the park of cpy.push names them: 0 and 1 the pusher's own
queues, 2 + 2f + q queue q of facet f of the tile (2 + q those of a crest core), 10 the matrix queue. -/
def State.placeFull (s : State) (o : Owner) (n : Nat) : Bool :=
  if n < 2 then s.copyFull o (if n = 0 then 0 else 1)
  else match o with
    | .crest _ => s.copyFull o (if n % 2 = 0 then 0 else 1)
    | .facet t _ =>
      if n = 10 then decide (8 ≤ (s.mm t.val).queue.length)
      else match facetOwner t.val ((n - 2) / 2) with
        | some o' => s.copyFull o' (if n % 2 = 0 then 0 else 1)
        | none => false

/-- The queues that a push of a request enters: its own, and those that a qfence names (R56, R244). -/
def entersQueues (o : Owner) (r : CopyReq) : List Nat :=
  let q := queueOf (r.w 0)
  q.val :: (if r.kind = 6 then
    ((fenceQueues o q r).filter fun x => x ≠ (o, q)).map (fun (o', q') =>
      2 + q'.val + match o' with
        | .facet _ f => 2 * f.val
        | .crest _ => 0) ++ (if (fenceMatrix o r).isSome then [10] else [])
  else [])

/-- The first queue that has no place for a request or its mark (R187, R234; DEDUCED, log entry 34). -/
def State.noPlace (s : State) (o : Owner) (r : CopyReq) : Option Nat := (entersQueues o r).find? (s.placeFull o)

/-- The request that a push makes, but for its ring entry. -/
def State.request (s : State) (words : List Word) : CopyReq :=
  let a := s.cur
  { id := s.nextId, words := words, agent := a, spc := s.c.spc, priv := s.c.kernel, ring := 0, phase := .queued
    after := s.openAccesses a false ++ s.openAccesses a true ++ s.openMessages a ++ s.openDecrements a
    status := 0, count := 0, info := 0, targets := [], used := [] }

/-- Enter a request at the tail of its queue; a qfence's mark at the tail of every other queue it names (R56). -/
def State.enter (s : State) (o : Owner) (r : CopyReq) : State :=
  let q := queueOf (r.w 0)
  let s := s.setCopyQueue o q (s.copyQueue o q ++ [r])
  if r.kind ≠ 6 then s
  else
    let mark := { r with words := [] }
    let s := (fenceQueues o q r).foldl (fun s (o', q') =>
      if (o', q') = (o, q) then s else s.setCopyQueue o' q' (s.copyQueue o' q' ++ [mark])) s
    match fenceMatrix o r with
    | some t => s.modMm t fun m =>
        { m with queue := m.queue ++ [{ id := r.id, op := .qfence, recs := [], seqs := Vector.replicate 4 0, pos := 0,
                                        held := [], stopping := false, flags := 0, kts := 0 }] }
    | none => s

/-- The four words of a request in a run of registers. -/
def requestWords (c : Ctx) (a : BitVec 5) : List Word := [0, 1, 2, 3].map fun i => c.xn (a.toNat + i)

/-- Push the request of the instruction in issue and take a ring entry, whose op words are the request's. -/
def State.pushRequest (s : State) (a : BitVec 5) (k : State → State) : State :=
  let words := requestWords s.c a
  s.needRing fun s =>
    match s.takeRing words with
    | (s, seq) => k ({ s with nextId := s.nextId + 1 }.enter s.me { s.request words with ring := seq })

/-- cpy.push: parks while the queue is full (R236). -/
def execCpyPush (a : BitVec 5) (s : State) : Out :=
  .next (s.needLimits (a.toNat ≤ 28) fun s =>
    let r := s.request (requestWords s.c a)
    match s.noPlace s.me r with
    | some n => s.park (.copyFull n)
    | none => s.pushRequest a State.retire)

/-- cpy.try. -/
def execCpyTry (d a : BitVec 5) (s : State) : Out :=
  .next (s.needLimits (a.toNat ≤ 28) fun s =>
    if (s.noPlace s.me (s.request (requestWords s.c a))).isSome then s.setXRetire d 1
    else s.pushRequest a fun s => s.setXRetire d 0)

/-! ### HBMISS notices in the kept entry (R250) -/

/-- The oldest held notice takes the kept entry if it is free; not while the facet is spilled, whose mailbox is in the spill area
(R250, R262). -/
def Ni.placeNotice (n : Ni) : Ni :=
  match n.notices with
  | x :: rest =>
    if n.spilled || n.mail.any fun e => e.reserve then n else { n with mail := n.mail ++ [x], notices := rest }
  | [] => n

/-- An HBMISS notice arrives: it takes the kept entry or waits behind those held (R250). -/
def Ni.notice (n : Ni) (e : MailEntry) : Ni := Ni.placeNotice { n with notices := n.notices ++ [e] }

/-! ### The spill area (R262 to R264) -/

/-- The network-interface spill area (R180, R263). -/
def spillArea : Nat := 0x3F_9000

/-- Write bytes into a tile's spill area. -/
def State.spillPut (s : State) (t off : Nat) (bs : List Byte) : State :=
  { s with mem := s.mem.setBytes (lmLoc t (spillArea + off)) bs }

/-- Read a value of a tile's spill area. -/
def State.spillGet (s : State) (t off n : Nat) : Nat := s.mem.read (lmLoc t (spillArea + off)) n

/-- The tag byte of a mailbox entry: its context's ctxid (R263). -/
def entryTag (f : Nat) (e : MailEntry) : Nat := f * 16 + e.ctx

/-- The place of entry i of a facet's mailbox, and of overflow slot i of a facet (R263). -/
def mailSlot (f i : Nat) : Nat := 0x4400 + 0x200 * f + 16 * i
/-- An overflow slot: two to a facet. -/
def pastSlot (f i : Nat) : Nat := 0x5B80 + 32 * f + 16 * i

/-- The two doublewords of a mailbox entry, as bytes. -/
def MailEntry.bytes (e : MailEntry) : List Byte := wordBytes [e.lo, e.hi]

/-- Write a facet's mailbox entries and their tags, and its overflow entries (R262 steps 2 and 3, R263). -/
def State.spillMail (s : State) (t f : Nat) (past mail : List MailEntry) : State :=
  let s := (past.take 2).zipIdx.foldl (fun s (e, i) => s.spillPut t (pastSlot f i) e.bytes) s
  (mail.take 32).zipIdx.foldl (fun s (e, i) =>
    (s.spillPut t (mailSlot f i) e.bytes).spillPut t (0x5C00 + 32 * f + i) (toBytes 1 (entryTag f e))) s

/-- A mailbox entry with the doublewords that the area holds for it. -/
def State.mailAt (s : State) (t slot : Nat) (e : MailEntry) : MailEntry :=
  { e with lo := toWord (s.spillGet t slot 8), hi := toWord (s.spillGet t (slot + 8) 8) }

/-- The mailbox as a reload finds it: the overflow entries ahead of the others, with the doublewords and the contexts that the
area holds (R262). -/
def State.unspillMail (s : State) (t f : Nat) (x : Kept) : List MailEntry :=
  (x.past.zipIdx.map fun (e, i) => if i < 2 then s.mailAt t (pastSlot f i) e else e) ++
    x.mail.zipIdx.map fun (e, i) =>
      if i < 32 then { s.mailAt t (mailSlot f i) e with ctx := s.spillGet t (0x5C00 + 32 * f + i) 1 % 16 } else e

/-- The number of a place for a spilled request: entry i of queue q of facet f. -/
def reqSlot (f q i : Nat) : Nat := 8 * (2 * f + q) + i

/-- Write a queue: 32 bytes of words, spc and ctxid for each of its requests (R262 step 3, R263), of which the area has places for
8; the mark of a qfence of another queue has no words. -/
def State.spillQueue (s : State) (t f q : Nat) (rs : List CopyReq) : State :=
  (rs.take 8).zipIdx.foldl (fun s (r, i) =>
    (s.spillPut t (0x4C00 + 32 * reqSlot f q i) (wordBytes ([0, 1, 2, 3].map fun j => r.w j))).spillPut t
      (0x5D70 + 2 * reqSlot f q i) (toBytes 1 r.spc.toNat ++ toBytes 1 (f * 16 + ctxNo r.agent))) s

/-- Read a queue back, in its order: the words, spc and ctxid that the area holds of each request that was spilled (R262,
R263); those behind the first 8, as what a handler pushes while its facet is spilled leaves, come back as they were (log entry 35).
-/
def State.unspillQueue (s : State) (t : Fin 900) (f : Fin 4) (q : Nat) (rs : List CopyReq) : List CopyReq :=
  rs.zipIdx.map fun (r, i) =>
    let slot := reqSlot f.val q i
    let k := s.spillGet t.val (0x5D70 + 2 * slot + 1) 1 % 16
    if 8 ≤ i then r
    else { r with
      words := if r.mark then [] else [0, 1, 2, 3].map fun j => toWord (s.spillGet t.val (0x4C00 + 32 * slot + 8 * j) 8)
      spc := BitVec.ofNat 8 (s.spillGet t.val (0x5D70 + 2 * slot) 1)
      agent := if h : k < 11 then .facet t f ⟨k, h⟩ else .facet t f 0 }

/-- Write the tile-wide state (R263). -/
def State.spillTile (s : State) (t : Nat) : State :=
  let tl := s.tile t
  let s := (List.range 256).foldl (fun s n => s.spillPut t (60 * n) (toBytes 60 (tl.tensor n).toNat)) s
  let s := s.spillPut t 0x3C00 ((List.range 512).flatMap fun n => toBytes 4 (tl.tags.get 0 n).toNat)
  let s := s.spillPut t 0x5400 ((List.range 1920).map fun n =>
    BitVec.ofNat 8 (tl.stamp (2 * n) % 16 + tl.stamp (2 * n + 1) % 16 * 16))
  let s := s.spillPut t 0x5C80 (wordBytes tl.win.toList)
  let s := s.spillPut t 0x5CA0 (tl.mutexes.toList.map fun m => match m.owner with
    | some a => BitVec.ofNat 8 (0x80 + a.toNat)
    | none => 0)
  let s := s.spillPut t 0x5CB0 (tl.sems.toList.flatMap fun x =>
    toBytes 4 (x.count.toNat + if x.ovf then 2 ^ 16 else 0))
  s.spillPut t 0x5D30 (tl.channels.toList.flatMap fun x => toBytes 4 x.count.toNat)

/-- Load the tile-wide state; chk of each tensor record is recomputed. The translation cache is emptied (R260). The arrivals of a
channel's open phase stand beside its count as they were (R134). -/
def State.unspillTile (s : State) (t : Nat) : State :=
  s.modTile t fun tl =>
    let tl := (List.range 256).foldl (fun (tl : Tile) n =>
      let v := s.spillGet t (60 * n) 60
      tl.setTensor n (if v = 0 then 0 else recSeal (BitVec.ofNat 512 v))) tl
    { tl with
      tlb := []
      tags := (List.range 512).foldl (fun (tb : Table (BitVec 32)) n =>
        let v := s.spillGet t (0x3C00 + 4 * n) 4
        if v = 0 then tb.del n else tb.put n (BitVec.ofNat 32 v)) tl.tags
      stamps := (List.range 3840).foldl (fun (tb : Table Nat) n =>
        let v := s.spillGet t (0x5400 + n / 2) 1 / 16 ^ (n % 2) % 16
        if v = 0 then tb.del n else tb.put n v) tl.stamps
      win := Vector.ofFn fun i => toWord (s.spillGet t (0x5C80 + 8 * i.val) 8) &&& 0xF03F_FFFF_003F_FFFF
      mutexes := Vector.ofFn fun i =>
        let v := s.spillGet t (0x5CA0 + i.val) 1
        ⟨if bitsN v 7 7 = 1 then some (BitVec.ofNat 6 v) else none, []⟩
      sems := Vector.ofFn fun i =>
        let v := s.spillGet t (0x5CB0 + 4 * i.val) 4
        ⟨BitVec.ofNat 16 v, bitsN v 16 16 = 1, []⟩
      channels := Vector.ofFn fun (i : Fin 16) =>
        { tl.channels[i] with count := BitVec.ofNat 32 (s.spillGet t (0x5D30 + 4 * i.val) 4) } }

/-- Has a queue an active request that cpy.quiesce waits for: one with pieces still to perform, one that is signalling, or a
completion that the mailbox has room for (R262 step 2)? -/
def State.active (s : State) (o : Owner) (q : Fin 2) : Bool :=
  match s.copyQueue o q with
  | r :: _ => r.isRunning || r.phase = .signalling || (r.phase = .completing && s.room o)
  | [] => false

/-- The completion of a queue that found the mailbox full, with its request's number. -/
def State.overflow (s : State) (o : Owner) (q : Fin 2) : List (Nat × MailEntry) :=
  match s.copyQueue o q with
  | r :: _ => if r.phase = .completing then [(r.id, r.entry (r.ui && bit (s.ctx r.agent).uvec 0))] else []
  | [] => []

/-- Take the qfence marks of spilled qfences out of the matrix queue; their reload enters them again. -/
def State.dropFences (s : State) (t : Nat) (rs : List CopyReq) : State :=
  s.modMm t fun m => { m with queue := m.queue.filter fun e =>
    !(e.op = .qfence && rs.any fun r => !r.mark && r.id = e.id) }

/-- What a facet's spill keeps: the completions that found the mailbox full go to the overflow slots as far as there are free
ones, with the entries that a reload has left beyond the mailbox's 32 (DESIGN CHOICE, log entry 35); the rest stay in their
queues. One that goes there for a user-level interrupt is pended to its context, behind those that wait (R176, R183 step 5). Also
the numbers of the completions that leave their queues so. -/
def State.keeps (s : State) (t : Fin 900) (f : Fin 4) : Kept × List Nat :=
  let o := Owner.facet t f
  let mail := (s.ni o).mail
  let extra := mail.length - 32
  let past : List (Nat × MailEntry) := (s.overflow o 0 ++ s.overflow o 1).take (2 - extra)
  let ids := past.map fun x => x.1
  ({ cq := (s.ni o).cq.map fun (rs : List CopyReq) => rs.filter fun r => !ids.contains r.id
     past := mail.take extra ++ past.map fun x => x.2, mail := mail.drop extra
     pending := (List.finRange 11).flatMap fun k =>
       ((s.ctx (.facet t f k)).pending ++
         ((past.filter fun x => x.2.held && x.2.ctx = k.val).map fun x => (⟨1, x.2.lo, x.2.hi⟩ : UserInt))).map
           fun u => (k, u) }, ids)

/-- cpy.quiesce with bit 0 = 0, once no request is active: steps 2 to 4 of R262. -/
def State.spillFacet (s : State) (t : Fin 900) (f : Fin 4) : State :=
  let o := Owner.facet t f
  let x := s.keeps t f
  let s := x.2.foldl (fun s id => (s.dropReq o 0 id).dropReq o 1 id) s
  let s := s.spillMail t.val f.val x.1.past x.1.mail
  let s := s.spillQueue t.val f.val 0 x.1.cq[0]
  let s := s.spillQueue t.val f.val 1 x.1.cq[1]
  let s := s.dropFences t.val (x.1.cq[0] ++ x.1.cq[1])
  let s := (facetAgents t f).foldl (fun s a => s.modCtx a fun c => { c with pending := [] }) s
  let s := s.modNi o fun n => { n with cq := Vector.replicate 2 [], mail := [], spilled := true, kept := x.1 }
  if fourFacets.all fun g => (s.ni (.facet t g)).spilled then
    (s.spillTile t.val).modTile t.val fun tl => { tl with spilled := true }
  else s

/-- Enter the matrix-queue mark of a reloaded qfence that names the matrix queue. -/
def State.refence (s : State) (t : Fin 900) (f : Fin 4) (rs : List CopyReq) : State :=
  rs.foldl (fun s r =>
    if r.kind = 6 && !r.mark && r.phase = .queued then
      match fenceMatrix (.facet t f) r with
      | some t => s.modMm t fun m =>
          { m with queue := m.queue ++ [{ id := r.id, op := .qfence, recs := [], seqs := Vector.replicate 4 0, pos := 0,
                                          held := [], stopping := false, flags := 0, kts := 0 }] }
      | none => s
    else s) s

/-- cpy.quiesce with bit 0 = 1: tile-wide state when the first facet reloads, then the mailbox with the overflow entries
ahead of the others, then the queued requests ahead of any new push; the refusals end (R262, R264). The user-level interrupts
that waited are pending again, ahead of any that has come since (R176, R186), and a notice that waited takes the kept entry if
it is free (R250). -/
def State.reloadFacet (s : State) (t : Fin 900) (f : Fin 4) : State :=
  let o := Owner.facet t f
  let x := (s.ni o).kept
  let s := if (s.tile t.val).spilled then (s.unspillTile t.val).modTile t.val fun tl => { tl with spilled := false } else s
  let mail := s.unspillMail t.val f.val x
  let q0 := s.unspillQueue t f 0 x.cq[0]
  let q1 := s.unspillQueue t f 1 x.cq[1]
  let s := s.modNi o fun n =>
    Ni.placeNotice { n with mail := mail ++ n.mail, quiescing := false, spilled := false, kept := Kept.initial
                            cq := (n.cq.set 0 (q0 ++ n.cq[0])).set 1 (q1 ++ n.cq[1]) }
  let s := (List.finRange 11).foldl (fun s k => s.modCtx (.facet t f k) fun c =>
    { c with pending := (x.pending.filter fun u => u.1 = k).map (fun u => u.2) ++ c.pending }) s
  s.refence t f (q0 ++ q1)

/-- cpy.quiesce: kernel only; PROT on a crest core (R255, R262). -/
def execCpyQuiesce (a : BitVec 5) (s : State) : Out :=
  .next (s.needKernel fun s =>
    match s.cur with
    | .crest _ _ => s.trapWord Code.prot
    | .facet t f _ =>
      if bit (s.c.getX a) 0 then s.retire.reloadFacet t f
      else
        let s := s.modNi (.facet t f) fun n => { n with quiescing := true }
        if s.active (.facet t f) 0 || s.active (.facet t f) 1 then s.park .quiesce
        else s.retire.spillFacet t f)

/-! ### Messages (R253 to R255) -/

/-- The tiles that a destination word names: one, or with msg.mcast the rectangle's; none for a bad word (R253). -/
def messageTiles (w : Word) (mcast : Bool) : Option (List Nat) :=
  if 900 ≤ bits w 9 0 || 10 < bits w 27 24 then none
  else if mcast then rectTiles (bits w 9 0) (bits w 52 48 + 1) (bits w 60 56 + 1)
  else some [bits w 9 0]

/-- The destination word with another tile. -/
def withTile (w : Word) (t : Nat) : Word := (w &&& ~~~0x3FF) ||| toWord t

/-- The doubleword of a message's cookie, kind, status 0 and count (R254). -/
def messageLo (a : Agent) (b : Word) : Word :=
  toWord (bits b 23 0 + ((tileNo a).getD 0xFFFF * 2 ^ 16 + ctxid a) * 2 ^ 32)

/-- Where a message goes: a crest core, or a facet of a tile. -/
def messageOwner (w : Word) : Option Owner :=
  if bit w 63 then some (.crest ⟨bits w 4 0 % 32, Nat.mod_lt _ (by omega)⟩)
  else facetOwner (bits w 9 0) (bits w 17 16)

/-- The context that a destination word names. -/
def messageCtx (w : Word) : Nat := if bit w 63 then bits w 24 24 else bits w 27 24

/-- Put the messages of the instruction in issue on their way, one for each destination word. -/
def State.sendMessages (s : State) (dests : List Word) (lo hi : Word) (ring : BitVec 16) : State :=
  let group := s.nextId
  dests.foldl (fun s w =>
    match messageOwner w with
    | none => s
    | some o =>
      { s with
        msgs := s.msgs ++ [{ id := s.nextId, group := group, sender := some s.cur, kernel := s.c.kernel, dest := o
                             ctx := messageCtx w, lo := lo, hi := hi, destWord := w, ring := some ring, refusals := [] }]
        nextId := s.nextId + 1 }) s

/-- A message to another device of the domain is a remote store of 16 bytes there (R253, R254, R63). -/
def State.sendForeign (s : State) (dests : List Word) (lo hi : Word) (ring : BitVec 16) : State :=
  let es := dests.zipIdx.map fun (w, i) =>
    (⟨i, w, .device s.c.spc w, 16, lo.toNat + hi.toNat * 2 ^ 64⟩ : Elem)
  { s with
    net := s.net ++ [{ id := s.nextId, agent := s.cur, kind := .store, todo := es, done := []
                       refused := none, back := .none, latch := s.latch, ring := some ring }]
    nextId := s.nextId + 1 }

/-- msg.send and msg.mcast: the checks of R265, a release for the .rel forms, then the messages; from a fenced facet they
are refused at once (R163). Of several checks that fail LMRANGE comes first, then XLATE, then PROT, and they come before a .rel form
waits (DESIGN CHOICE, log entry 86). -/
def State.message (s : State) (a b : BitVec 5) (mcast rel : Bool) : State :=
  s.needLimits (b.toNat ≠ 31) fun s =>
    let w := s.c.getX a
    let v := s.c.getX b
    let hi := s.c.xn (b.toNat + 1)
    let crest := bit w 63
    match (if crest then (if mcast then none else some [w]) else (messageTiles w mcast).map fun ts => ts.map (withTile w)) with
    | none => s.trap Code.lmrange w
    | some dests =>
      if !s.memberSpace s.c.spc then s.trap Code.xlate w
      else if bits v 23 16 < 0x80 || 0xEF < bits v 23 16 then s.trapWord Code.prot
      else
        let go := fun (s : State) => s.needRing fun s =>
          match s.takeRing [w, v, hi] with
          | (s, seq) =>
            let lo := messageLo s.cur v
            let s' := if s.isFenced s.cur then
                (s.closeRing s.me (some seq)).addLate s.cur
                  ⟨BitVec.ofNat 8 Code.nack, dests.headD w, some seq, none, false⟩
              else if s.ownSpace s.c.spc then s.sendMessages dests lo hi seq
              else s.sendForeign dests lo hi seq
            s'.retire
        if rel then s.afterRelease go else go s

/-- msg.send. -/
def execMsgSend (a b : BitVec 5) (s : State) : Out := .next (s.message a b false false)
/-- msg.send.rel. -/
def execMsgSendRel (a b : BitVec 5) (s : State) : Out := .next (s.message a b false true)
/-- msg.mcast. -/
def execMsgMcast (a b : BitVec 5) (s : State) : Out := .next (s.message a b true false)
/-- msg.mcast.rel. -/
def execMsgMcastRel (a b : BitVec 5) (s : State) : Out := .next (s.message a b true true)

/-! ### Mailboxes (R250 to R252) -/

/-- A context's own entries, oldest first. -/
def State.entries (s : State) (a : Agent) : List MailEntry :=
  (s.ni (ownerOf a)).mail.filter fun e => e.ctx = ctxNo a && !e.held

/-- Take the oldest own entry of a context out of a mailbox; a held notice takes a kept entry that frees. -/
def Ni.pop (n : Ni) (ctx : Nat) : Ni :=
  match n.mail.find? fun e => e.ctx = ctx && !e.held with
  | none => n
  | some e =>
    let rec drop : List MailEntry → List MailEntry
      | [] => []
      | x :: rest => if x.ctx = ctx && !x.held then rest else x :: drop rest
    let n := { n with mail := drop n.mail }
    if e.reserve then n.placeNotice else n

/-- mbox.wait. -/
def execMboxWait (s : State) : Out := .next (if (s.entries s.cur).isEmpty then s.park .mailbox else s.retire)

/-- mbox.pop: two registers; with no entry, all ones and 0. -/
def execMboxPop (d : BitVec 5) (s : State) : Out :=
  .next (s.needLimits (d.toNat ≠ 31) fun s =>
    let put := fun (s : State) (lo hi : Word) => s.mod fun c => ((c.setX d lo).setXn (d.toNat + 1) hi).retire s.latch
    match s.entries s.cur with
    | [] => put s allOnes 0
    | e :: _ => put (s.modNi s.me fun n => n.pop (ctxNo s.cur)) e.lo e.hi)

/-- mbox.cnt. -/
def execMboxCnt (d : BitVec 5) (s : State) : Out :=
  .next (s.setXRetire d (toWord ((s.entries s.cur).length % 64 + (s.ni s.me).mail.length % 64 * 2 ^ 8)))

/-! ### The tag table (R258, R259) -/

/-- The word of a slot with V = 1 for a size code and an address, D = 0. -/
def tagWord (code : Nat) (va : Word) : BitVec 32 :=
  BitVec.ofNat 32 (2 ^ 31 + code * 2 ^ 26 + bits va (33 + code) (8 + code))

/-- The lowest slot of a tile that matches a word but for D. -/
def Tile.tagSlot (t : Tile) (w : BitVec 32) : Option Nat :=
  (t.tags.cells.find? fun (_, v) => (v &&& ~~~0x4000_0000#32) = w).map fun (n, _) => n

/-- Set a slot; 0 empties it. -/
def Tile.setTag (t : Tile) (n : Nat) (w : BitVec 32) : Tile :=
  { t with tags := if w = 0 then t.tags.del n else t.tags.put n w }

/-- tag.look. -/
def execTagLook (d a b : BitVec 5) (s : State) : Out :=
  .next (s.onTile fun t s =>
    let code := bits (s.c.getX b) 3 0
    s.needLimits (code ≤ 8) fun s =>
      s.setXRetire d (match (s.tile t).tagSlot (tagWord code (s.c.getX a)) with
        | some n => toWord n
        | none => allOnes))

/-- tag.set: every other slot with that code and key is cleared. -/
def execTagSet (a b : BitVec 5) (s : State) : Out :=
  .next (s.onTile fun t s =>
    let x := s.c.getX a
    let code := bits x 19 16
    s.needLimits (code ≤ 8) fun s =>
      let w := tagWord code (s.c.getX b)
      let kept := (s.tile t).tags.cells.filter fun (_, v) => (v &&& ~~~0x4000_0000#32) ≠ w
      (s.modTile t fun tl =>
        Tile.setTag { tl with tags := ⟨kept⟩ } (bits x 8 0) (w ||| if bit x 24 then 0x4000_0000 else 0)).retire)

/-- tag.clr. -/
def execTagClr (d a : BitVec 5) (s : State) : Out :=
  .next (s.onTile fun t s =>
    let n := bits (s.c.getX a) 8 0
    let w := (s.tile t).tags.get 0 n
    (s.modTile t fun tl => tl.setTag n 0).setXRetire d (w.setWidth 64))

/-- tag.flush. -/
def execTagFlush (d a : BitVec 5) (s : State) : Out :=
  .next (s.onTile fun t s =>
    let n := bits (s.c.getX a) 8 0
    match (s.tile t).tags.cells.find? fun (k, v) => n ≤ k && bit v 31 && bit v 30 with
    | none => s.setXRetire d allOnes
    | some (k, v) =>
      (s.modTile t fun tl => tl.setTag k (v &&& ~~~0x4000_0000)).setXRetire d (toWord (v.toNat * 2 ^ 32 + k)))

/-! ### Delivery (R254, R264) -/

/-- Are the crest cores resetting: from a kernel crash until the warm reboot (R365, R366, R387)? -/
def State.resetting (s : State) : Bool := s.mgmt.crashed && !(s.ctx (.crest 0 0)).live

/-- Is a message refused by its destination (R254, R264)? Crest cores refuse for want of room and while they are resetting
(R387). -/
def State.refuses (s : State) (m : Message) : Bool :=
  match m.dest with
  | .facet t f => (s.tile t.val).gang.isNone || 10 < m.ctx || (s.facet t f).fenced || (s.ni m.dest).quiescing ||
      (s.tile t.val).spilled || !s.room m.dest
  | .crest _ => s.resetting || !s.room m.dest

/-- Is it the oldest message of its sender's injecting agent for its home, and no earlier access of that agent for that home is
under way (R10, R48, R254)? -/
def State.messageEnabled (s : State) (m : Message) : Bool :=
  !(s.msgs.any fun x => x.id < m.id && x.sender.map injector = m.sender.map injector && x.home = m.home) &&
    !(match m.sender with
      | some a => s.net.any fun x => injector x.agent = injector a && x.id < m.id && x.todo.any fun e => e.home = m.home
      | none => false)

/-- A message is over: it leaves the network; the last of its group closes the ring entry and, if any copy was refused,
raises one late NACK whose tile field names the lowest refused tile (R254). -/
def State.endMessage (s : State) (m : Message) (refused : Bool) : State :=
  let bad := if refused then m.refusals ++ [bits m.destWord 9 0] else m.refusals
  let rest := s.msgs.filter fun x => x.id ≠ m.id
  if rest.any fun x => x.group = m.group then
    { s with msgs := rest.map fun x => if x.group = m.group then { x with refusals := x.refusals ++ bad } else x }
  else
    let s := { s with msgs := rest }
    match m.sender with
    | none => s
    | some a =>
      let s := s.closeRing (ownerOf a) m.ring
      match bad with
      | [] => s
      | t :: ts =>
        let low := ts.foldl min t
        s.addLate a ⟨BitVec.ofNat 8 Code.nack, if bit m.destWord 63 then m.destWord else withTile m.destWord low, m.ring,
          some m.id, false⟩

/-- The entry that a message becomes. -/
def Message.entry (m : Message) : MailEntry := { ctx := m.ctx, lo := m.lo, hi := m.hi, held := false, reserve := false }

/-- Is it a HOLDREL for a crest core (R255, R348)? -/
def Message.isHoldrel (m : Message) : Bool :=
  match m.dest with
  | .crest _ => bits m.lo 23 16 = 0xE0
  | .facet _ _ => false

/-- The context that a message consumed as a TRESUME would resume, with the address it is parked on (R362). -/
def State.tresumeFor (s : State) (m : Message) : Option (Agent × Word) :=
  match m.dest, m.sender with
  | .facet t f, some (.crest _ _) =>
    if h : m.kernel ∧ bits m.lo 23 16 = 0xE1 ∧ m.ctx < 11 ∧
        (m.hi = 0 ∨ m.hi = toWord Code.xlate ∨ m.hi = toWord Code.prot) then
      let a := Agent.facet t f ⟨m.ctx, h.2.2.1⟩
      match (s.ctx a).run with
      | .parked (.translation va _ _ (some tag)) => if bits m.lo 15 0 = tag.toNat then some (a, va) else none
      | _ => none
    else none
  | _, _ => none

/-- Would the destination's network interface take it at all: a facet that refuses messages refuses a TRESUME too. -/
def State.takesTresume (s : State) (m : Message) : Bool :=
  match m.dest with
  | .facet t f => (s.tile t.val).gang.isSome && !(s.facet t f).fenced && !(s.ni m.dest).quiescing && !(s.tile t.val).spilled
  | .crest _ => false

/-- Deliver a message into its mailbox, or refuse it; one that a unit of the device sends waits for room (DESIGN CHOICE, log
entry 21). -/
def State.deliverMessage (s : State) (m : Message) : State :=
  if s.refuses m then (if m.sender.isNone && !s.room m.dest then s else s.endMessage m true)
  else (s.modNi m.dest fun n => { n with mail := n.mail ++ [m.entry] }).endMessage m false

/-- MESSAGE_DELIVERY. -/
def execMessageDelivery (id : Nat) (s : State) : Out :=
  .next (match s.msgs.find? fun m => m.id = id with
    | none => s
    | some m =>
      if !s.messageEnabled m || m.isHoldrel || ((s.tresumeFor m).isSome && s.takesTresume m) then s
      else s.deliverMessage m)

/-- TRESUME: the park ends; the instruction runs again, or faults with the given code and the address, a frozen context's after
THAW (R362). -/
def execTresume (id : Nat) (s : State) : Out :=
  .next (match s.msgs.find? fun m => m.id = id with
    | none => s
    | some m =>
      if !s.messageEnabled m || !s.takesTresume m then s
      else match s.tresumeFor m with
        | none => s
        | some (a, va) =>
          let frozen := (s.ctx a).frozen
          let s := s.modCtx a fun c =>
            { c with run := if m.hi ≠ 0 && frozen then .parked (.resolved (m.hi.setWidth 8) va) else .ready }
          let s := if m.hi = 0 || frozen then s else s.trapAt a m.hi.toNat va (s.repAt a)
          s.endMessage m false)

/-! ### The heartbeat's notices (R164) -/

/-- The logical neighbours of a tile. -/
def neighbours (t : Nat) : List Nat :=
  let x := t % 30
  let y := t / 30
  (if x = 0 then [] else [t - 1]) ++ (if x = 29 then [] else [t + 1]) ++ (if y = 0 then [] else [t - 30]) ++
    (if y = 29 then [] else [t + 30])

/-- The HBMISS notice about a facet. -/
def hbmissEntry (t f : Nat) : MailEntry :=
  { ctx := 0, lo := toWord (0xF0 * 2 ^ 16 + (t * 2 ^ 16 + f * 16) * 2 ^ 32), hi := toWord (t * 4 + f)
    held := false, reserve := true }

/-- HBMISS: a notice to facet 0's control context of each neighbour of the same gang, and a type-4 record. -/
def execHbmiss (t : Fin 900) (f : Fin 4) (s : State) : Out :=
  .next (if !(s.facet t f).missed then s
    else
      let s := s.modFacet t f fun x => { x with missed := false }
      let g := (s.tile t.val).gang
      let near := (neighbours t.val).filter fun u => g.isSome && (s.tile u).gang = g
      let s := near.foldl (fun s u =>
        match facetOwner u 0 with
        | some o => s.modNi o fun n => n.notice (hbmissEntry t.val f.val)
        | none => s) s
      s.pushRecord (s.recordFor (.facet t f 0) 4 Code.hbmiss))

/-! ### TRANSLATION_WALK (R260, R359 to R363) -/

/-- A walker translates the page that a context is parked on: a mapping is cached and the instruction runs again; no mapping
pushes a type-2 record and the park gets its tag, of a counter (R361, R362; log entry 19); the Signet's window raises the
alarm (R368). -/
def State.walkFor (s : State) (a : Agent) : State :=
  match (s.ctx a).run, tileNo a with
  | .parked (.translation va space kind none), some t =>
    match s.walk space va with
    | some l =>
      let s := s.modCtx a fun c => { c with run := .ready }
      if Config.signetBase ≤ l.pa va then (s.raiseAlarm .window (alarmAgent a)).trapAt a Code.prot va (s.repAt a)
      else if permits l.perms kind (s.ctx a).kernel then s.remember t space va l
      else s.trapAt a Code.prot va (s.repAt a)
    | none =>
      let tag := BitVec.ofNat 16 s.nextId
      let s := { s with nextId := s.nextId + 1 }.modCtx a fun c =>
        { c with run := .parked (.translation va space kind (some tag)) }
      s.pushRecord { s.recordFor a 2 Code.xlate with
        addr := va, epc := (s.ctx a).pc, tag := tag.toNat, b32 := kind, b33 := space.toNat }
  | _, _ => s

/-- TRANSLATION_WALK. -/
def execTranslationWalk (a : Agent) (s : State) : Out := .next (s.walkFor a)

end Sys2Proof.Machine
end

