-- ==== Sys2Proof/Machine/Queues.lean ====
section
/-! DEFINITION. Work queues: major 0x28 (R276 to R282, R399) and the reoffering of held fault records (R361). -/

namespace Sys2Proof.Machine

/-! ### Addresses of structures named by an instruction (R278, R288, R308) -/

/-- Find the place of a structure at X[a] for an access of n bytes: aligned, a local alias or (only these where `pagedOnly`) a
paged address of space 0x00; an aperture address traps PROT, and so does a local alias on a crest core; then the checks of
R121. `kind` 0 read, 1 write, 2 atomic. Every trap is precise. -/
def State.structAt (s : State) (va : Word) (align n kind : Nat) (pagedOnly : Bool) (k : Nat → State → State) : State :=
  if va.toNat % align ≠ 0 then s.trap Code.align va
  else if bits va 63 60 = 15 || (bits va 63 60 = 0 && (pagedOnly || isCrest s.cur)) then s.trap Code.prot va
  else match s.check s.cur 0 va n kind s.c.kernel with
    | .ok (.loc l) => k l (s.noteTranslation s.cur 0 va)
    | .ok (.device _ _) => s.trap Code.xlate va
    | .fault code _ => s.trap code va
    | .miss => s.parkMiss va 0 kind
    | .signet => (s.raiseAlarm .window (alarmAgent s.cur)).trap Code.prot va

/-- Read n bytes of a structure as one access, or trap UNCORR. -/
def State.structRead (s : State) (va : Word) (l n : Nat) (k : Nat → State → State) : State :=
  match s.performAt .load l n 0 with
  | (s, .ok v) => k v s
  | (s, .error code) => s.trap code va

/-! ### Admission (R276, R279, R280) -/

/-- The region id of a context's gang (R279). -/
def State.regionOf (s : State) (a : Agent) : Option (BitVec 16) :=
  match tileNo a with
  | some t => match (s.tile t).gang with
    | some g => (s.gangs.find g).map fun g => g.rid
    | none => none
  | none => none

/-- Is a context admitted by a crest flag or a gang flag and the owning region? -/
def State.admitted (s : State) (a : Agent) (rid : BitVec 16) (crestFlag gangFlag : Bool) : Bool :=
  if isCrest a then crestFlag else gangFlag && s.regionOf a = some rid

/-- May a context push to a queue (PC, PG)? -/
def State.mayPush (s : State) (a : Agent) (n : Nat) : Bool :=
  let q := s.queue n
  q.open_ && s.admitted a q.rid (bit q.flags 1) (bit q.flags 2)

/-- May a context dequeue (DC, DG)? -/
def State.mayDeq (s : State) (a : Agent) (n : Nat) : Bool :=
  let q := s.queue n
  q.open_ && s.admitted a q.rid (bit q.flags 3) (bit q.flags 4)

/-- The queue that X[b] names (R278). -/
def queueNo (b : Word) : Nat := bits b 11 0

/-! ### The instructions (R278 to R282) -/

/-- q.push and q.try at the unit. -/
def State.pushAs (s : State) (d : BitVec 5) (n : Nat) (item : Vec) (isTry : Bool) : State :=
  if !s.mayPush s.cur n then s.trap Code.prot (toWord n)
  else match s.pushItem n item with
    | (s, .ok t) => s.setXRetire d (t.setWidth 64)
    | (s, .error code) => if isTry && code = Code.quota then s.setXRetire d allOnes else s.trap code (toWord n)

/-- q.push and q.try: address, release, the item in one access, then the unit. -/
def State.qPush (s : State) (d a b : BitVec 5) (isTry : Bool) : State :=
  let va := s.c.getX a
  s.structAt va 64 64 0 false fun l s => s.afterRelease fun s =>
    s.structRead va l 64 fun v s => s.pushAs d (queueNo (s.c.getX b)) (BitVec.ofNat 512 v) isTry

/-- q.push. -/
def execQPush (d a b : BitVec 5) (s : State) : Out := .next (s.qPush d a b false)
/-- q.try. -/
def execQTry (d a b : BitVec 5) (s : State) : Out := .next (s.qPush d a b true)

/-- q.deq and q.tdeq. -/
def State.qDeq (s : State) (d a b : BitVec 5) (wait : Bool) : State :=
  let n := queueNo (s.c.getX b)
  s.structAt (s.c.getX a) 64 64 1 false fun l s =>
    if !s.mayDeq s.cur n then s.trap Code.prot (toWord n)
    else
      let q := s.queue n
      match q.items with
      | item :: rest =>
        let s := { s with mem := s.mem.write l 64 item.toNat }.setXRetire d (q.ticket.setWidth 64)
        (s.setQueue n { q with items := rest }).settle n
      | [] =>
        if wait then (s.setQueue n { q with waiters := q.waiters ++ [⟨s.cur, d, l⟩] }).park .queue
        else s.setXRetire d allOnes

/-- q.deq. -/
def execQDeq (d a b : BitVec 5) (s : State) : Out := .next (s.qDeq d a b true)
/-- q.tdeq. -/
def execQTdeq (d a b : BitVec 5) (s : State) : Out := .next (s.qDeq d a b false)

/-- The word of q.stat (R281). -/
def Queue.word (q : Queue) : Word :=
  toWord ((if q.open_ then 1 else 0) + (if q.refused then 2 else 0) + q.items.length % 128 * 2 ^ 16 +
    min q.waiters.length 255 * 2 ^ 24 + q.scount % 2 ^ 32 * 2 ^ 32)

/-- q.stat: Q is cleared by the read. -/
def execQStat (d b : BitVec 5) (s : State) : Out :=
  .next (let n := queueNo (s.c.getX b)
    let q := s.queue n
    (s.setQueue n { q with refused := false }).setXRetire d q.word)

/-- A queue reset to a descriptor, or closed: held items discarded, waiters completed with -2 (R280, R282). -/
def State.resetQueue (s : State) (n : Nat) (desc : Option Nat) : State :=
  let s := (s.queue n).waiters.foldl (fun s w => s.finish w.agent fun c => c.setX w.d 0xFFFF_FFFF_FFFF_FFFE) s
  s.setQueue n (match desc with
    | none => Queue.initial
    | some v => { Queue.initial with
        open_ := bitsN v 112 112 = 1, flags := BitVec.ofNat 8 (bitsN v 119 112), rid := BitVec.ofNat 16 (bitsN v 111 96)
        scree := toWord (bitsN v 63 0), quota := bitsN v 95 64 })

/-- q.reset: kernel only; a release; X[a] = 0 closes the queue. -/
def execQReset (a b : BitVec 5) (s : State) : Out :=
  .next (s.needKernel fun s =>
    let va := s.c.getX a
    let n := queueNo (s.c.getX b)
    if va = 0 then s.afterRelease fun s => (s.resetQueue n none).retire
    else s.structAt va 32 32 0 false fun l s => s.afterRelease fun s =>
      s.structRead va l 32 fun v s => (s.resetQueue n (some v)).retire)

/-- FAULT_RECORD_REOFFER: the complex offers the held records again (R361); while the crest cores reset it keeps them (R370). -/
def execFaultRecordReoffer (s : State) : Out := .next (if s.resetting then s else s.reofferRecords 257)

end Sys2Proof.Machine
end

