-- ==== Sys2Proof/Machine/Bridge.lean ====
section
/-! DEFINITION. Objects, reference counts, holds, the release queue and the bridge instructions that stay in Lanivo mode:
ic.get, ic.set, ic.clr, hold.add, tx.relq and its forms, tx.clsver, and the HOLDREL step (R319 to R321, R341, R342, R345,
R348 to R353). -/

namespace Sys2Proof.Machine

/-! ### Values (R319) -/

/-- None. -/
def txNone : Word := 0x03
/-- False. -/
def txFalse : Word := 0x13
/-- True. -/
def txTrue : Word := 0x23

/-- An object pointer. -/
def isObject (v : Word) : Bool := bits v 3 0 = 1
/-- A small integer. -/
def isSmall (v : Word) : Bool := !bit v 0
/-- An immediate. -/
def isImmediate (v : Word) : Bool := v = txNone || v = txFalse || v = txTrue
/-- v(x): the value of a small-integer word. -/
def smallVal (v : Word) : Int := (v.sshiftRight 1).toInt
/-- The word of a small integer. -/
def smallWord (v : Int) : Word := BitVec.ofInt 64 (2 * v)
/-- Does a value fit a small integer? -/
def smallFits (v : Int) : Bool := decide (-(2 ^ 62) ≤ v) && decide (v < 2 ^ 62)
/-- A Boolean as a value. -/
def txBool (b : Bool) : Word := if b then txTrue else txFalse

/-- Truth, where the fast path defines it. -/
def truth (v : Word) : Option Bool :=
  if isSmall v then some (v ≠ 0) else if isImmediate v then some (v = txTrue) else none

/-! ### The header as one 16-byte word (R320) -/

/-- The object kinds that the hardware reads. -/
def kindTuple : Nat := 0x04
def kindList : Nat := 0x05
def kindObject : Nat := 0x07
def kindFunction : Nat := 0x08
def kindTensor : Nat := 0x09
def kindClass : Nat := 0x0B

/-- Layout id. -/
def hdrLayout (h : Nat) : Nat := bitsN h 31 0
/-- Reference count. -/
def hdrCount (h : Nat) : Nat := bitsN h 63 32
/-- length. -/
def hdrLength (h : Nat) : Nat := bitsN h 95 64
/-- zombie. -/
def hdrZombie (h : Nat) : Bool := bitsN h 96 96 = 1
/-- frozen. -/
def hdrFrozen (h : Nat) : Bool := bitsN h 98 98 = 1
/-- kind. -/
def hdrKind (h : Nat) : Nat := bitsN h 111 104
/-- hold. -/
def hdrHold (h : Nat) : Nat := bitsN h 127 112

/-- The header after an increment of the count; a count of all ones never changes (R321). -/
def hdrRaise (h : Nat) : Nat :=
  if hdrCount h = 2 ^ 32 - 1 then h else putBitsN h 32 32 (hdrCount h + 1)

/-- The header after Release(), and whether the object goes to the release queue (R321). -/
def hdrRelease (h : Nat) : Nat × Bool :=
  if hdrCount h = 2 ^ 32 - 1 then (h, false)
  else
    let n := (hdrCount h + (2 ^ 32 - 1)) % 2 ^ 32
    let h' := putBitsN h 32 32 n
    if n ≠ 0 then (h', false)
    else if hdrHold h = 0 then (h', true)
    else (putBitsN h' 96 1 1, false)

/-- The header with a new hold; a zombie whose hold is now 0 is one no longer and goes to the release queue (R348). -/
def hdrSetHold (h hold : Nat) : Nat × Bool :=
  let h' := putBitsN h 112 16 hold
  if hold = 0 && hdrZombie h then (putBitsN h' 96 1 0, true) else (h', false)

/-- The header after a lowering by m, whether the object is to be enqueued, and whether the hold was too small (R348). -/
def hdrLower (h m : Nat) : Nat × Bool × Bool :=
  if hdrHold h < m then
    let x := hdrSetHold h 0
    (x.1, x.2, true)
  else
    let x := hdrSetHold h (hdrHold h - m)
    (x.1, x.2, false)

/-- The header after hold.add, and whether the object is to be enqueued; none where the hold would leave its 16 bits
(R349). -/
def hdrAdd (h : Nat) (by_ : BitVec 16) : Option (Nat × Bool) :=
  let hold : Int := (hdrHold h : Int) + by_.toInt
  if hold < 0 || 0xFFFF < hold then none else some (hdrSetHold h hold.toNat)

/-- The indivisible changes of a header that software and units ask for (R321, R348, R349). -/
inductive HeaderOp where
  | raise | release | hold | lower
  | add (by_ : BitVec 16)
deriving DecidableEq, Repr

/-- The header after a change: a raise or a release of the count, a raise of the hold by 1, a lowering by 1, an addition of
hold.add, which changes nothing where its result is out of range. -/
def HeaderOp.apply : HeaderOp → Nat → Nat
  | .raise, h => hdrRaise h
  | .release, h => (hdrRelease h).1
  | .hold, h => (hdrSetHold h (hdrHold h + 1)).1
  | .lower, h => (hdrLower h 1).1
  | .add by_, h => ((hdrAdd h by_).map fun x => x.1).getD h

/-- A change in a packet: its number, and the amount of an addition (log entry 21). -/
def HeaderOp.payload : HeaderOp → List Byte
  | .raise => [0]
  | .release => [1]
  | .hold => [2]
  | .lower => [3]
  | .add by_ => 4 :: toBytes 2 by_.toNat

/-- The change that a packet asks for. -/
def headerOpOf (bs : List Byte) : Option HeaderOp :=
  match (bs.headD 0xFF).toNat with
  | 0 => some .raise
  | 1 => some .release
  | 2 => some .hold
  | 3 => some .lower
  | 4 => some (.add (BitVec.ofNat 16 (fromBytes (bs.drop 1))))
  | _ => none

/-! ### The release queue of a crest core (R350) -/

/-- The agent of an alarm that a crest core's own unit raises: the ctxid of its context 0 (R374; log entry 48). -/
def coreAgent (k : Nat) : Nat := 0x8000 + k * 256

/-- The release queue of a crest core. -/
def State.relq (s : State) (k : Nat) : ReleaseQueue := s.relqs.get ReleaseQueue.initial k

/-- Change a release queue. -/
def State.modRelq (s : State) (k : Nat) (f : ReleaseQueue → ReleaseQueue) : State :=
  { s with relqs := s.relqs.put k (f (s.relq k)) }

/-- Scree slot i of a release queue. -/
def ReleaseQueue.slot (q : ReleaseQueue) (i : Nat) : Word := q.base + toWord (8 * (i % q.quota))

/-- An object that is not taken. -/
def ReleaseQueue.lose (q : ReleaseQueue) : ReleaseQueue :=
  { q with ovf := true, lost := if q.lost = 0xFFFF then 0xFFFF else q.lost + 1 }

/-- The type-2 record for a scree slot that cannot be read or written (R350, R399), with the alarm of a slot in the Signet's window
(R368). -/
def State.relStuck (s : State) (k code : Nat) (slot : Word) (store : Bool) : State :=
  (s.windowAlarm slot (coreAgent k)).pushRecord (stuckRecord code slot store)

/-- Enqueue an object; one that the scree does not take is lost, with a record where its slot could not be written. -/
def State.relEnqueue (s : State) (k : Nat) (v : Word) : State :=
  let q := s.relq k
  if q.count = 0 && q.chip.length < 64 then s.modRelq k fun q => { q with chip := q.chip ++ [v] }
  else if q.count < q.quota then
    match s.unitWrite (q.slot (q.head + q.count)) 8 v.toNat with
    | .ok s => s.modRelq k fun q => { q with count := q.count + 1 }
    | .error code => (s.modRelq k ReleaseQueue.lose).relStuck k code (q.slot (q.head + q.count)) true
  else s.modRelq k ReleaseQueue.lose

/-- Move scree entries on chip in order while there is room; a slot that cannot be read stops it, with a type-2 record. -/
def State.relRefill (s : State) (k : Nat) : Nat → State × Bool
  | 0 => (s, true)
  | fuel + 1 =>
    let q := s.relq k
    if q.count = 0 || 64 ≤ q.chip.length then (s, true)
    else match s.unitRead (q.slot q.head) 8 with
      | .ok v => (s.modRelq k fun q => { q with chip := q.chip ++ [toWord v], head := q.head + 1, count := q.count - 1 }).relRefill
          k fuel
      | .error code => (s.relStuck k code (q.slot q.head) false, false)

/-- Take the oldest entry, refilling before where nothing is on chip and after. -/
def State.relPop (s : State) (k : Nat) : State × Option Word :=
  let r := if (s.relq k).chip.isEmpty then s.relRefill k 64 else (s, true)
  match (r.1.relq k).chip with
  | [] => (r.1, none)
  | v :: rest =>
    let s := r.1.modRelq k fun q => { q with chip := rest }
    (if r.2 then (s.relRefill k 64).1 else s, some v)

/-- The word of tx.relq.stat (R351). -/
def ReleaseQueue.word (q : ReleaseQueue) : Word :=
  toWord (q.chip.length % 128 + (if q.ovf then 2 ^ 7 else 0) + (if q.herr then 2 ^ 8 else 0) + q.lost.toNat * 2 ^ 16 +
    q.count % 2 ^ 32 * 2 ^ 32)

/-! ### Accesses of a crest context that are performed at once (R47, R315, R335; log entries 9 and 33) -/

/-- Check an access of the context in issue of n bytes: alignment, then R121; a failed check is a precise trap with the address
in einfo. It waits before issue while earlier traffic of its core for the same home is under way (R10, R47, R48). -/
def State.tryPlace (s : State) (va : Word) (n kind : Nat) : Except State (Target × State) :=
  if va.toNat % n ≠ 0 then .error (s.trap Code.align va)
  else match s.check s.cur s.c.spc va n kind s.c.kernel with
    | .fault code _ => .error (s.trap code va)
    | .miss => .error (s.trap Code.xlate va)
    | .signet => .error ((s.raiseAlarm .window (alarmAgent s.cur)).trap Code.prot va)
    | .ok t =>
      if s.homeBusy s.cur t.home then .error (s.park .order) else .ok (t, s.noteTranslation s.cur s.c.spc va)

/-- Go on at the place, or with the trap. -/
def State.crestPlace (s : State) (va : Word) (n kind : Nat) (k : Target → State → State) : State :=
  match s.tryPlace va n kind with
  | .error s => s
  | .ok (t, s) => k t s

/-- Read n bytes at a place: the value, or the refusal of its home. -/
def State.placeRead (s : State) (t : Target) (n : Nat) : State × Except Nat Nat :=
  match t with
  | .device sp va => s.askDevice sp va .read n []
  | .loc l => s.arrive (srcTile s.cur) .load l n 0

/-- Write n bytes at a place. -/
def State.placeWrite (s : State) (t : Target) (n v : Nat) : State × Except Nat Nat :=
  match t with
  | .device sp va => s.askDevice sp va .write n (toBytes n v)
  | .loc l => s.performBy s.cur false .store l n v

/-- Change n bytes of this device in one indivisible access of a source: the old value. -/
def State.changeAt (s : State) (src : Option Nat) (l n : Nat) (f : Nat → Nat) : State × Except Nat Nat :=
  if 2 ^ 40 ≤ l && !s.admits ((l - 2 ^ 40) / 2 ^ 22) ((l - 2 ^ 40) % 2 ^ 22) n true true src then
    (s, .error Code.nack)
  else match s.takeSoftError l n with
    | (s, true) => (s, .error Code.uncorr)
    | (s, false) => (s.poke l n (f (s.mem.read l n) % 2 ^ (8 * n)), .ok (s.mem.read l n))

/-- Change n bytes at a place in one indivisible access: the old value. `op` and `payload` say the change to another device. -/
def State.placeChange (s : State) (t : Target) (n : Nat) (op : LsOp) (payload : List Byte) (f : Nat → Nat) :
    State × Except Nat Nat :=
  match t with
  | .device sp va => s.askDevice sp va op n payload
  | .loc l => s.changeAt (srcTile s.cur) l n f

/-- Go on with what a home answered, or trap its refusal precisely. -/
def State.orTrap (r : State × Except Nat Nat) (va : Word) (k : Nat → State → State) : State :=
  match r with
  | (s, .ok v) => k v s
  | (s, .error code) => s.trap code va

/-- Load n bytes for the context in issue. -/
def State.crestLoad (s : State) (va : Word) (n : Nat) (k : Nat → State → State) : State :=
  s.crestPlace va n 0 fun t s => State.orTrap (s.placeRead t n) va k

/-- Store n bytes. -/
def State.crestStore (s : State) (va : Word) (n v : Nat) (k : State → State) : State :=
  s.crestPlace va n 1 fun t s => State.orTrap (s.placeWrite t n v) va fun _ s => k s

/-- Change a header indivisibly; the continuation gets the old one. -/
def State.crestHeader (s : State) (va : Word) (op : HeaderOp) (k : Nat → State → State) : State :=
  s.crestPlace va 16 2 fun t s => State.orTrap (s.placeChange t 16 .header op.payload op.apply) va k

/-- Add to a doubleword indivisibly; the continuation gets the old value. -/
def State.crestAdd (s : State) (va : Word) (v : Nat) (k : Nat → State → State) : State :=
  s.crestPlace va 8 2 fun t s => State.orTrap (s.placeChange t 8 (.amo .add) (toBytes 8 v) (· + v)) va k

/-! ### Bridge instructions (R341 to R345, R349 to R352) -/

/-- A bridge instruction: FEATURE on a facet; the continuation gets the core's number. -/
def State.onBridge (s : State) (k : Nat → State → State) : State :=
  match s.cur with
  | .crest core _ => k core.val s
  | .facet _ _ _ => s.trapWord Code.feature

/-- Enqueue an object at a core if a header change says so. -/
def State.enqueueIf (s : State) (b : Bool) (core : Nat) (v : Word) : State := if b then s.relEnqueue core v else s

/-- ic.get. -/
def execIcGet (d a : BitVec 5) (s : State) : Out :=
  .next (s.onBridge fun _ s => s.needLimits (d.toNat < 31) fun s =>
    s.crestLoad (s.c.getX a) 16 fun v s =>
      s.mod fun c => ((c.setX d (toWord v)).setX (d + 1) (toWord (v / 2 ^ 64))).retire s.latch)

/-- ic.set: alignment, then a release, then one 16-byte store. -/
def execIcSet (a b : BitVec 5) (s : State) : Out :=
  .next (s.onBridge fun _ s => s.needLimits (b.toNat < 31) fun s =>
    let va := s.c.getX a
    s.needAligned va 16 fun s => s.afterRelease fun s =>
      s.crestStore va 16 ((s.c.getX b).toNat + (s.c.getX (b + 1)).toNat * 2 ^ 64) State.retire)

/-- ic.clr. -/
def execIcClr (a : BitVec 5) (s : State) : Out :=
  .next (s.onBridge fun _ s =>
    let va := s.c.getX a
    s.needAligned va 16 fun s => s.afterRelease fun s => s.crestStore va 16 0 State.retire)

/-- hold.add, one indivisible change of the header: PROT for a value that is no object pointer, QUOTA for a result out of range; a
lowering is a release. -/
def execHoldAdd (d a b : BitVec 5) (s : State) : Out :=
  .next (s.onBridge fun core s =>
    let v := s.c.getX a
    let by_ : BitVec 16 := (s.c.getX b).setWidth 16
    if !isObject v then s.trap Code.prot v
    else
      let go := fun (s : State) => s.crestHeader (v - 1) (.add by_) fun h s =>
        match hdrAdd h by_ with
        | none => s.trap Code.quota v
        | some x => (s.enqueueIf x.2 core v).setXRetire d (toWord (hdrHold x.1))
      if by_.msb then s.afterRelease go else go s)

/-- tx.relq: the oldest entry, or None. -/
def execTxRelq (d : BitVec 5) (s : State) : Out :=
  .next (s.onBridge fun core s =>
    let r := s.relPop core
    r.1.setXRetire d (r.2.getD txNone))

/-- Release() of a value at a core, as one access of the context in issue (R321). -/
def State.releaseObject (s : State) (core : Nat) (v : Word) (k : State → State) : State :=
  s.crestHeader (v - 1) .release fun h s => k (s.enqueueIf (hdrRelease h).2 core v)

/-- tx.relq.rel. -/
def execTxRelqRel (a : BitVec 5) (s : State) : Out :=
  .next (s.onBridge fun core s => s.afterRelease fun s =>
    let v := s.c.getX a
    if isObject v then s.releaseObject core v State.retire else s.retire)

/-- tx.relq.stat: OVF and HERR are cleared by the read. -/
def execTxRelqStat (d : BitVec 5) (s : State) : Out :=
  .next (s.onBridge fun core s =>
    let w := (s.relq core).word
    (s.modRelq core fun q => { q with ovf := false, herr := false }).setXRetire d w)

/-- A descriptor of tx.relq.cfg that is in order: quota at most 2^24, base paged and 64-byte aligned; reserved bytes are
ignored (R3, R350). -/
def relDescOk (v : Nat) : Bool :=
  decide (bitsN v 95 64 ≤ 2 ^ 24) && decide (bitsN v 63 0 % 64 = 0) && isPaged (bitsN v 63 0)

/-- tx.relq.cfg: kernel only; a release; PROT for a queue that is not empty or a bad descriptor. -/
def execTxRelqCfg (a : BitVec 5) (s : State) : Out :=
  .next (s.onBridge fun core s => s.needKernel fun s =>
    let va := s.c.getX a
    s.needAligned va 16 fun s => s.afterRelease fun s => s.crestLoad va 16 fun v s =>
      let q := s.relq core
      if !q.chip.isEmpty || q.count ≠ 0 || !relDescOk v then s.trap Code.prot va
      else (s.modRelq core fun q =>
        { q with base := toWord v, quota := bitsN v 95 64, head := 0, count := 0, lost := 0 }).retire)

/-- tx.clsver: PROT for a value that is no class with a small-integer version; a release; one indivisible addition. -/
def execTxClsver (d a : BitVec 5) (s : State) : Out :=
  .next (s.onBridge fun _ s =>
    let v := s.c.getX a
    if !isObject v then s.trap Code.prot v
    else s.crestLoad (v - 1) 16 fun h s =>
      if hdrKind h ≠ kindClass then s.trap Code.prot v
      else s.crestLoad (v + 15) 8 fun w s =>
        if !isSmall (toWord w) then s.trap Code.prot v
        else s.afterRelease fun s => s.crestAdd (v + 15) 2 fun old s =>
          s.setXRetire d ((toWord old + 2).sshiftRight 1))

/-! ### HOLDREL (R348) -/

/-- The lowering that a HOLDREL asks for, at a crest core, as one indivisible access of the core at kernel privilege in space
0x00. What the core does with an object that it does not reach, or whose home refuses it, is not given: HERR is set and
nothing else (DESIGN CHOICE, log entry 38). During the core's reset the object is not enqueued: the runtime's scan finds it
(R365). -/
def State.holdrel (s : State) (core : Fin 32) (m : Nat) (v : Word) : State :=
  let fail := fun (s : State) => s.modRelq core.val fun q => { q with herr := true }
  if m = 0 then s
  else if !isObject v then fail s
  else match s.check (.crest core 0) 0 (v - 1) 16 2 true with
    | .ok (.loc l) =>
      match s.changeAt none l 16 fun h => (hdrLower h m).1 with
      | (s, .error _) => fail s
      | (s, .ok h) =>
        let x := hdrLower h m
        let s := if x.2.2 then fail s else s
        s.enqueueIf (x.2.1 && !s.resetting) core.val v
    | .signet => fail (s.windowAlarm (v - 1) (coreAgent core.val))
    | _ => fail s

/-- HOLDREL: a message of kind 0xE0 for a crest core is performed there and never placed in a mailbox. -/
def execHoldrel (id : Nat) (s : State) : Out :=
  .next (match s.msgs.find? fun m => m.id = id with
    | none => s
    | some m =>
      if !s.messageEnabled m || !m.isHoldrel then s
      else match m.dest with
        | .crest k => (s.holdrel k (bits m.lo 15 0) m.hi).endMessage m false
        | .facet _ _ => s)

end Sys2Proof.Machine
end

