-- ==== Sys2Proof/Machine/Cairn.lean ====
section
/-! DEFINITION. Cairn: pools, shards, rounds, takes and steals, and major 0x2A (R295 to R314). A unit serves a request at the
moment it is issued; a steal travels (log entry 36). -/

namespace Sys2Proof.Machine

/-! ### Pools and shards (R295 to R297) -/

/-- An open pool. -/
def State.pool (s : State) (n : Nat) : Option Pool := s.pools.find n

/-- Replace an open pool. -/
def State.setPool (s : State) (n : Nat) (p : Pool) : State := { s with pools := s.pools.put n p }

/-- The die of a tile (R13, R17). -/
def tileDie (t : Nat) : Nat := t % 30 / 15 + 2 * (t / 450)

/-- The die of a tile's context or a crest core's. -/
def dieOf : Agent → Nat
  | .facet t _ _ => tileDie t.val
  | .crest k _ => k.val / 8

/-- The local shard of an agent on die d with number a (R295). -/
def localShardOf (shards n d a : Nat) : Nat :=
  (d + 4 - n % 4) % 4 % min shards 4 + 4 * (a % max (shards / 4) 1)

/-- The local shard of a context. -/
def localShard (p : Pool) (n : Nat) (a : Agent) : Nat :=
  localShardOf p.s n (dieOf a) (match a with
    | .facet t _ _ => t.val
    | .crest k _ => k.val)

/-- An empty shard of round 0. -/
def Shard.initial : Shard :=
  { chip := [], scree := [], held := [], waits := [], admitted := 0, removed := 0, summary := ⟨none, none, 0, 0⟩ }

/-- Shard i of a pool. -/
def Pool.shard (p : Pool) (i : Nat) : Shard := p.shards.getD i Shard.initial

/-- Replace shard i. -/
def Pool.setShard (p : Pool) (i : Nat) (x : Shard) : Pool := { p with shards := p.shards.set i x }

/-- Replace shard i of pool n. -/
def State.setShard (s : State) (n i : Nat) (x : Shard) : State :=
  match s.pool n with
  | some p => s.setPool n (p.setShard i x)
  | none => s

/-- Does element a come before b: smaller key, or present earlier (R297)? -/
def PoolElem.before (a b : PoolElem) : Bool :=
  decide (a.key.toNat < b.key.toNat) || (decide (a.key = b.key) && decide (a.order < b.order))

/-- Insert an element in order. -/
def insertElem (e : PoolElem) : List PoolElem → List PoolElem
  | [] => [e]
  | x :: rest => if e.before x then e :: x :: rest else x :: insertElem e rest

/-- The address of a scree slot of a shard (R297). -/
def Pool.slot (p : Pool) (i j : Nat) : Word := p.scree + toWord (16 * p.quota * i + 16 * j)

/-- The lowest free scree slot of a shard (DESIGN CHOICE, log entry 36). -/
def Shard.freeSlot (x : Shard) (quota : Nat) : Option Nat :=
  (List.range quota).find? fun j => !(x.scree.any fun (k, _) => k = j)

/-- The least scree entry of a shard. -/
def leastScree : List (Nat × PoolElem) → Option (Nat × PoolElem)
  | [] => none
  | x :: rest =>
    match leastScree rest with
    | none => some x
    | some y => if y.2.before x.2 then some y else some x

/-- The scree of a shard without slot j. -/
def Shard.vacant (x : Shard) (j : Nat) : Shard := { x with scree := x.scree.filter fun z => z.1 ≠ j }

/-- Read a scree entry back: the key and payload its slot holds. -/
def State.readSlot (s : State) (p : Pool) (i : Nat) (x : Nat × PoolElem) : Except Nat PoolElem :=
  (s.unitRead (p.slot i x.1) 16).map fun v =>
    { x.2 with key := toWord (v % 2 ^ 64), payload := toWord (v / 2 ^ 64) }

/-- Write an element of pool n's shard i to its scree slot j, the rest of the shard becoming x. Whether it was written: a
write that cannot be made changes nothing and pushes a record (R297, R399). -/
def State.toSlot (s : State) (n i j : Nat) (x : Shard) (e : PoolElem) : State × Bool :=
  match s.pool n with
  | none => (s, false)
  | some p =>
    match s.unitWrite (p.slot i j) 16 (e.key.toNat + e.payload.toNat * 2 ^ 64) with
    | .ok s => (s.setShard n i { x with scree := x.scree ++ [(j, e)] }, true)
    | .error code => (s.pushRecord (stuckRecord code (p.slot i j) true), false)

/-- The present element e finds its place at a shard that keeps every scree key at least every key on chip (R297): on chip
where there is room and no scree key is smaller; where there is no room the largest key spills; an element behind the scree's
least goes to the scree, the least coming on chip where no slot is free. Whether it was taken. -/
def State.placeElem (s : State) (n i : Nat) (p : Pool) (e : PoolElem) : State × Bool :=
  let x := p.shard i
  if 4096 ≤ x.chip.length then
    let all := insertElem e x.chip
    match (if (leastScree x.scree).any fun y => y.2.before e then some (e, x.chip)
      else all.getLast?.map fun big => (big, all.dropLast)), x.freeSlot p.quota with
    | some (big, chip), some j => s.toSlot n i j { x with chip := chip } big
    | _, _ => (s, false)
  else match leastScree x.scree with
    | none => (s.setShard n i { x with chip := insertElem e x.chip }, true)
    | some y =>
      if e.before y.2 then (s.setShard n i { x with chip := insertElem e x.chip }, true)
      else match x.freeSlot p.quota with
        | some j => s.toSlot n i j x e
        | none =>
          match s.readSlot p i y with
          | .error code => (s.pushRecord (stuckRecord code (p.slot i y.1)), false)
          | .ok first => s.toSlot n i y.1 { x.vacant y.1 with chip := insertElem first x.chip } e

/-- Make an element present at a shard, the last so far of its pool. Whether it was taken: a spill with no free slot or that
cannot be written refuses it (R297, R399). -/
def State.addElem (s : State) (n i : Nat) (e : PoolElem) : State × Bool :=
  match s.pool n with
  | none => (s, false)
  | some p =>
    (s.setPool n { p with counter := p.counter + 1 }).placeElem n i p { e with order := p.counter }

/-- Refill from the smallest scree keys until 3,072 are on chip or the scree is empty; a read that fails leaves its entry and
pushes a record (R297). -/
def State.refillFrom (s : State) (n i : Nat) : Nat → State
  | 0 => s
  | fuel + 1 =>
    match s.pool n with
    | none => s
    | some p =>
      let x := p.shard i
      if 3072 ≤ x.chip.length then s
      else match leastScree x.scree with
        | none => s
        | some y =>
          match s.readSlot p i y with
          | .error code => s.pushRecord (stuckRecord code (p.slot i y.1))
          | .ok e =>
            (s.setShard n i { x.vacant y.1 with chip := insertElem e x.chip }).refillFrom n i fuel

/-- Refill a shard that has fewer than 2,048 on chip. -/
def State.refill (s : State) (n i : Nat) : State :=
  match s.pool n with
  | none => s
  | some p => if (p.shard i).chip.length < 2048 then s.refillFrom n i 3072 else s

/-- A shard with nothing on chip refills before it serves. -/
def State.refillEmpty (s : State) (n i : Nat) : State :=
  match s.pool n with
  | none => s
  | some p => if (p.shard i).chip.isEmpty then s.refill n i else s

/-! ### Serving (R300, R303) -/

/-- Is an element aged in the pool's round? -/
def Pool.aged (p : Pool) (e : PoolElem) : Bool := p.limit ≠ 0 && e.round + p.limit ≤ p.round

/-- Was a put before b: by put round and then put order? -/
def PoolElem.older (a b : PoolElem) : Bool :=
  decide (a.round < b.round) || (decide (a.round = b.round) && decide (a.putOrder < b.putOrder))

/-- The oldest of a list of elements. -/
def oldest : List PoolElem → Option PoolElem
  | [] => none
  | x :: rest =>
    match oldest rest with
    | none => some x
    | some y => if x.older y then some x else some y

/-- The elements of a shard, on chip and in the scree. -/
def Shard.every (x : Shard) : List PoolElem := x.chip ++ x.scree.map fun y => y.2

/-- Take an element out of a shard, read back from its slot where it lies in the scree; none where that cannot be read
(R297). It counts as removed, and the shard refills. -/
def State.removeElem (s : State) (n j : Nat) (p : Pool) (e : PoolElem) : State × Option PoolElem :=
  let x := { p.shard j with removed := (p.shard j).removed + 1 }
  match x.scree.find? fun y => y.2.order = e.order with
  | none => ((s.setShard n j { x with chip := x.chip.filter fun y => y.order ≠ e.order }).refill n j, some e)
  | some y =>
    match s.readSlot p j y with
    | .ok e => (s.setShard n j (x.vacant y.1), some e)
    | .error code => (s.pushRecord (stuckRecord code (p.slot j y.1)), none)

/-- serve(j) of R300: the state after the removal, the element, and whether it was aged. A shard with nothing on chip refills
first. -/
def State.serve (s : State) (n j : Nat) : State × Option (PoolElem × Bool) :=
  let s := s.refillEmpty n j
  match s.pool n with
  | none => (s, none)
  | some p =>
    let x := p.shard j
    if p.s ≠ 1 && p.q ≤ x.removed then (s, none)
    else match oldest (x.every.filter p.aged) with
      | some e => let y := s.removeElem n j p e; (y.1, y.2.map fun e => (e, true))
      | none =>
        match x.chip.head? with
        | none => (s, none)
        | some e =>
          if p.threshold.all fun t => e.key.toNat ≤ t.1.toNat then
            let y := s.removeElem n j p e
            (y.1, y.2.map fun e => (e, false))
          else (s, none)

/-- The status word of R306. -/
def takeStatus (res round shard : Nat) (stolen aged : Bool) : Word :=
  toWord (shard + (if aged then 2 ^ 8 else 0) + (if stolen then 2 ^ 9 else 0) + round % 2 ^ 32 * 2 ^ 16 + res * 2 ^ 62)

/-- A take completes: key, payload, status (R306). -/
def State.endTake (s : State) (t : PoolTake) (key payload status : Word) : State :=
  s.finish t.agent fun c =>
    ((c.setX t.d key).setXn (t.d.toNat + 1) payload).setXn (t.d.toNat + 2) status

/-- The round of a pool. -/
def State.poolRound (s : State) (n : Nat) : Nat :=
  match s.pool n with
  | some p => p.round
  | none => 0

/-- The least published m, lowest index on ties. -/
def Pool.leastShard (p : Pool) : Option Nat :=
  (p.shards.zipIdx.foldl (fun (best : Option (Nat × Nat)) (x, i) =>
    match x.summary.least, best with
    | some m, some (b, _) => if m.toNat < b then some (m.toNat, i) else best
    | some m, none => some (m.toNat, i)
    | none, _ => best) none).map fun (_, i) => i

/-- A take joins those that wait at a shard, in their original order (R300, R313). -/
def insertTake (t : PoolTake) : List PoolTake → List PoolTake
  | [] => [t]
  | y :: rest => if t.since < y.since then t :: y :: rest else y :: insertTake t rest

/-- A take that failed everywhere: cn.take waits at its local shard for the next round, cn.ttake returns result 2. -/
def State.takeFailed (s : State) (n i : Nat) (t : PoolTake) : State :=
  if t.wait then
    match s.pool n with
    | some p =>
      let x := p.shard i
      (s.setPool n (p.setShard i { x with waits := insertTake t x.waits })).modCtx t.agent fun c => { c with run := .parked .cairn }
    | none => s
  else s.endTake t 0 0 (takeStatus 2 (s.poolRound n) 0 false false)

/-- Is a pool one shard that holds no element and no accepted put (R302)? -/
def Pool.agreedEmpty (p : Pool) : Bool :=
  p.s = 1 && (p.shard 0).chip.isEmpty && (p.shard 0).scree.isEmpty && (p.shard 0).held.isEmpty

/-- Try a take at its local shard; if that fails and some shard published an element, a steal is forwarded and the context
waits for its answer (R300). An empty pool of one shard answers agreed empty at once (R302). -/
def State.tryTake (s : State) (n i : Nat) (t : PoolTake) : State :=
  if ((s.pool n).map Pool.agreedEmpty).getD false then s.endTake t 0 0 (takeStatus 1 (s.poolRound n) 0 false false)
  else match s.serve n i with
  | (s, some (e, aged)) => s.endTake t e.key e.payload (takeStatus 0 (s.poolRound n) i false aged)
  | (s, none) =>
    match s.pool n with
    | none => s
    | some p =>
      if p.shards.any fun x => decide (0 < x.summary.count) then
        match p.leastShard with
        | none => s.takeFailed n i t
        | some k =>
          (s.setPool n { p with steals := p.steals ++ [⟨t, i, k, p.threshold.isNone⟩] }).modCtx t.agent fun c =>
            { c with run := .blocked }
      else s.takeFailed n i t

/-- CAIRN_STEAL: the oldest steal of a pool is served at its victim; one that fails goes on to the holder of T. -/
def execCairnSteal (p : Fin 64) (s : State) : Out :=
  .next (match s.pool p.val with
    | none => s
    | some x =>
      match x.steals with
      | [] => s
      | y :: rest =>
        let s := s.setPool p.val { x with steals := rest }
        match s.serve p.val y.victim with
        | (s, some (e, aged)) =>
          s.endTake y.take e.key e.payload (takeStatus 0 (s.poolRound p.val) y.victim true aged)
        | (s, none) =>
          match s.pool p.val, x.threshold with
          | some x, some (_, holder) =>
            if y.last then s.takeFailed p.val y.from_ y.take
            else s.setPool p.val { x with steals := x.steals ++ [{ y with victim := holder, last := true }] }
          | _, _ => s.takeFailed p.val y.from_ y.take)

/-! ### Rounds (R298, R299, R302, R313) -/

/-- The summary a shard publishes; a pool of one shard has no h (R296). -/
def Shard.publish (x : Shard) (shards h : Nat) : Summary :=
  let keys := ((x.scree.map fun y => y.2).foldl (fun l e => insertElem e l) x.chip).map fun e => e.key
  { least := keys.head?, hth := if shards = 1 then none else keys[h - 1]?
    count := x.chip.length + x.scree.length, inflight := x.held.length }

/-- The threshold T and its holder: the least published k_h, lowest index on ties. -/
def thresholdOf (xs : List Shard) : Option (Word × Nat) :=
  xs.zipIdx.foldl (fun best (x, i) =>
    match x.summary.hth, best with
    | some k, some (b, _) => if k.toNat < b.toNat then some (k, i) else best
    | some k, none => some (k, i)
    | none, _ => best) none

/-- Step 1: every shard publishes for the new round, with fresh budgets. -/
def Pool.newRound (p : Pool) : Pool :=
  let xs := p.shards.map fun x => { x with admitted := 0, removed := 0, summary := x.publish p.s p.h }
  { p with round := p.round + 1, shards := xs, threshold := if p.s = 1 then none else thresholdOf xs }

/-- Count one admission at a shard. -/
def State.countAdmitted (s : State) (n i : Nat) : State :=
  match s.pool n with
  | none => s
  | some p => s.setShard n i { p.shard i with admitted := (p.shard i).admitted + 1 }

/-- Admit the held puts of a shard in their order, while the budget lasts (R298 step 2, R299, R310); one that cannot be placed
stays and holds back those behind it. -/
def State.admitHeld (s : State) (n i : Nat) : Nat → State
  | 0 => s
  | fuel + 1 =>
    match s.pool n with
    | none => s
    | some p =>
      let x := p.shard i
      match x.held with
      | [] => s
      | e :: rest =>
        if p.s ≠ 1 && p.p ≤ x.admitted then s
        else match s.addElem n i { e with round := p.round } with
          | (s, true) =>
            match s.pool n with
            | some p => ((s.setShard n i { p.shard i with held := rest }).countAdmitted n i).admitHeld n i fuel
            | none => s
          | (s, false) => s

/-- The target of the round's move: the greatest published k_h, none counting as greatest, lowest index on ties. -/
def Pool.moveTarget (p : Pool) : Nat :=
  let rank := fun (x : Shard) => match x.summary.hth with
    | none => 2 ^ 64
    | some k => k.toNat
  (p.shards.zipIdx.foldl (fun (best : Option (Nat × Nat)) (x, i) =>
    match best with
    | some (b, _) => if b < rank x then some (rank x, i) else best
    | none => some (rank x, i)) none).elim 0 fun (_, i) => i

/-- A shard's smallest element that is not aged. -/
def Pool.leastUnaged (p : Pool) (i : Nat) : Option PoolElem :=
  (((p.shard i).every.filter fun e => !p.aged e).foldl (fun l e => insertElem e l) []).head?

/-- Move up to n of the source's smallest unaged elements (R299). One that cannot be read back, or for which the target has no
place, stays at the source and ends the move. -/
def State.moveElems (s : State) (n from_ to_ : Nat) : Nat → State
  | 0 => s
  | k + 1 =>
    match s.pool n with
    | none => s
    | some p =>
      match p.leastUnaged from_ with
      | none => s
      | some e =>
        match s.removeElem n from_ p e with
        | (s', none) => s'
        | (s', some e) =>
          match s'.addElem n to_ e with
          | (u, true) => (u.countAdmitted n to_).moveElems n from_ to_ k
          | (u, false) => { u with pools := s.pools }

/-- Step 3: the round's rebalancing move (R299, R313). -/
def State.rebalance (s : State) (n : Nat) : State :=
  match s.pool n with
  | none => s
  | some p =>
    match p.threshold with
    | none => s
    | some (_, holder) =>
      let to_ := p.moveTarget
      if to_ = holder || (p.shard holder).summary.count ≤ p.h then s
      else s.moveElems n holder to_ (min 16 (min (p.q - (p.shard holder).removed) (p.p - (p.shard to_).admitted)))

/-- Step 4: the waiting takes run again in their order, or all return agreed empty (R302). -/
def State.rerunTakes (s : State) (n : Nat) : State :=
  match s.pool n with
  | none => s
  | some p =>
    let waits := p.shards.zipIdx.flatMap fun (x, i) => x.waits.map fun t => (i, t)
    let s := s.setPool n { p with shards := p.shards.map fun x => { x with waits := [] } }
    if p.shards.all fun x => x.summary.count = 0 && x.summary.inflight = 0 then
      waits.foldl (fun s (_, t) => s.endTake t 0 0 (takeStatus 1 p.round 0 false false)) s
    else waits.foldl (fun s (i, t) => s.tryTake n i t) s

/-- Is a pool's next round due (R298)? -/
def Pool.due (p : Pool) (now : Nat) : Bool := p.opened + p.period * (p.round + 1) ≤ now

/-! ### The instructions (R304 to R308) -/

/-- Would an element, the last to come, need a spill at a shard: its chip is full, or the element belongs behind the scree's least
(R297)? -/
def Shard.spills (x : Shard) (e : PoolElem) : Bool :=
  decide (4096 ≤ x.chip.length) || (leastScree x.scree).any fun y => !e.before y.2

/-- cn.put: a release; PROT or QUOTA with the pool number (R305). A put that a failed spill holds back is admitted before it, or it
waits behind that one (R310); where it would need a spill itself it is refused with QUOTA (R297). -/
def execCnPut (a b : BitVec 5) (n : BitVec 6) (s : State) : Out :=
  .next (s.afterRelease fun s =>
    let k := n.toNat
    match s.pool k with
    | none => s.trap Code.prot (toWord k)
    | some p =>
      let i := localShard p k s.cur
      let x := p.shard i
      if !s.admitted s.cur p.rid (bit p.flags 0) (bit p.flags 1) then s.trap Code.prot (toWord k)
      else if 4096 + p.quota ≤ x.chip.length + x.scree.length + x.held.length then s.trap Code.quota (toWord k)
      else
        let e : PoolElem := ⟨s.c.getX a, s.c.getX b, 0, p.round, p.counter⟩
        let s := (s.setPool k { p with counter := p.counter + 1 }).admitHeld k i x.held.length
        match s.pool k with
        | none => s.trap Code.prot (toWord k)
        | some p =>
          let x := p.shard i
          if p.s ≠ 1 && p.p ≤ x.admitted then (s.setShard k i { x with held := x.held ++ [e] }).retire
          else if x.held.isEmpty then
            match s.addElem k i e with
            | (s, true) => (s.countAdmitted k i).retire
            | (s, false) => s.trap Code.quota (toWord k)
          else if x.spills { e with order := p.counter } then s.trap Code.quota (toWord k)
          else (s.setShard k i { x with held := x.held ++ [e] }).retire)

/-- cn.take and cn.ttake: closed or not admitted traps PROT. -/
def State.cnTake (s : State) (d : BitVec 5) (n : BitVec 6) (wait : Bool) : State :=
  s.needLimits (d.toNat ≤ 29) fun s =>
    let k := n.toNat
    match s.pool k with
    | none => s.trap Code.prot (toWord k)
    | some p =>
      if !s.admitted s.cur p.rid (bit p.flags 2) (bit p.flags 3) then s.trap Code.prot (toWord k)
      else s.tryTake k (localShard p k s.cur) ⟨s.cur, d, wait, s.now⟩

/-- cn.take. -/
def execCnTake (d : BitVec 5) (n : BitVec 6) (s : State) : Out := .next (s.cnTake d n true)
/-- cn.ttake. -/
def execCnTtake (d : BitVec 5) (n : BitVec 6) (s : State) : Out := .next (s.cnTake d n false)

/-- B of a pool (R296). -/
def Pool.bound (p : Pool) : Nat := if p.s = 1 then 1 else p.s * (p.h + p.p + p.q)

/-- The word of cn.stat (R307). -/
def Pool.stat (p : Pool) (sel shard : Nat) : Word :=
  if sel = 3 then toWord (1 + p.bound % 2 ^ 16 * 2 ^ 16 + p.round % 2 ^ 32 * 2 ^ 32)
  else if p.s ≤ shard then 0
  else
    let m := (p.shard shard).summary
    if sel = 0 then m.least.getD allOnes
    else if sel = 1 then m.hth.getD allOnes
    else toWord (min m.inflight 65535 * 2 ^ 16 + m.count % 2 ^ 32 * 2 ^ 32)

/-- cn.stat: 0 on a closed pool. -/
def execCnStat (d b : BitVec 5) (n : BitVec 6) (s : State) : Out :=
  .next (s.setXRetire d (match s.pool n.toNat with
    | none => 0
    | some p => p.stat (bits (s.c.getX b) 5 4) (bits (s.c.getX b) 3 0)))

/-- A pool descriptor within the ranges of R296, with no reserved bit set. -/
def descOk (v : Nat) : Bool :=
  let s := bitsN v 7 0
  let h := bitsN v 15 8
  let p := bitsN v 23 16
  let q := bitsN v 31 24
  let scree := bitsN v 191 128
  let quota := bitsN v 223 192
  [1, 2, 4, 8, 16].contains s &&
    (decide (s = 1) || (decide (2 ≤ h) && decide (1 ≤ p) && decide (1 ≤ q) && decide (q < h))) &&
    decide (1024 ≤ bitsN v 63 32) && decide (bitsN v 127 116 = 0) && decide (bitsN v 511 224 = 0) &&
    decide (quota ≤ 2 ^ 24) && decide (scree % 64 = 0) &&
    (if scree = 0 then decide (quota = 0) else isPaged scree)

/-- The pool that a descriptor opens at a time: round 0, every shard empty. -/
def Pool.ofDesc (v now : Nat) : Pool :=
  { s := bitsN v 7 0, h := bitsN v 15 8, p := bitsN v 23 16, q := bitsN v 31 24, period := bitsN v 63 32
    limit := bitsN v 95 64, rid := BitVec.ofNat 16 (bitsN v 111 96), flags := BitVec.ofNat 8 (bitsN v 119 112)
    scree := toWord (bitsN v 191 128), quota := bitsN v 223 192, opened := now, round := 0, threshold := none
    shards := List.replicate (bitsN v 7 0) Shard.initial, counter := 0, tasks := 0, steals := [] }

/-- cn.open (R308): a local alias past the local memory traps PROT, as every address check of a descriptor does (R311). -/
def execCnOpen (a : BitVec 5) (n : BitVec 6) (s : State) : Out :=
  .next (s.needKernel fun s =>
    let va := s.c.getX a
    if va.toNat % 64 = 0 && bits va 63 60 = 0 && bits va 59 22 ≠ 0 then s.trap Code.prot va
    else s.structAt va 64 64 0 false fun l s => s.afterRelease fun s => s.structRead va l 64 fun v s =>
      if !descOk v then s.trapWord Code.illegal
      else if (s.pool n.toNat).isSome then s.trap Code.prot (toWord n.toNat)
      else (s.setPool n.toNat (Pool.ofDesc v s.now)).retire)

/-- Close a pool: every element discarded, every waiting take and steal completed with result 3. -/
def State.closePool (s : State) (n : Nat) : State :=
  match s.pool n with
  | none => s
  | some p =>
    let waits := (p.shards.flatMap fun x => x.waits) ++ p.steals.map fun y => y.take
    let s := waits.foldl (fun s t => s.endTake t 0 0 (takeStatus 3 p.round 0 false false)) s
    { s with pools := s.pools.del n }

/-- cn.close (R308). -/
def execCnClose (n : BitVec 6) (s : State) : Out :=
  .next (s.needKernel fun s => s.afterRelease fun s => (s.closePool n.toNat).retire)

end Sys2Proof.Machine
end

