-- ==== Sys2Proof/Machine/Tasks.lean ====
section
/-! DEFINITION. Task graphs, the tiles' allocators, gang.launch and gang.exit: major 0x29 (R284 to R294, R272, R275). -/

namespace Sys2Proof.Machine

/-! ### The allocator of a tile, in its tile record (R180, R287; layout: log entry 16) -/

/-- Read n bytes of a tile's record. -/
def State.recordGet (s : State) (t off n : Nat) : Nat := s.mem.read (lmLoc t (0x3F_F000 + off)) n

/-- Write n bytes of a tile's record. -/
def State.recordPut (s : State) (t off n v : Nat) : State := { s with mem := s.mem.write (lmLoc t (0x3F_F000 + off)) n v }

/-- The number of a context within its tile. -/
def slotNo : Agent → Nat
  | .facet _ f c => f.val * 11 + c.val
  | .crest _ _ => 0

/-- The TCB that slot i of a tile holds; 0 for none. -/
def State.heldBy (s : State) (t i : Nat) : Word := toWord (s.recordGet t (0x3A0 + 8 * i) 8)

/-- The allotments of the tasks that a tile's contexts hold: offset and size. -/
def State.allotments (s : State) (t : Nat) : List (Nat × Nat) :=
  ((List.range 44).filter fun i => s.heldBy t i ≠ 0).map fun i =>
    (s.recordGet t (0x240 + 8 * i) 4, s.recordGet t (0x240 + 8 * i + 4) 4)

/-- First fit at the lowest offset (R287). -/
def firstFit (base limit size : Nat) (used : List (Nat × Nat)) : Option Nat :=
  let fits := fun off => decide (off + size ≤ limit) &&
    used.all fun u => decide (off + size ≤ u.1) || decide (u.1 + u.2 ≤ off)
  ((base :: used.map fun u => u.1 + u.2).filter fits).foldl (fun best off =>
    match best with
    | none => some off
    | some b => some (min b off)) none

/-- Where a task of a size fits in a tile's arena. -/
def State.place (s : State) (t size : Nat) : Option Nat :=
  firstFit (s.recordGet t 0x100 4) (s.recordGet t 0x104 4) size (s.allotments t)

/-- The head task of a tile: its TCB, 0 for none. -/
def State.headTask (s : State) (t : Nat) : Word := toWord (s.recordGet t 0x108 8)

/-- Set the head task and its size. -/
def State.setHead (s : State) (t : Nat) (tcb : Word) (size : Nat) : State :=
  (s.recordPut t 0x108 8 tcb.toNat).recordPut t 0x110 4 size

/-- The size of a task type in the tile's table, in whole granules; none for a type that is not valid. -/
def State.typeSize (s : State) (t type : Nat) : Option Nat :=
  if 64 ≤ type then none
  else
    let e := s.recordGet t (0x140 + 4 * type) 4
    if bitsN e 31 31 = 1 then some (roundUp (bitsN e 21 0) 256) else none

/-! ### Ready pools and gangs -/

/-- The gang of a context. -/
def State.gangAt (s : State) (a : Agent) : Option Gang := (tileNo a).bind fun t => (s.tile t).gang.bind s.gangs.find

/-- The tiles whose gangs take their tasks from a pool. -/
def State.poolTiles (s : State) (n : Nat) : List Nat :=
  (s.gangs.cells.filter fun (_, g) => g.pool = n).flatMap fun (_, g) => g.tiles

/-- Tasks in flight in a pool; none in a closed one. -/
def State.inFlight (s : State) (n : Nat) : Nat :=
  match s.pool n with
  | some p => p.tasks
  | none => 0

/-- One task less in flight. -/
def State.lessFlight (s : State) (n : Nat) : State :=
  match s.pool n with
  | some p => s.setPool n { p with tasks := p.tasks - 1 }
  | none => s

/-- The shard of a pool that the task unit uses for a gang whose first tile is t (R295). -/
def Pool.shardFor (p : Pool) (n t : Nat) : Nat := localShardOf p.s n (tileDie t) t

/-- The shard at which a release puts into a pool: that of the gang whose ready pool it is. Where several gangs take from the pool,
the lowest slot's counts, and tile 0 where none does (DESIGN CHOICE, log entry 36). -/
def State.putShard (s : State) (n : Nat) (p : Pool) : Nat := p.shardFor n ((s.poolTiles n).headD 0)

/-- An element of the task unit finds its place, the last so far of its pool. The spec gives the task unit no refusal: a shard
that is full keeps it on chip beyond its 4,096, or in the place of the scree's least where that comes before it, which then comes
on chip. Whether it was placed: a scree slot that cannot be reached leaves it out (DESIGN CHOICE, log entry 36). -/
def State.readyPlace (s : State) (n i : Nat) (e : PoolElem) : State × Bool :=
  match s.addElem n i e with
  | (s, true) => (s, true)
  | (s, false) =>
    match s.pool n with
    | none => (s, false)
    | some p =>
      let x := p.shard i
      let e := { e with order := p.counter }
      match (leastScree x.scree).filter fun y => y.2.before e with
      | none => (s.setPool n ({ p with counter := p.counter + 1 }.setShard i { x with chip := insertElem e x.chip }), true)
      | some y =>
        if x.chip.length < 4096 || (x.freeSlot p.quota).isSome then (s, false)
        else match s.readSlot p i y with
          | .error code => (s.pushRecord (stuckRecord code (p.slot i y.1)), false)
          | .ok first =>
            (s.setPool n { p with counter := p.counter + 1 }).toSlot n i y.1
              { x.vacant y.1 with chip := insertElem first x.chip } e

/-- The task unit's elements reach a shard in order: each is admitted, or waits in the shard where the round's budget is spent (R299)
or an element that waits there already goes before it. -/
def State.readyAdmit (s : State) (n i : Nat) : List PoolElem → State
  | [] => s
  | e :: rest =>
    match s.pool n with
    | none => s
    | some p =>
      let x := p.shard i
      let hold := fun (s : State) => match s.pool n with
        | some p => s.setShard n i { p.shard i with held := (p.shard i).held ++ [e] }
        | none => s
      if (p.s ≠ 1 && p.p ≤ x.admitted) || (x.held.any fun h => h.key.toNat ≤ e.key.toNat) then (hold s).readyAdmit n i rest
      else match s.readyPlace n i { e with round := p.round } with
        | (s, true) => (s.countAdmitted n i).readyAdmit n i rest
        | (s, false) => (hold s).readyAdmit n i rest

/-- Admit what waits at a shard, and after it more elements. -/
def State.readyFill (s : State) (n i : Nat) (more : List PoolElem) : State :=
  match s.pool n with
  | none => s
  | some p =>
    let x := p.shard i
    if x.held.isEmpty && more.isEmpty then s
    else (s.setShard n i { x with held := [] }).readyAdmit n i (x.held ++ more)

/-- Put an element of the task unit; never refused (R286, R309). -/
def State.readyPut (s : State) (n : Nat) (key payload : Word) : State :=
  match s.pool n with
  | none => s
  | some p =>
    (s.setPool n { p with counter := p.counter + 1 }).readyFill n (s.putShard n p) [⟨key, payload, 0, p.round, p.counter⟩]

/-- Take the least element for the task unit, for a gang whose first tile is t: at its shard and, in a pool of several, by the steals
of R300. -/
def State.readyTake (s : State) (n t : Nat) : State × Option Word :=
  let load := fun (r : State × Option (PoolElem × Bool)) => (r.1, r.2.map fun x => x.1.payload)
  match s.pool n with
  | none => (s, none)
  | some p =>
    let i := p.shardFor n t
    match (s.readyFill n i []).serve n i with
    | (s, some x) => load (s, some x)
    | (s, none) =>
      if p.s = 1 || p.shards.all fun x => x.summary.count = 0 then (s, none)
      else match p.leastShard with
        | none => (s, none)
        | some k =>
          match s.serve n k, p.threshold with
          | (s, none), some (_, holder) => load (s.serve n holder)
          | r, _ => load r

/-- Write the state byte of a TCB (R285). -/
def State.setTaskState (s : State) (pa v : Nat) : State := { s with mem := s.mem.write (pa + 16) 1 v }

/-! ### Failing a task (R290, R294) -/

/-- The fault record of a failed task. R290 gives it zeros from byte 24 on, R270 and R361 every record of types 1 to 6 the gang's
fault domain in byte 34, which this one holds too (DEDUCED, log entry 71). -/
def taskRecord (code gang tile ctx : Nat) (tcb info : Word) (domain : Nat) : Vec :=
  BitVec.ofNat 512 (1 + code % 256 * 2 ^ 8 + gang % 65536 * 2 ^ 16 + tile % 65536 * 2 ^ 32 + ctx % 65536 * 2 ^ 48 +
    tcb.toNat * 2 ^ 64 + info.toNat * 2 ^ 128 + domain % 256 * 2 ^ 272)

/-- Push an item to a region's fault queue: admitted when the queue is open and names the region (R294); where that is queue 0, behind
the records that are held (R361). -/
def State.pushFault (s : State) (fq : Nat) (rid : BitVec 16) (item : Vec) : State × Bool :=
  let q := s.queue fq
  if q.open_ && q.rid = rid then
    if fq = 0 && !s.mgmt.records.held.isEmpty then (s.holdRecord item, true)
    else match s.pushItem fq item with
    | (s, .ok _) => (s, true)
    | (s, .error _) => (s, false)
  else (s, false)

/-- Fail a task met or held by a context: its state, the record to its region's queue, or else to the resident kernel with
code QUOTA, and one task less in flight (R290). -/
def State.failTask (s : State) (a : Agent) (g : Gang) (tcb : Word) (pa code : Nat) (info : Word) : State :=
  let s := s.setTaskState pa 5
  let item := taskRecord code (s.gangOf a) ((tileNo a).getD 0xFFFF) (ctxid a) tcb info g.fdom
  let x := s.pushFault g.fq g.rid item
  let s := if x.2 then x.1 else x.1.pushRecord { x.1.recordFor a 1 Code.quota with addr := tcb }
  s.lessFlight g.pool

/-! ### Serving the requests of a tile (R287, R289) -/

/-- Give a task to the context of a request: allot, state running, its address, offset and arguments. -/
def State.giveTask (s : State) (t : Nat) (w : TaskWaiter) (tcb : Word) (pa off size : Nat) : State :=
  let i := slotNo w.agent
  let s := s.setTaskState pa 3
  let s := s.recordPut t (0x240 + 8 * i) 8 (off + size * 2 ^ 32)
  let s := s.recordPut t (0x3A0 + 8 * i) 8 tcb.toNat
  let args := [0, 1, 2, 3].map fun j => toWord (s.mem.read (pa + 32 + 8 * j) 8)
  s.finish w.agent fun c =>
    (args.zipIdx.foldl (fun c (v, j) => c.setXn (w.d.toNat + 2 + j) v)
      ((c.setX w.d tcb).setXn (w.d.toNat + 1) (toWord off)))

/-- Drop the head request of a tile. -/
def State.dropRequest (s : State) (t : Nat) : State := s.modTile t fun tl => { tl with taskOrder := tl.taskOrder.drop 1 }

/-- Serve the requests at the head of a tile's order as long as a task fits. A task whose TCB can no longer be reached is
dropped (DESIGN CHOICE, log entry 37). -/
def State.serveTile (s : State) (g : Gang) (t : Nat) : Nat → State
  | 0 => s
  | fuel + 1 =>
    match (s.tile t).taskOrder with
    | [] => s
    | w :: _ =>
      let head := s.headTask t
      if head ≠ 0 then
        let size := s.recordGet t 0x110 4
        match s.place t size, s.unitPa head 2 with
        | some off, .ok pa => (((s.setHead t 0 0).dropRequest t).giveTask t w head pa off size).serveTile g t fuel
        | some _, .error _ => ((s.setHead t 0 0).lessFlight g.pool).serveTile g t fuel
        | none, _ => s
      else
        match s.readyTake g.pool (g.tiles.headD 0) with
        | (s, none) => s
        | (s, some tcb) =>
          match s.unitPa tcb 2 with
          | .error _ => (s.lessFlight g.pool).serveTile g t fuel
          | .ok pa =>
            match s.typeSize t (s.mem.read (pa + 18) 1) with
            | none => (s.failTask w.agent g tcb pa Code.illegal 0).serveTile g t fuel
            | some size =>
              match s.place t size with
              | some off => ((s.dropRequest t).giveTask t w tcb pa off size).serveTile g t fuel
              | none => (s.setHead t tcb size).setTaskState pa 2

/-- Complete the requests of a tile when nothing is in flight and no head task is held (R289). -/
def State.endIdle (s : State) (n t : Nat) : State :=
  if s.inFlight n = 0 && s.headTask t = 0 then
    let ws := (s.tile t).taskOrder
    ws.foldl (fun s w => s.finish w.agent fun c => (c.setX w.d 0).setXn (w.d.toNat + 1) 0)
      (s.modTile t fun tl => { tl with taskOrder := [] })
  else s

/-- Enough turns to serve a tile: its requests and every element of its pool. -/
def State.serveTurns (s : State) (n t : Nat) : Nat :=
  (s.tile t).taskOrder.length + 1 + match s.pool n with
    | some p => (p.shards.map fun x => x.chip.length + x.scree.length + x.held.length).sum
    | none => 0

/-- A release, a freed allotment, or a count that reached 0: every tile of the pool is served, in tile order. Under FREEZE
released tasks wait in their pool (R292). -/
def State.wakePool (s : State) (n : Nat) : State :=
  if s.freeze then s
  else
  let tiles := s.poolTiles n
  let s := tiles.foldl (fun s t =>
    match (s.tile t).gang.bind s.gangs.find with
    | some g => s.serveTile g t (s.serveTurns n t)
    | none => s) s
  tiles.foldl (fun s t => s.endIdle n t) s

/-- ROUND_BOUNDARY (R313). Takes of the task unit that a spent budget or the threshold held back run again too (R299, R302). -/
def execRoundBoundary (p : Fin 64) (s : State) : Out :=
  .next (match s.pool p.val with
    | none => s
    | some x =>
      if !x.due s.now then s
      else
        let s := s.setPool p.val x.newRound
        if x.s = 1 then s.rerunTakes p.val
        else ((((List.range x.s).foldl (fun s i => s.admitHeld p.val i (x.shard i).held.length) s).rebalance p.val).rerunTakes
          p.val).wakePool p.val)

/-! ### Releases and counters (R286) -/

/-- Release a TCB: ready and put into its pool, or failed with a record when the pool is not open. -/
def State.releaseTask (s : State) (tcb : Word) (pa : Nat) : State :=
  let n := s.mem.read (pa + 21) 1
  match s.pool n with
  | none => (s.setTaskState pa 5).pushRecord { type := 1, code := Code.prot, addr := tcb }
  | some p =>
    let s := s.setTaskState pa 1
    let s := { s with mem := s.mem.write (pa + 22) 2 (s.mem.read (pa + 22) 2 + 1) }
    let s := s.setPool n { p with tasks := p.tasks + 1 }
    (s.readyPut n (toWord (255 - s.mem.read (pa + 17) 1)) tcb).wakePool n

/-- The place of a TCB that a unit names; one that is not aligned or cannot be reached has none (log entry 37). -/
def State.tcbPlace (s : State) (tcb : Word) : Option Nat :=
  if tcb.toNat % 128 ≠ 0 then none
  else match s.unitPa tcb 2 with
    | .ok pa => some pa
    | .error _ => none

/-- A decrement of dep, or of join: it wraps, and it releases the TCB when it takes its counter from 1 to 0 while the other
is 0 and the TCB is armed. -/
def State.decrement (s : State) (tcb : Word) (join : Bool) : State :=
  match s.tcbPlace tcb with
  | none => s
  | some pa =>
    let off := if join then 4 else 0
    let v := s.mem.read (pa + off) 4
    let s' := { s with mem := s.mem.write (pa + off) 4 (v + (2 ^ 32 - 1)) }
    if v = 1 && s.mem.read (pa + (4 - off)) 4 = 0 && s.mem.read (pa + 16) 1 = 0 then s'.releaseTask tcb pa else s'

/-- The decrements of a unit. -/
def State.decrements (s : State) (u : Fin 4) : List Decrement := s.taskUnits[u.val]'u.isLt

/-- TASK_DECREMENT: the oldest decrement of a task unit is performed at its home; after the last of its report one task less
is in flight (R290). -/
def execTaskDecrement (u : Fin 4) (s : State) : Out :=
  .next (match s.decrements u with
    | [] => s
    | x :: rest =>
      let s := { s with taskUnits := s.taskUnits.set u.val rest u.isLt }.decrement x.tcb x.join
      match x.last with
      | some n => (s.lessFlight n).wakePool n
      | none => s)

/-! ### The instructions (R288 to R291) -/

/-- Run a task instruction of a context whose gang has a ready pool; else it traps PROT (R288). -/
def State.onPool (s : State) (k : Nat → Gang → State → State) : State :=
  match tileNo s.cur, s.gangAt s.cur with
  | some t, some g => if g.pool = 0xFF then s.trapWord Code.prot else k t g s
  | _, _ => s.trapWord Code.prot

/-- task.next: the request joins its tile's order and is served; one that does not wait returns with its reason. -/
def execTaskNext (d a : BitVec 5) (s : State) : Out :=
  .next (s.needLimits (d.toNat ≤ 26) fun s => s.onPool fun t g s =>
    let me := s.cur
    let held := s.heldBy t (slotNo me)
    if held ≠ 0 then s.trap Code.prot held
    else
      let wait := bit (s.c.getX a) 0
      let s := s.park .task
      let s := s.modTile t fun tl => { tl with taskOrder := tl.taskOrder ++ [⟨me, d⟩] }
      let s := s.wakePool g.pool
      if wait || !((s.tile t).taskOrder.any fun w => w.agent = me) then s
      else
        let reason : Word := if s.headTask t ≠ 0 then 2 else 1
        let s := s.modTile t fun tl => { tl with taskOrder := tl.taskOrder.filter fun w => w.agent ≠ me }
        s.finish me fun c => (c.setX d 0).setXn (d.toNat + 1) reason)

/-- The counters that a task's end decrements, in order: its successors' dep, then the join of jptr (R284, R290). -/
def State.targetsOf (s : State) (pa : Nat) : List (Word × Bool) :=
  let ext := toWord (s.mem.read (pa + 24) 8)
  let succ := (List.range (s.mem.read (pa + 20) 1)).filterMap fun k =>
    if k < 8 then some (toWord (s.mem.read (pa + 64 + 8 * k) 8))
    else match s.unitRead (ext + toWord (8 * (k - 8))) 8 with
      | .ok v => some (toWord v)
      | .error _ => none
  let jptr := toWord (s.mem.read (pa + 8) 8)
  succ.map (fun x => (x, false)) ++ (if jptr = 0 then [] else [(jptr, true)])

/-- Queue the decrements of a report at a task unit; the last carries the pool. -/
def queueDecrements (s : State) (u : Fin 4) (n : Nat) : List (Word × Bool) → State
  | [] => s
  | (tcb, join) :: rest =>
    let x : Decrement := ⟨s.nextId, s.cur, tcb, join, if rest.isEmpty then some n else none⟩
    let s := { s with nextId := s.nextId + 1, taskUnits := s.taskUnits.set u.val (s.decrements u ++ [x]) u.isLt }
    queueDecrements s u n rest

/-- The context's task ends: its allotment is free and it holds no task. -/
def State.endTask (s : State) (t : Nat) (a : Agent) : State :=
  (s.recordPut t (0x3A0 + 8 * slotNo a) 8 0).recordPut t (0x240 + 8 * slotNo a) 8 0

/-- The task unit's die of a context. -/
def unitOf (a : Agent) : Fin 4 := ⟨dieOf a % 4, Nat.mod_lt _ (by omega)⟩

/-- The checks of task.done and task.fail, then the release, then the report (R288, R290). -/
def State.report (s : State) (a : BitVec 5) (k : Nat → Gang → Word → Nat → State → State) : State :=
  s.onPool fun t g s =>
    let tcb := s.c.getX a
    s.structAt tcb 128 64 2 true fun pa s =>
      if tcb ≠ s.heldBy t (slotNo s.cur) then s.trap Code.prot tcb
      else s.afterRelease fun s => k t g tcb pa (s.endTask t s.cur).retire

/-- task.done: done, its decrements asked for, in flight until the last of them. -/
def execTaskDone (a : BitVec 5) (s : State) : Out :=
  .next (s.report a fun _ g _ pa s =>
    let s := s.setTaskState pa 4
    let xs := s.targetsOf pa
    let s := if xs.isEmpty then s.lessFlight g.pool else queueDecrements s (unitOf s.cur) g.pool xs
    s.wakePool g.pool)

/-- task.fail. -/
def execTaskFail (a b : BitVec 5) (s : State) : Out :=
  .next (let info := s.c.getX b
    s.report a fun _ g tcb pa s => (s.failTask s.cur g tcb pa (bits info 7 0) info).wakePool g.pool)

/-- The checks of task.rearm and task.spawn, then the release, then the TCB at its home (R288, R291). -/
def State.onTcb (s : State) (a : BitVec 5) (k : Word → Nat → State → State) : State :=
  let tcb := s.c.getX a
  s.structAt tcb 128 64 2 true fun pa s => s.afterRelease fun s => k tcb pa s

/-- task.rearm. -/
def execTaskRearm (a : BitVec 5) (s : State) : Out :=
  .next (s.onTcb a fun tcb pa s =>
    let st := s.mem.read (pa + 16) 1
    if st = 4 || st = 5 then s.retire.releaseTask tcb pa else s.trap Code.rearmbusy tcb)

/-- task.spawn. -/
def execTaskSpawn (a b : BitVec 5) (s : State) : Out :=
  .next (s.onTcb a fun tcb pa s =>
    let v := s.c.getX b
    let st := s.mem.read (pa + 16) 1
    if 1 ≤ st && st ≤ 3 then s.trap Code.rearmbusy tcb
    else
      let s := s.retire
      let jptr := toWord (s.mem.read (pa + 8) 8)
      let s := match bit v 63 && jptr ≠ 0, s.tcbPlace jptr with
        | true, some j => { s with mem := s.mem.write (j + 4) 4 (s.mem.read (j + 4) 4 + 1) }
        | _, _ => s
      let s := { s with mem := s.mem.write pa 8 (bits v 31 0 + bits v 62 32 * 2 ^ 32) }.setTaskState pa 0
      if bits v 62 0 = 0 then s.releaseTask tcb pa else s)

/-- gang.launch (R272, R288): refused while the unit holds 16 records, or a kernel crash is on (R365). -/
def execGangLaunch (d a : BitVec 5) (s : State) : Out :=
  .next (s.needKernel fun s =>
    match s.cur with
    | .facet _ _ _ => s.trapWord Code.prot
    | .crest k c =>
      s.structAt (s.c.getX a) 64 64 0 true fun l s => s.afterRelease fun s =>
        s.structRead (s.c.getX a) l 64 fun v s =>
          let u := unitOf s.cur
          let du := s.dispatch[u.val]'u.isLt
          if 16 ≤ du.launches.length || s.mgmt.crashed then s.setXRetire d allOnes
          else
            let x : Launch := { ticket := du.ticket, core := k, ctx := c, rec_ := BitVec.ofNat 512 v, checked := false
                                rid := 0, budget := 0, fdom := 0, fq := 0, terms := ⟨0, 0, 0, 0, 0⟩, image := []
                                tensors := [], types := [] }
            let du' := { du with launches := du.launches ++ [x], ticket := du.ticket + 1 }
            let s := { s with dispatch := s.dispatch.set u.val du' u.isLt }
            s.setXRetire d (du.ticket.setWidth 64))

/-- The bind record of a gang, or of a free slot, whose record is 32 zero bytes: R273 gives a free record's state 0 and no other
field (DESIGN CHOICE, log entry 65). -/
def bindRecord (g : Option Gang) : List Byte :=
  match g with
  | none => List.replicate 32 0
  | some g =>
    let state := match g.phase with
      | .running => 2
      | .saved => 3
      | .ending => 4
    let save : Word := if g.phase = .saved then g.save else 0
    toBytes 8 (g.x0 + g.y0 * 2 ^ 8 + g.w * 2 ^ 16 + g.h * 2 ^ 24 + state * 2 ^ 32 + g.rid.toNat * 2 ^ 48) ++
      toBytes 8 (g.ticket.toNat + (g.unit_ + g.ctx * 256) * 2 ^ 32) ++ toBytes 8 save.toNat ++ toBytes 8 g.rcb.toNat

/-- The firmware writes a slot of the slot table (R273). -/
def State.setSlot (s : State) (slot : Nat) (g : Option Gang) : State :=
  { s with
    mem := s.mem.setBytes (Config.slotTable + 32 * slot) (bindRecord g)
    gangs := match g with
      | some g => s.gangs.put slot g
      | none => s.gangs.del slot }

/-- Has every control context of a gang exited? -/
def State.allExited (s : State) (g : Gang) : Bool :=
  g.tiles.all fun t => fourFacets.all fun f =>
    match facetOwner t f.val with
    | some (.facet t f) => !(s.ctx (.facet t f 0)).live
    | _ => true

/-- The gang of a tile is ending once its last control context has exited. -/
def State.noteExit (s : State) (t : Nat) : State :=
  match (s.tile t).gang with
  | none => s
  | some n => match s.gangs.find n with
    | some g => if s.allExited g then s.setSlot n (some { g with phase := .ending }) else s
    | none => s

/-- gang.exit (R275). -/
def execGangExit (s : State) : Out :=
  .next (match s.cur with
    | .crest _ _ => s.trapWord Code.prot
    | .facet t f _ =>
      if isBead s.cur then s.trapWord Code.prot
      else match s.ownedMutex s.cur with
        | some m => s.trap Code.prot (toWord m)
        | none =>
          let held := s.heldBy t.val (slotNo s.cur)
          if held ≠ 0 then s.trap Code.prot held
          else if s.beadMask t f ≠ 0 then s.park .beads
          else s.afterRelease fun s => (s.mod fun c => { c with run := .notLive }).noteExit t.val)

end Sys2Proof.Machine
end

