-- ==== Sys2Proof/Machine/Gangs.lean ====
section
/-! DEFINITION. The dispatch units and the scheduling firmware: checking a launch, binding and ending a gang, quanta
(R29, R268 to R275, R309). -/

namespace Sys2Proof.Machine

/-! ### Launch records (R271) -/

/-- n bytes of a launch record at an offset. -/
def Launch.at_ (x : Launch) (off n : Nat) : Nat := recAt x.rec_ off n
/-- w. -/
def Launch.w (x : Launch) : Nat := x.at_ 40 1
/-- h. -/
def Launch.h (x : Launch) : Nat := x.at_ 41 1
/-- isize. -/
def Launch.isize (x : Launch) : Nat := x.at_ 8 4
/-- entry. -/
def Launch.entry (x : Launch) : Nat := x.at_ 12 4
/-- rcb. -/
def Launch.rcb (x : Launch) : Word := toWord (x.at_ 16 8)
/-- cbase. -/
def Launch.cbase (x : Launch) : Nat := x.at_ 32 4
/-- climit. -/
def Launch.climit (x : Launch) : Nat := x.at_ 36 4
/-- ntens. -/
def Launch.ntens (x : Launch) : Nat := x.at_ 42 1
/-- flags. -/
def Launch.flags (x : Launch) : Nat := x.at_ 43 1
/-- tid0. -/
def Launch.tid0 (x : Launch) : Nat := x.at_ 44 1
/-- pool. -/
def Launch.pool (x : Launch) : Nat := x.at_ 45 1
/-- abase. -/
def Launch.abase (x : Launch) : Nat := x.at_ 56 4
/-- alimit. -/
def Launch.alimit (x : Launch) : Nat := x.at_ 60 4

/-- The first row of the checks (R272). -/
def Launch.shapeOk (x : Launch) : Bool :=
  let window := x.climit - x.cbase
  (1 ≤ x.w && x.w ≤ 30) && (1 ≤ x.h && x.h ≤ 30) && x.cbase < x.climit && x.climit ≤ 0x3C_0000 && x.isize ≤ window &&
    x.entry < window && x.entry % 4 = 0 && x.ntens ≤ 16 &&
    (x.ntens = 0 || (x.tid0 ≠ 0 && x.tid0 + x.ntens ≤ 256)) && (x.pool ≤ 63 || x.pool = 0xFF) &&
    x.flags < 4 && x.at_ 46 2 = 0

/-- The row of the task arena. -/
def Launch.arenaOk (x : Launch) : Bool :=
  x.at_ 48 8 ≠ 0 && x.abase < x.alimit && x.alimit ≤ 0x3C_0000 && (x.alimit ≤ x.cbase || x.climit ≤ x.abase)

/-! ### The firmware's reads -/

/-- The bytes of a structure in space 0x00, page by page, or the code of the read that faults. -/
def State.unitBytes (s : State) (va n : Nat) : Except Nat (List Byte) :=
  (runsOf va n 0x10000).foldlM (fun acc (lo, k) => (s.unitPa (toWord lo) 0).map fun pa => acc ++ s.mem.bytes pa k) []

/-- The first 64 bytes of each RCB of a chain, and whether it keeps the rules of R269. -/
def State.chain (s : State) : Nat → Word → Except Nat (List Nat × Bool)
  | 0, _ => .ok ([], false)
  | fuel + 1, rcb => do
    let v ← s.unitRead rcb 64
    let parent := toWord (v % 2 ^ 64)
    let aligned : Bool := rcb.toNat % 128 = 0
    if parent = 0 then .ok ([v], aligned && bitsN v 71 64 = 0xFF)
    else
      let r ← s.chain fuel parent
      .ok (v :: r.1, aligned && r.2)

/-- The effective value of field `num` of a chain: n bytes at an offset of the first RCB that has its own (R269). -/
def effective (num off n : Nat) : List Nat → Nat
  | [] => 0
  | v :: rest => if bitsN v (64 + num) (64 + num) = 1 then v / 2 ^ (8 * off) % 2 ^ (8 * n) else effective num off n rest

/-- The terms of a region beside its tile budget, fault domain and fault queue: the effective priority, share, local-memory
bytes, HBM pages and quantum (R268, R269). -/
def termsOf (chain : List Nat) : RegionTerms :=
  { prio := effective 0 9 1 chain, share := effective 4 20 4 chain, lmem := effective 5 24 8 chain
    pages := effective 6 32 8 chain, quant := effective 7 40 4 chain }

/-- What the firmware takes from an RCB chain for a launch (R269). -/
def Launch.fromChain (x : Launch) (chain : List Nat) : Launch :=
  { x with rid := BitVec.ofNat 16 (bitsN (chain.headD 0) 111 96), budget := effective 3 16 4 chain
           fdom := effective 1 10 1 chain, fq := effective 2 14 2 chain, terms := termsOf chain }

/-- What it takes again for a gang at the start of a quantum (R269). -/
def Gang.fromChain (g : Gang) (chain : List Nat) : Gang :=
  { g with budget := effective 3 16 4 chain, fdom := effective 1 10 1 chain, fq := effective 2 14 2 chain
           terms := termsOf chain }

/-! ### LAUNCH_CHECK (R272) -/

/-- Refuse unless a row of the checks holds. -/
def require (ok : Bool) (code : Nat) : Except Nat Unit := if ok then .ok () else .error code

/-- The rows that a pool launch adds: the arena, the task-type table, the types and the pool (R309). -/
def State.checkTasks (s : State) (x : Launch) : Except Nat (List Word) := do
  if x.pool = 0xFF then return []
  require x.arenaOk Code.illegal
  let bs ← s.unitBytes (x.at_ 48 8) 512
  let types := (List.range 64).map fun i => toWord (fromBytes ((bs.drop (8 * i)).take 8))
  require (types.all fun e => !bit e 63 || bits e 21 0 ≤ x.alimit - x.abase) Code.illegal
  require (match s.pool x.pool with
    | some p => p.s = 1 && p.limit = 0
    | none => false) Code.illegal
  return types

/-- The rows of R272 in order: the record with what the firmware read, or the status. -/
def State.verify (s : State) (x : Launch) : Except Nat Launch := do
  require x.shapeOk Code.illegal
  let ch ← if x.rcb = 0 then Except.ok ([], false) else s.chain 16 x.rcb
  require ch.2 Code.illegal
  let types ← s.checkTasks x
  let tens ← s.unitBytes (x.at_ 24 8) (64 * x.ntens)
  let tensors := (List.range x.ntens).map fun i => BitVec.ofNat 512 (fromBytes ((tens.drop (64 * i)).take 64))
  require (tensors.all recOk) Code.ttbad
  let image ← s.unitBytes (x.at_ 0 8) x.isize
  require (!s.signet.rsg || (s.signet.keyed && 128 ≤ image.length && Config.signatureOk image)) Code.alarm
  let x := x.fromChain ch.1
  require (x.w * x.h ≤ x.budget) Code.quota
  return { x with checked := true, image := image, tensors := tensors, types := types }

/-- Replace the launches of a unit. -/
def State.setLaunches (s : State) (u : Fin 4) (f : List Launch → List Launch) : State :=
  let du := s.dispatch[u.val]'u.isLt
  { s with dispatch := s.dispatch.set u.val { du with launches := f du.launches } u.isLt }

/-- The launches of a unit. -/
def State.launches (s : State) (u : Fin 4) : List Launch := (s.dispatch[u.val]'u.isLt).launches

/-- The launch of a ticket. -/
def State.launch (s : State) (u : Fin 4) (ticket : BitVec 32) : Option Launch :=
  (s.launches u).find? fun x => x.ticket = ticket

/-- A dispatch message to a launcher (R272): cookie the ticket's low half, kind, status, info. -/
def State.tell (s : State) (u : Fin 4) (core : Fin 32) (ctx : Fin 2) (ticket : BitVec 32) (kind status info : Nat) : State :=
  let du := s.dispatch[u.val]'u.isLt
  let m : DispatchMsg := ⟨core, ctx, toWord (bits ticket 15 0 + kind * 2 ^ 16 + status * 2 ^ 24), toWord info⟩
  { s with dispatch := s.dispatch.set u.val { du with out := du.out ++ [m] } u.isLt }

/-- LAUNCH_CHECK: the firmware checks a record that it has not checked; a FREEZE or a takeover defers it. A signature that
fails raises the alarm (R369); an unkeyed module refuses without another. -/
def execLaunchCheck (u : Fin 4) (ticket : BitVec 32) (s : State) : Out :=
  .next (match s.launch u ticket with
    | none => s
    | some x =>
      if x.checked || s.freeze then s
      else match s.verify x with
        | .ok x => s.setLaunches u fun l => l.map fun y => if y.ticket = ticket then x else y
        | .error code =>
          let s := if code = Code.alarm && s.signet.keyed then s.raiseAlarm .signature 0xFFFE else s
          (s.setLaunches u fun l => l.filter fun y => y.ticket ≠ ticket).tell u x.core x.ctx ticket 0xF3 code
            ticket.toNat)

/-! ### GANG_BIND (R29, R80, R161, R166, R187, R271 to R274) -/

/-- How many tiles the gangs of a region hold; a saved gang holds none. -/
def State.heldTiles (s : State) (rid : BitVec 16) : Nat :=
  (s.gangs.cells.filter fun (_, g) => g.rid = rid && g.phase ≠ .saved).foldl (fun n (_, g) => n + g.w * g.h) 0

/-- May a region hold n tiles more: its tile budget, and its local-memory budget of 4 MiB a tile (R28, R269; log entry 66)? -/
def State.mayHold (s : State) (rid : BitVec 16) (budget : Nat) (terms : RegionTerms) (n : Nat) : Bool :=
  decide (s.heldTiles rid + n ≤ budget) && decide ((s.heldTiles rid + n) * 0x40_0000 ≤ terms.lmem)

/-- Is a w × h rectangle at an origin inside the array, every tile of it free and not lasting (R19, R226)? -/
def State.roomAt (s : State) (w h x0 y0 : Nat) : Bool :=
  x0 + w ≤ 30 && y0 + h ≤ 30 &&
    (List.range h).all fun j => (List.range w).all fun i =>
      let t := s.tile ((y0 + j) * 30 + x0 + i)
      t.gang.isNone && !t.lasting

/-- Is there room for a w × h rectangle anywhere? -/
def State.hasRoom (s : State) (w h : Nat) : Bool :=
  (List.range 30).any fun y0 => (List.range 30).any fun x0 => s.roomAt w h x0 y0

/-- Could a region of a higher priority have tiles now: a checked launch of any dispatch unit or a saved gang that lies within its
budgets and finds room? The firmware obeys the priorities, and a gang of this one then waits (R28; log entry 66). -/
def State.outranked (s : State) (prio : Nat) : Bool :=
  (s.dispatch.toList.any fun d => d.launches.any fun x => x.checked && decide (prio < x.terms.prio) &&
    s.mayHold x.rid x.budget x.terms (x.w * x.h) && s.hasRoom x.w x.h && (List.range 256).any fun i => (s.gangs.find i).isNone) ||
  (s.gangs.cells.any fun (_, g) => decide (g.phase = .saved) && decide (prio < g.terms.prio) &&
    s.mayHold g.rid g.budget g.terms (g.w * g.h) && s.hasRoom g.w g.h)

/-- May a launch bind to a slot and an origin: checked, slot free, room, the region within its budgets and no higher one before it
(R19, R28, R269)? -/
def State.bindable (s : State) (x : Launch) (slot x0 y0 : Nat) : Bool :=
  x.checked && !s.freeze && !s.mgmt.mapFail && (s.gangs.find slot).isNone && s.mayHold x.rid x.budget x.terms (x.w * x.h) &&
    s.roomAt x.w x.h x0 y0 && !s.outranked x.terms.prio

/-- The context of a bound tile as dispatch sets it (R80, R161, R166). -/
def boundCtx (x : Launch) (slot rank : Nat) (f : Fin 4) (k : Fin 11) : Ctx :=
  let c := { Ctx.initial with
    rank := toWord rank, gangid := toWord slot, gangw := toWord x.w, gangh := toWord x.h
    cwin := toWord (x.cbase + x.climit * 2 ^ 32)
    srgen := 0x9E37_79B9_7F4A_7C15 ^^^ toWord ((rank * 44 + f.val * 11 + k.val) * 2) }
  if k.val = 0 then
    { c.setX 30 (toWord (0x3C_0000 - 0x1_8000 * f.val)) with pc := toWord (x.cbase + x.entry), run := .ready }
  else c

/-- A tile that a gang has been placed on: what belongs to the physical tile stays (R182, R225, R226). -/
def Tile.placed (old : Tile) (rcb : Word) (slot : Nat) : Tile :=
  { Tile.initial with
    gang := some slot, region := rcb, wp := old.wp, bzwin := old.bzwin, sliceEvents := old.sliceEvents
    bankEvents := old.bankEvents, events := old.events, lasting := old.lasting }

/-- A tile of a bound gang. -/
def boundTile (old : Tile) (x : Launch) (slot : Nat) : Tile :=
  let t := { old.placed x.rcb slot with win := #v[0xC03C_0000_0000_0000, 0, 0, 0] }
  x.tensors.zipIdx.foldl (fun (t : Tile) (r, i) => t.setTensor (x.tid0 + i) r) t

/-- Load the allocator of a pool gang: the type table, an empty arena (R274; log entry 16). -/
def State.bindAllocator (s : State) (x : Launch) (t : Nat) : State :=
  let s := { s with mem := s.mem.setBytes (lmLoc t 0x3F_F100) (List.replicate 0x400 0) }
  if x.pool = 0xFF then s
  else
    let s := (s.recordPut t 0x100 4 x.abase).recordPut t 0x104 4 x.alimit
    x.types.zipIdx.foldl (fun s (e, i) =>
      s.recordPut t (0x140 + 4 * i) 4 (bits e 21 0 + if bit e 63 then 2 ^ 31 else 0)) s

/-- Place a gang on one of its tiles. -/
def State.bindTile (s : State) (x : Launch) (slot rank : Nat) (t : Fin 900) : State :=
  let bytes := x.image ++ List.replicate (x.climit - x.cbase - x.image.length) 0
  let s := { s with mem := s.mem.setBytes (lmLoc t.val x.cbase) bytes }
  let s := (s.recordPut t.val 0 8 (x.w + x.h * 2 ^ 32)).recordPut t.val 8 8 rank
  let s := { s with mem := s.mem.setBytes (lmLoc t.val 0x3F_F020) (List.replicate 32 0) }
  let s := s.bindAllocator x t.val
  let s := s.modTile t.val fun old => boundTile old x slot
  let s := s.modMm t.val fun _ => { Mm.initial with bz := { Bezel.initial with site := toWord x.flags } }
  let s := fourFacets.foldl (fun s f =>
    (s.modFacet t f fun _ => Facet.initial).modNi (.facet t f) fun _ => Ni.initial) s
  (tileAgents t).foldl (fun s a =>
    match a with
    | .facet _ f k => s.setCtx a (boundCtx x slot rank f k)
    | .crest _ _ => s) s

/-- Do something for each tile of a gang and its rank. -/
def State.eachTile (s : State) (g : Gang) (f : State → Nat → Fin 900 → State) : State :=
  g.tiles.zipIdx.foldl (fun s (t, rank) => if h : t < 900 then f s rank ⟨t, h⟩ else s) s

/-- The gang that a launch becomes at a place. -/
def Launch.gangAt (x : Launch) (u : Fin 4) (x0 y0 : Nat) : Gang :=
  { x0 := x0, y0 := y0, w := x.w, h := x.h, phase := .running, rid := x.rid, ticket := x.ticket, unit_ := u.val
    core := x.core.val, ctx := x.ctx.val, rcb := x.rcb, pool := x.pool, budget := x.budget, fdom := x.fdom, fq := x.fq
    save := 0, terms := x.terms, kept := [] }

/-- The dispatch hardware places a launch and reports it. -/
def State.bind (s : State) (u : Fin 4) (x : Launch) (slot x0 y0 : Nat) : State :=
  let g := x.gangAt u x0 y0
  let s := s.setLaunches u fun l => l.filter fun y => y.ticket ≠ x.ticket
  let s := (s.setSlot slot (some g)).eachTile g fun s rank t => s.bindTile x slot rank t
  s.tell u x.core x.ctx x.ticket 0xF1 0 slot

/-! ### Restoring a saved gang (R33, R183, R274; log entry 17) -/

/-- A context of a restored tile: a control context is in the handler's pre-emption entry with PE = 1, a bead is saved; the
records, which the handler copies in and kret reloads, hold their state. -/
def restoredCtx (g : Gang) (slot rank : Nat) (f : Fin 4) (k : Fin 11) : Ctx :=
  let c := { Ctx.initial with
    rank := toWord rank, gangid := toWord slot, gangw := toWord g.w, gangh := toWord g.h, run := .saved }
  if k.val = 0 then
    let cause := ecauseOf 2 0 false none
    let c := (c.entered true 0x80 cause 0 0).setBank (c.entryBank cause 0 0 (recordOffset f.val 0))
    { c with run := .ready, estat := c.estat ||| 0x100 }
  else c

/-- What a saved gang keeps of the tile of a rank. -/
def Gang.keptOf (g : Gang) (rank : Nat) : TileKept :=
  g.kept.getD rank ⟨Vector.replicate 4 (Kept.initial, []), Tile.initial.channels⟩

/-- Place a saved gang on one of its new tiles: no fence, windows clear, everything still to reload, and every message refused until
then (R264). With the fence gone (R163), a recorded arrival of a facet that was fenced counts, and a phase whose members have all
arrived is reported (R133). What no record or area holds takes its launch value: heartbeat interval and timer, the coprocessor
ring, the kernel banks, the turn of each facet (DESIGN CHOICE, log entry 84). -/
def State.restoreTile (s : State) (g : Gang) (slot rank : Nat) (t : Fin 900) : State :=
  let kept := g.keptOf rank
  let s := (s.recordPut t.val 0 8 (g.w + g.h * 2 ^ 32)).recordPut t.val 8 8 rank
  let s := s.modTile t.val fun old => { old.placed g.rcb slot with spilled := true, channels := kept.channels.map (Channel.report · 0) }
  let s := s.modMm t.val fun _ => Mm.initial
  let s := fourFacets.foldl (fun s f =>
    let part := kept.parts[f.val]'f.isLt
    (s.modFacet t f fun _ => Facet.initial).modNi (.facet t f) fun _ =>
      { Ni.initial with quiescing := true, spilled := true, kept := part.1, notices := part.2 }) s
  (tileAgents t).foldl (fun s a =>
    match a with
    | .facet _ f k => s.setCtx a (restoredCtx g slot rank f k)
    | .crest _ _ => s) s

/-- The saved gang of a ticket of a unit, with its slot. -/
def State.savedGang (s : State) (u : Fin 4) (ticket : BitVec 32) : Option (Nat × Gang) :=
  s.gangs.cells.find? fun (_, g) => g.phase = .saved && g.unit_ = u.val && g.ticket = ticket

/-- May a saved gang be restored to a slot, its own or a free one, and an origin: a rectangle of the same w and h, the region
within its budgets and no higher one before it? -/
def State.restorable (s : State) (old : Nat) (g : Gang) (slot x0 y0 : Nat) : Bool :=
  !s.freeze && !s.mgmt.mapFail && (slot = old || (s.gangs.find slot).isNone) &&
    s.mayHold g.rid g.budget g.terms (g.w * g.h) && s.roomAt g.w g.h x0 y0 && !s.outranked g.terms.prio

/-- The dispatch hardware places a saved gang: state 3 becomes 2. -/
def State.restore (s : State) (old : Nat) (g : Gang) (slot x0 y0 : Nat) : State :=
  let b := { g with x0 := x0, y0 := y0, phase := .running, kept := [] }
  let s := if slot = old then s else s.setSlot old none
  (s.setSlot slot (some b)).eachTile b fun s rank t => s.restoreTile g slot rank t

/-- GANG_BIND: the firmware writes the bind record and the dispatch hardware places the gang, of a waiting launch or a saved
one. The record's state 1 stands only within this step. -/
def execGangBind (u : Fin 4) (ticket : BitVec 32) (slot : Fin 256) (x0 y0 : Fin 30) (s : State) : Out :=
  .next (match s.launch u ticket with
    | some x => if s.bindable x slot.val x0.val y0.val then s.bind u x slot.val x0.val y0.val else s
    | none => match s.savedGang u ticket with
      | some (old, g) =>
        if s.restorable old g slot.val x0.val y0.val then s.restore old g slot.val x0.val y0.val else s
      | none => s)

/-! ### GANG_END, DISPATCH_MESSAGE, QUANTUM_START (R269, R272, R275) -/

/-- Has every copy queue of a gang's tiles completed its entries? -/
def State.copiesDone (s : State) (g : Gang) : Bool :=
  g.tiles.all fun t => fourFacets.all fun f =>
    match facetOwner t f.val with
    | some o => (s.copyQueue o 0).isEmpty && (s.copyQueue o 1).isEmpty
    | none => true

/-- The tiles of a gang that has ended or been torn down are free; their local memory stays. -/
def State.freeTiles (s : State) (g : Gang) : State :=
  g.tiles.foldl (fun s t => s.modTile t fun tl => { tl with gang := none, region := 0, preempt := false }) s

/-- GANG_END. -/
def execGangEnd (slot : Fin 256) (s : State) : Out :=
  .next (match s.gangs.find slot.val with
    | none => s
    | some g =>
      if g.phase ≠ .saved && s.allExited g && s.copiesDone g then
        let s := (s.setSlot slot.val none).freeTiles g
        s.tell ⟨g.unit_ % 4, Nat.mod_lt _ (by omega)⟩ ⟨g.core % 32, Nat.mod_lt _ (by omega)⟩
          ⟨g.ctx % 2, Nat.mod_lt _ (by omega)⟩ g.ticket 0xF2 0 slot.val
      else s)

/-- DISPATCH_MESSAGE: the oldest message whose mailbox has room is placed. -/
def execDispatchMessage (u : Fin 4) (s : State) : Out :=
  .next (let du := s.dispatch[u.val]'u.isLt
    match du.out.findIdx? fun m => s.room (.crest m.core) with
    | none => s
    | some i =>
      match du.out[i]? with
      | none => s
      | some m =>
        let e : MailEntry := { ctx := m.ctx.val, lo := m.lo, hi := m.hi, held := false, reserve := false }
        let s := { s with dispatch := s.dispatch.set u.val { du with out := du.out.eraseIdx i } u.isLt }
        s.modNi (.crest m.core) fun n => { n with mail := n.mail ++ [e] })

/-- A waiting launch with its region's RCBs read again; a chain that cannot be read leaves the values it had. -/
def State.reread (s : State) (x : Launch) : Launch :=
  if x.checked then
    match s.chain 16 x.rcb with
    | .ok (ch, _) => x.fromChain ch
    | .error _ => x
  else x

/-- Of some gangs, the first that together hold at least so many tiles. -/
def shedGangs : List Gang → Nat → List Gang
  | [], _ => []
  | g :: rest, n => if n = 0 then [] else g :: shedGangs rest (n - g.w * g.h)

/-- Has pre-emption finished with every context of a gang's tiles? -/
def State.quiesced (s : State) (g : Gang) : Bool :=
  g.tiles.all fun t => if h : t < 900 then (tileAgents ⟨t, h⟩).all s.handled else true

/-- A pre-emption request to every tile of a gang that is not pre-empted already (R183). -/
def State.requestPreemption (s : State) (g : Gang) : State :=
  if s.quiesced g then s else g.tiles.foldl (fun s t => s.modTile t fun tl => { tl with preempt := true }) s

/-- A region that holds more tiles than its effective budget gives them up: the firmware pre-empts gangs of it, those of the highest
slots, until the others fit (R28, R269; which ones is a DESIGN CHOICE, log entry 66). -/
def State.shed (s : State) (rid : BitVec 16) (budget : Nat) : State :=
  let mine := (s.gangs.cells.filter fun (_, g) => g.rid = rid && g.phase = .running).reverse.map fun x => x.2
  (shedGangs mine (s.heldTiles rid - budget)).foldl State.requestPreemption s

/-- QUANTUM_START: the firmware reads the RCBs of a gang's region again, and those of every launch that waits (R269), and keeps the
region within its tile budget. -/
def execQuantumStart (slot : Fin 256) (s : State) : Out :=
  .next (
    let s := ([0, 1, 2, 3] : List (Fin 4)).foldl (fun s u => s.setLaunches u fun l => l.map s.reread) s
    match s.gangs.find slot.val with
    | none => s
    | some g =>
      match s.chain 16 g.rcb with
      | .error _ => s
      | .ok (ch, _) =>
        let g := g.fromChain ch
        { s with gangs := s.gangs.put slot.val g }.shed g.rid g.budget)

end Sys2Proof.Machine
end

