-- ==== Sys2Proof/Machine/Ports.lean ====
section
/-! DEFINITION. The Traverse ports: port requests, arrivals, routing and key tables, failures (R61, R63, R64, R244,
R367, R377 to R383). Packet formats are the model's own (DESIGN CHOICE, log entry 21). -/

namespace Sys2Proof.Machine

/-! ### PORT (R61, R244, R378 to R380) -/

/-- Cut a buffer into payloads of at most 4 KiB, each with its offset in the buffer (R377). -/
def payloads (bs : List Byte) : List (Nat × List Byte) :=
  (List.range ((bs.length + 4095) / 4096)).map fun i => (4096 * i, (bs.drop (4096 * i)).take 4096)

/-- The packets of a port request. -/
def portPackets (r : CopyReq) (src : Nat) (key : BitVec 16) (bs : List Byte) : List Packet :=
  let d := r.w 3
  (payloads bs).map fun (off, part) =>
    { dest := bits d 12 0, source := src, cls := bits d 15 14, key := key, window := bits d 23 16
      offset := bits d 55 24 + off, seq := 0, request := r.id, start := bits d 55 24, total := bs.length, payload := part }

/-- The answers that the far side or the fabric can give to a request: 0, or the refusals of R64, R378 to R380. -/
def portReplies : List Nat := [0, Code.prot, Code.nack, Code.xlate, Code.linklost]

/-- A port request: the buffer read whole, the route, the key, the packets, and the answer of the fabric (`reply`). A failure
of the transfer is no access of the device, so its info is 0; how many bytes were acknowledged is a free value. -/
def CopyRun.port (c : CopyRun) (reply : Nat) : CopyRun :=
  let r := c.req
  let n := bits (r.w 2) 63 32
  let got := c.readFlat (r.w 1).toNat n
  let c := got.1
  let bs := toBytes n got.2
  if c.stop.isSome then c
  else if bits (r.w 2) 3 0 = 12 then
    { c with s := { c.s with host := { c.s.host with sent := c.s.host.sent ++ [bs] } } }.tally n
  else
    let dst := bits (r.w 3) 12 0
    let cls := bits (r.w 3) 15 14
    match c.s.route (bits (r.w 2) 3 0) dst cls with
    | none => c.fail Code.xlate 0
    | some p =>
      let c := { c with s := c.s.spend }
      match keyOf (c.s.port p).egress (bits (r.w 3) 61 56) with
      | none => c.fail Code.prot 0
      | some key =>
        let c := { c with s := (portPackets r c.s.mgmt.fabricId.toNat key bs).foldl State.transmit c.s }
        if reply = 0 then c.tally n
        else { (c.tally (c.s.freeWord.toNat % (n + 1))).fail reply 0 with s := c.s.spend }

/-- PORT: nothing happens for an answer that the fabric cannot give. -/
def execPort (o : Owner) (q : Fin 2) (reply : BitVec 8) (s : State) : Out :=
  .next (if portReplies.contains reply.toNat then
      s.runReq o q (fun r => r.kind = 8) fun c => c.port reply.toNat
    else s)

/-! ### Messages of the device's units (R254, R378, R382) -/

/-- A message of a unit for a crest context by its ctxid; one that names no crest context goes nowhere. -/
def State.unitMessage (s : State) (id : BitVec 16) (lo hi : Word) : State :=
  match agentOfCtxid none id.toNat with
  | some (.crest k x) =>
    { s with
      msgs := s.msgs ++ [{ id := s.nextId, group := s.nextId, sender := none, kernel := true, dest := .crest k, ctx := x.val
                           lo := lo, hi := hi, destWord := 0, ring := none, refusals := [] }]
      nextId := s.nextId + 1 }
  | _ => s

/-! ### PACKET_RECEIVE (R63, R377, R378, R380) -/

/-- Answer an arrival's sender (R378, R380). -/
def State.answer (s : State) (p : Packet) (code : Nat) : State :=
  { s with fabric := { s.fabric with answers := s.fabric.answers ++ [(p.source, p.request, code)] } }

/-- Write a run of bytes through space 0x00 at kernel privilege, page by page; none, with nothing written, where a page has no
mapping or refuses. -/
def State.unitStore (s : State) (va : Word) (bs : List Byte) : Option State :=
  (runsOf va.toNat bs.length 0x10000).foldlM (fun s (lo, k) =>
    match s.unitPa (toWord lo) 1 with
    | .ok pa => some { s with mem := s.mem.setBytes pa ((bs.drop (lo - va.toNat)).take k) }
    | .error _ => none) s

/-- Note the bytes of a request that have been performed; the count when the last has been. -/
def State.noteBytes (s : State) (p : Packet) : State × Bool :=
  let mine := fun (e : Nat × Nat × Nat) => e.1 = p.source && e.2.1 = p.request
  let got := ((s.fabric.partial_.find? mine).map fun e => e.2.2).getD 0 + p.payload.length
  let rest := s.fabric.partial_.filter fun e => !mine e
  if p.total ≤ got then ({ s with fabric := { s.fabric with partial_ := rest } }, true)
  else ({ s with fabric := { s.fabric with partial_ := rest ++ [(p.source, p.request, got)] } }, false)

/-- A MSG or BULK payload goes to its window; after the request's last byte the notify context gets the message of kind
0xF5. An unset window, a payload past its end, or a page that refuses drops it, with PROT (R378). -/
def State.toWindow (s : State) (p : Packet) : State :=
  match s.mgmt.rwins.find p.window with
  | none => s.answer p Code.prot
  | some w =>
    if w.size.toNat < p.offset + p.payload.length then s.answer p Code.prot
    else match s.unitStore (w.base + toWord p.offset) p.payload with
      | none => s.answer p Code.prot
      | some s =>
        let s := s.answer p 0
        match s.noteBytes p with
        | (s, false) => s
        | (s, true) => s.unitMessage w.ctxid (toWord (0xF5 * 2 ^ 16 + p.total % 2 ^ 32 * 2 ^ 32)) (toWord p.start)

/-- The access that an LS packet asks for (log entry 21); none for another request or an answer. -/
def lsRequest (p : Packet) : Option (AccKind × Nat) :=
  let v := fromBytes (p.payload.take p.total)
  let amo := fun op => some (AccKind.amo op (fromBytes (p.payload.drop p.total)), v)
  match p.window with
  | 0 => some (.load, 0)
  | 1 => some (.store, v)
  | 2 => amo .add
  | 3 => amo .swap
  | 4 => amo .cas
  | 5 => amo .min
  | 6 => amo .max
  | 7 => amo .minu
  | 8 => amo .maxu
  | 9 => amo .and
  | 10 => amo .or
  | 11 => amo .xor
  | _ => none

/-- The home of an LS address on this device: an aperture address of a tile, or a physical address (R37, R40, R63). -/
def lsHome (va : Word) (n : Nat) : Except Nat Nat :=
  if bits va 63 60 = 15 then
    if bits va 59 32 ≠ 0 || 900 ≤ bits va 31 22 || 0x40_0000 < bits va 21 0 + n then .error Code.lmrange
    else .ok (lmLoc (bits va 31 22) (bits va 21 0))
  else if va.toNat + n ≤ Config.hbmBytes then .ok (hbmLoc va.toNat)
  else .error Code.prot

/-- A message from another device for a mailbox of this one, by its destination word: placed, refused with NACK, or for HOLDREL
performed (R253 to R255, R348). -/
def State.lsMessage (s : State) (p : Packet) : State × Except Nat Nat :=
  let w := toWord p.offset
  match messageOwner w with
  | none => (s, .error Code.lmrange)
  | some o =>
    let m : Message :=
      { id := 0, group := 0, sender := none, kernel := false, dest := o, ctx := messageCtx w, destWord := w, ring := none
        refusals := [], lo := toWord (fromBytes (p.payload.take 8)), hi := toWord (fromBytes ((p.payload.drop 8).take 8)) }
    match m.isHoldrel, o with
    | true, .crest k => (s.holdrel k (bits m.lo 15 0) m.hi, .ok 0)
    | _, _ => if s.refuses m then (s, .error Code.nack) else (s.modNi o fun n => { n with mail := n.mail ++ [m.entry] }, .ok 0)

/-- A change of a header that another device's crest core asks for (R321, R348). -/
def State.lsHeader (s : State) (p : Packet) : State × Except Nat Nat :=
  match headerOpOf p.payload, lsHome (toWord p.offset) 16 with
  | some op, .ok l => s.changeAt none l 16 op.apply
  | _, .error code => (s, .error code)
  | none, _ => (s, .error Code.prot)

/-- A V of another device's copy request at a tile of this one, which some window must grant (R239, R257). -/
def State.lsSignal (s : State) (p : Packet) : State × Except Nat Nat :=
  let va := toWord p.offset
  let t := bits va 31 22
  if bits va 59 32 ≠ 0 || 900 ≤ t then (s, .error Code.lmrange)
  else if s.shut t || !s.grantsV t none then (s, .error Code.nack)
  else (s.semGive t ((p.payload.headD 0).toNat % 32), .ok 0)

/-- What an LS packet's request comes to at this device, as any access of a source that matches only selector 2 (R63, R257); none
for an answer. -/
def State.lsPerform (s : State) (p : Packet) : Option (State × Except Nat Nat) :=
  match lsRequest p with
  | some (kind, v) => some (match lsHome (toWord p.offset) p.total with
    | .error code => (s, .error code)
    | .ok l => s.arrive none kind l p.total v)
  | none =>
    if p.window = LsOp.message.code then some (s.lsMessage p)
    else if p.window = LsOp.header.code then some (s.lsHeader p)
    else if p.window = LsOp.signal.code then some (s.lsSignal p)
    else none

/-- An LS packet is performed and its answer goes back, routed and keyed as this device's own load-store traffic is (R379, R380);
without a route or a key it is dropped. -/
def State.lsAccess (s : State) (p : Packet) : State :=
  match s.lsPerform p with
  | none => s
  | some (s, got) =>
    let back := match got with
      | .ok v => (0, toBytes p.total v)
      | .error code => (code, [])
    let s := s.answer p back.1
    match s.lsTo p.source with
    | .error _ => s
    | .ok (dst, key) => s.transmit { p with dest := dst, source := p.dest, key := key, window := 0x100, payload := back.2 }

/-- Deliver one arrival. -/
def State.deliverPacket (s : State) (p : Packet) : State := if p.cls = 0 then s.lsAccess p else s.toWindow p

/-- The next sequence number that a pair and class waits for. -/
def State.awaited (s : State) (p : Packet) : Nat := s.fabric.recvSeq.get 0 (p.source * 4 + p.cls)

/-- Deliver an arrival in sequence, and the held arrivals of its pair and class that follow it (R377). -/
def State.inSequence (s : State) (p : Packet) : Nat → State
  | 0 => s
  | fuel + 1 =>
    let s := { s with fabric := { s.fabric with recvSeq := s.fabric.recvSeq.put (p.source * 4 + p.cls) (p.seq + 1) } }
    let s := s.deliverPacket p
    match s.fabric.heldPackets.find? fun x => x.2.source = p.source && x.2.cls = p.cls && x.2.seq = p.seq + 1 with
    | none => s
    | some x =>
      let s := { s with fabric := { s.fabric with heldPackets := s.fabric.heldPackets.filter fun y => y ≠ x } }
      s.inSequence x.2 fuel

/-- PACKET_RECEIVE: an arrival at a working port, for this device, whose key an ingress entry admits; BULK in any order, LS
and MSG in sequence, an early one held and a repeated one dropped. -/
def execPacketReceive (port : Fin 12) (p : Packet) (s : State) : Out :=
  .next (let x := s.port port.val
    if x.down || p.dest ≠ s.mgmt.fabricId.toNat || 2 < p.cls then s
    else if !x.admits p.key then s.answer p Code.nack
    else if p.cls = 2 then s.deliverPacket p
    else
      let next := s.awaited p
      if p.seq < next then s
      else if p.seq = next then s.inSequence p (s.fabric.heldPackets.length + 1)
      else { s with fabric := { s.fabric with heldPackets := s.fabric.heldPackets ++ [(port.val, p)] } })

/-! ### LS_GAP_TIMEOUT (R64) -/

/-- The LS arrivals that a port holds behind the gap that has been open longest: those of the pair of the oldest one. -/
def State.behindGap (s : State) (port : Nat) : List (Nat × Packet) :=
  match s.fabric.heldPackets.find? fun x => x.1 = port && x.2.cls = 0 with
  | none => []
  | some x => s.fabric.heldPackets.filter fun y => y.1 = port && y.2.cls = 0 && y.2.source = x.2.source

/-- LS_GAP_TIMEOUT: a port discards what it holds behind the gap, and the accesses `ids` of this device that a gap at the far
side lost complete. -/
def execLsGapTimeout (port : Fin 12) (ids : List Nat) (s : State) : Out :=
  .next (let lost := s.behindGap port.val
    let recv := lost.foldl (fun (t : Table Nat) x =>
      t.put (x.2.source * 4 + x.2.cls) (max (x.2.seq + 1) (t.get 0 (x.2.source * 4 + x.2.cls)))) s.fabric.recvSeq
    let gone := s.lostWith ids
    let s := { s with
      fabric := { s.fabric with heldPackets := s.fabric.heldPackets.filter fun x => !lost.contains x, recvSeq := recv } }
    let s := lost.foldl (fun s x => s.answer x.2 Code.linklost) s
    gone.foldl State.loseAccess s)

/-! ### Failures (R367, R382) -/

/-- The notice that a device's lane or port has failed (R382): this device's own, or another's that shares a key with it. -/
def State.noticeFrom (s : State) (reporter : BitVec 13) (p : Nat) : State :=
  match s.mgmt.noticeCtx with
  | none => s
  | some id => s.unitMessage id (toWord (0xF4 * 2 ^ 16)) (toWord (reporter.toNat + p * 2 ^ 16))

/-- The notice of this device. -/
def State.linkNotice (s : State) (p : Nat) : State := s.noticeFrom s.mgmt.fabricId p

/-- LINK_FAILURE: a lane has failed and so many are left; with none left the port is down. -/
def execLinkFailure (port : Fin 12) (lanesLeft : Nat) (s : State) : Out :=
  .next (if (s.port port.val).lanes ≤ lanesLeft then s
    else (s.modPort port.val fun x => { x with lanes := lanesLeft, down := x.down || lanesLeft = 0 }).linkNotice port.val)

/-- CRC_BURST: counted for its lane under the window rule with the firmware's defaults, 1 s and 8; at the threshold a type-5
record, and the whole port is down (R367, R382). -/
def execCrcBurst (port : Fin 12) (lane : Fin 8) (s : State) : Out :=
  .next (let k := port.val * 8 + lane.val
    let r := countEvent s.now 3000000000 8 (s.mgmt.laneEvents.get [] k)
    let s := { s with mgmt := { s.mgmt with laneEvents := s.mgmt.laneEvents.put k r.1 } }
    if r.2 then
      let s := (s.pushRecord { type := 5, code := s.freeCode, addr := toWord k, b32 := 3 }).spend
      (s.modPort port.val fun x => { x with down := true }).linkNotice port.val
    else s)

/-- PORT_RECOVERY: the port is back in the sets of the stored entries. -/
def execPortRecovery (port : Fin 12) (s : State) : Out :=
  .next (s.modPort port.val fun x => { x with down := false, lanes := 8 })

/-! ### The fabric manager's writes (R379 to R381, R383) -/

/-- ROUTING_ENTRY_WRITE: indivisible; reserved bits are not stored. -/
def execRoutingEntryWrite (port : Fin 12) (dest : BitVec 13) (v : BitVec 32) (s : State) : Out :=
  .next (s.modPort port.val fun x => { x with routes := x.routes.put dest.toNat (v &&& 0x8FFF_0FFF) })

/-- KEY_ENTRY_WRITE: indivisible; an entry has 17 bits. -/
def execKeyEntryWrite (port : Fin 12) (ingress : Bool) (i : Fin 64) (v : BitVec 32) (s : State) : Out :=
  .next (let v := v &&& 0x1_FFFF
    s.modPort port.val fun x =>
      if ingress then { x with ingress := x.ingress.put i.val v } else { x with egress := x.egress.put i.val v })

/-- DOMAIN_TABLE_WRITE: entry n of 1 to 255 takes a fabric id. -/
def execDomainTableWrite (n : BitVec 8) (v : BitVec 64) (s : State) : Out :=
  .next (if n = 0 then s
    else { s with mgmt := { s.mgmt with domainTable := s.mgmt.domainTable.put n.toNat (v.setWidth 13) } })

end Sys2Proof.Machine
end

