-- ==== Sys2Proof/Machine/Host.lean ====
section
/-! DEFINITION. The host link: BAR0 registers, the management mailbox, BAR2, the command ring (R62, R372 to R376). -/

namespace Sys2Proof.Machine

/-! ### The management mailbox (R374) -/

/-- Change the management complexes' part. -/
def State.modMgmt (s : State) (f : Mgmt → Mgmt) : State := { s with mgmt := f s.mgmt }

/-- Change the host's side. -/
def State.modHost (s : State) (f : HostSide → HostSide) : State := { s with host := f s.host }

/-- Raise an MSI-X vector. -/
def State.raiseMsix (s : State) (v : Nat) : State := s.modMgmt fun m => { m with msix := m.msix ||| BitVec.ofNat 16 (2 ^ v) }

/-- The complex writes MBOXOUT, which sets MBOXV. -/
def State.writeOut (s : State) (w : Word) : State := s.modMgmt fun m => { m with outWord := w, outValid := true }

/-- May the complex take the request of MBOXIN and answer it: a request is unread, MBOXV is 0 and no notice is to leave
before its reply (R374)? -/
def Mgmt.mayReply (m : Mgmt) : Bool := m.inUnread && !m.outValid && m.notices.isEmpty

/-- The command of the request. -/
def Mgmt.command (m : Mgmt) : Nat := bits m.inWord 63 56

/-- The argument of the request. -/
def Mgmt.argument (m : Mgmt) : Nat := bits m.inWord 47 0

/-- Take the request and reply with a command, its tag and a value. -/
def State.reply (s : State) (command value : Nat) : State :=
  (s.modMgmt fun m => { m with inUnread := false }).writeOut
    (toWord (command * 2 ^ 56 + bits s.mgmt.inWord 55 48 * 2 ^ 48 + value % 2 ^ 48))

/-- Answer a request of one command. -/
def State.onCommand (s : State) (command : Nat) (value : State → Nat) : State :=
  if s.mgmt.mayReply && s.mgmt.command = command then s.reply command (value s) else s

/-- The reply to CRASH, also the value of its notices. -/
def Mgmt.crashWord (m : Mgmt) : Nat :=
  m.crashes.toNat + m.crashCause.toNat * 2 ^ 16 + bits m.panicCode 23 0 * 2 ^ 24

/-- The reply to ALARMLOG: entry 0 is the oldest kept (DESIGN CHOICE, log entry 26). -/
def State.alarmWord (s : State) : Nat :=
  let arg := s.mgmt.argument
  match s.signet.log[arg % 16]? with
  | none => 0
  | some e =>
    if bitsN arg 4 4 = 0 then alarmCode e.cause * 2 ^ 40 + e.agent.toNat * 2 ^ 24 else e.cycle % 2 ^ 48

/-- LEVELS. -/
def execLevels (s : State) : Out :=
  .next (s.onCommand 1 fun s => 1 + 2 ^ 16 + s.mgmt.firmware.toNat * 2 ^ 32)

/-- STATUS. -/
def execStatus (s : State) : Out :=
  .next (s.onCommand 2 fun s => s.mem.read (Config.dib + 0xC) 4 + s.mgmt.step.toNat * 2 ^ 32 +
    (if s.mgmt.frozenTwice then 2 ^ 40 else 0))

/-- ALARMLOG. -/
def execAlarmlog (s : State) : Out := .next (s.onCommand 3 State.alarmWord)

/-- CRASH. -/
def execCrash (s : State) : Out := .next (s.onCommand 4 fun s => s.mgmt.crashWord)

/-- DIBREAD. -/
def execDibread (s : State) : Out :=
  .next (s.onCommand 5 fun s =>
    s.mem.read (Config.dib + 8 * (s.mgmt.argument % 512) + 4 * bitsN s.mgmt.argument 9 9) 4)

/-- MBOXIN_UNKNOWN_COMMAND: command 0x7F with code ILLEGAL. -/
def execMboxinUnknownCommand (cmd : BitVec 8) (s : State) : Out :=
  .next (if s.mgmt.mayReply && s.mgmt.command = cmd.toNat && !([1, 2, 3, 4, 5].contains cmd.toNat) then
      s.reply 0x7F Code.illegal
    else s)

/-- MBOXOUT_READ: the host's read clears MBOXV. -/
def execMboxoutRead (s : State) : Out := .next (s.modMgmt fun m => { m with outValid := false })

/-- The oldest notice is written to MBOXOUT, if it is of the given command, and raises MSI-X vector 0. -/
def State.writeNotice (s : State) (command : Nat) : State :=
  match s.mgmt.notices with
  | [] => s
  | w :: rest =>
    if s.mgmt.outValid || bits w 63 56 ≠ command then s
    else ((s.modMgmt fun m => { m with notices := rest }).writeOut w).raiseMsix 0

/-- KERNEL_CRASH_NOTICE. -/
def execKernelCrashNotice (s : State) : Out := .next (s.writeNotice 0x81)
/-- SIGNET_ALARM_NOTICE. -/
def execSignetAlarmNotice (s : State) : Out := .next (s.writeNotice 0x82)
/-- MAPFAIL. -/
def execMapfail (s : State) : Out := .next (s.writeNotice 0x83)
/-- BRING_UP_COMPLETE. -/
def execBringUpComplete (s : State) : Out := .next (s.writeNotice 0x84)
/-- FROZEN_NOTICE. -/
def execFrozenNotice (s : State) : Out := .next (s.writeNotice 0x85)

/-! ### BAR0 (R373, R376) -/

/-- Is the ring enabled? -/
def HostSide.enabled (h : HostSide) : Bool := bit h.rctl 0

/-- A write to RTAIL. -/
def HostSide.writeTail (h : HostSide) (t : BitVec 16) : HostSide :=
  if h.err ≠ 0 || !h.enabled then h
  else if 256 < (t - h.rhead).toNat then { h with err := BitVec.ofNat 8 0x1A }
  else { h with rtail := t }

/-- A write to RFIX: no command is running between two steps of this model (log entry 23). -/
def HostSide.writeFix (h : HostSide) (r : Word) : HostSide :=
  if h.err ≠ 0 then { h with rhead := r.setWidth 16, rtail := r.setWidth 16, err := 0 } else h

/-- RTAIL. -/
def execRtail (v : BitVec 16) (s : State) : Out := .next (s.modHost fun h => h.writeTail v)

/-- RFIX. -/
def execRfix (v : BitVec 64) (s : State) : Out := .next (s.modHost fun h => h.writeFix v)

/-- REGISTER_WRITE: MBOXIN while no request is unread; W2BASE; RBASE and CBASE while the ring is not enabled; RCTL; RTAIL and
RFIX as their own rows; any other offset is ignored. -/
def execRegisterWrite (off : BitVec 16) (v : BitVec 64) (s : State) : Out :=
  .next (match off.toNat with
    | 0x0000 => s.modMgmt fun m => if m.inUnread then m else { m with inWord := v, inUnread := true }
    | 0x0100 => s.modMgmt fun m => { m with w2base := v &&& 0xFFFF_FFF0_0000_0000 }
    | 0x0200 => s.modHost fun h => if h.enabled then h else { h with rbase := v }
    | 0x0208 => s.modHost fun h => if h.enabled then h else { h with cbase := v }
    | 0x0210 => s.modHost fun h => h.writeTail (v.setWidth 16)
    | 0x0228 => s.modHost fun h => h.writeFix v
    | 0x0230 => s.modHost fun h => { h with rctl := v &&& 0xF01 }
    | _ => s)

/-- The word of MBOXST (R373). -/
def Mgmt.mboxst (m : Mgmt) : Word :=
  toWord ((if m.outValid then 1 else 0) + (if m.inUnread then 2 else 0) + m.step.toNat * 2 ^ 8 +
    (if m.mapFail then 2 ^ 12 else 0) + (if m.frozenTwice then 2 ^ 13 else 0))

/-- The word of RSTAT (R373). -/
def HostSide.rstat (h : HostSide) : Word := toWord (h.err.toNat + (if h.enabled then 2 ^ 8 else 0))

/-- What a register of BAR0 reads as: a write-only or unlisted offset as 0 (R373). -/
def State.bar0Word (s : State) (off : Nat) : Word :=
  match off with
  | 0x0008 => s.mgmt.outWord
  | 0x0010 => s.mgmt.mboxst
  | 0x0100 => s.mgmt.w2base
  | 0x0200 => s.host.rbase
  | 0x0208 => s.host.cbase
  | 0x0210 => s.host.rtail.setWidth 64
  | 0x0218 => s.host.rhead.setWidth 64
  | 0x0220 => s.host.rstat
  | 0x0230 => s.host.rctl
  | _ => 0

/-- The host reads a register of BAR0; a read of MBOXOUT clears MBOXV. -/
def State.readRegister (s : State) (off : BitVec 16) : State :=
  let s := s.modHost fun h => { h with bar0 := s.bar0Word off.toNat }
  if off = 0x0008 then s.modMgmt fun m => { m with outValid := false } else s

/-! ### Accesses of the host (R62, R368, R372, R375) -/

/-- The agent of an alarm that a host access raises (R374). -/
def hostAgent : Nat := 0xC000

/-- The alarm of a host access to the Signet's window (R368, R369). -/
def State.noteWindow (s : State) (va : Word) : State := s.windowAlarm va hostAgent

/-- Read the bytes of a run of places. -/
def State.readRuns (s : State) : List (Nat × Nat) → State × Except Nat (List Byte)
  | [] => (s, .ok [])
  | (pa, n) :: rest =>
    match s.performAt .load pa n 0 with
    | (s, .error code) => (s, .error code)
    | (s, .ok v) => match s.readRuns rest with
      | (s, .ok bs) => (s, .ok (toBytes n v ++ bs))
      | (s, .error code) => (s, .error code)

/-- The physical pieces of n bytes at an address, through space 0x00 at kernel privilege (log entry 23), or the code of the
first that has none. -/
def State.hostPieces (s : State) (va : Word) (n kind : Nat) : Except (Nat × Word) (List (Nat × Nat)) :=
  (runsOf va.toNat n 64).mapM fun (lo, k) =>
    match s.unitPa (toWord lo) kind with
    | .ok pa => .ok (pa, k)
    | .error code => .error (code, toWord lo)

/-- BAR2_ACCESS: held during bring-up; an access with no mapping, or a refused one, is an unsupported request that performs
nothing. A read's value goes back to the host. -/
def execBar2Access (addr : BitVec 64) (n : Nat) (write : Option (BitVec 512)) (s : State) : Out :=
  .next (if s.mgmt.step ≠ 7 || n = 0 || 64 < n || 2 ^ 36 < addr.toNat + n then s
    else
      let va := s.mgmt.w2base + addr
      match s.hostPieces va n (if write.isSome then 1 else 0) with
      | .error (_, lo) => (s.noteWindow lo).modHost fun h => { h with bar2 := none }
      | .ok ps =>
        match write with
        | some v =>
          (ps.foldl (fun (s, off) (pa, k) =>
            ((s.performAt .store pa k (v.toNat / 2 ^ (8 * off) % 2 ^ (8 * k))).1, off + k)) (s, 0)).1
        | none => match s.readRuns ps with
          | (s, .ok bs) => s.modHost fun h => { h with bar2 := some (BitVec.ofNat 512 (fromBytes bs)) }
          | (s, .error _) => s.modHost fun h => { h with bar2 := none })

/-! ### The command ring (R375, R376) -/

/-- One byte of host memory: what the device or the host wrote there last, else what the host held before, a free
value that stays (log entry 23). -/
def State.hostByte (s : State) (a : Nat) : State × Byte :=
  match s.host.mem.find a with
  | some b => (s, b)
  | none =>
    let b : Byte := s.freeWord.setWidth 8
    (s.spend.modHost fun h => { h with mem := h.mem.put a b }, b)

/-- Bytes of host memory. -/
def State.hostRead (s : State) (a : Nat) : Nat → State × List Byte
  | 0 => (s, [])
  | n + 1 =>
    match s.hostByte a with
    | (s, b) => match s.hostRead (a + 1) n with
      | (s, bs) => (s, b :: bs)

/-- Write bytes of host memory. -/
def State.hostWrite (s : State) (a : Nat) : List Byte → State
  | [] => s
  | b :: rest => (s.modHost fun h => { h with mem := h.mem.put a b }).hostWrite (a + 1) rest

/-- May the device fetch a slot: bring-up complete, the ring enabled and without error, an index to run (R375, R376, R386)? -/
def State.ringReady (s : State) : Bool :=
  s.mgmt.step = 7 && s.host.enabled && s.host.err = 0 && s.host.rhead ≠ s.host.rtail

/-- The slot at the read index. -/
def State.ringSlot (s : State) : State × Nat :=
  match s.hostRead (s.host.rbase.toNat + 64 * (s.host.rhead.toNat % 256)) 64 with
  | (s, bs) => (s, fromBytes bs)

/-- Complete the slot at the read index: 16 bytes in the completion ring, the index passes, and with flags bit 0 the MSI-X
vector of RCTL. -/
def State.completeSlot (s : State) (slot status moved : Nat) : State :=
  let at_ := s.host.cbase.toNat + 16 * (s.host.rhead.toNat % 256)
  let s := s.hostWrite at_ (toBytes 16 (bitsN slot 31 16 + status * 2 ^ 16 + moved * 2 ^ 32))
  let s := s.modHost fun h => { h with rhead := h.rhead + 1 }
  if bitsN slot 8 8 = 1 then s.raiseMsix (bits s.host.rctl 11 8) else s

/-- Move the runs of a command: bytes moved, and the code that stopped it. -/
def State.ringMove (s : State) (toDevice : Bool) (host dev : Nat) : List (Nat × Nat) → Nat → State × Nat × Nat
  | [], moved => (s, 0, moved)
  | (lo, k) :: rest, moved =>
    match s.unitPa (toWord lo) (if toDevice then 1 else 0) with
    | .error code => (s.noteWindow (toWord lo), code, moved)
    | .ok pa =>
      if toDevice then
        match s.hostRead (host + (lo - dev)) k with
        | (s, bs) => match s.performAt .store pa k (fromBytes bs) with
          | (s, .error code) => (s, code, moved)
          | (s, .ok _) => s.ringMove toDevice host dev rest (moved + k)
      else
        match s.performAt .load pa k 0 with
        | (s, .error code) => (s, code, moved)
        | (s, .ok v) => (s.hostWrite (host + (lo - dev)) (toBytes k v)).ringMove toDevice host dev rest (moved + k)

/-- Ops 1 and 2: ILLEGAL for a length that is not 1 to 2^24. -/
def State.ringData (s : State) (slot : Nat) (toDevice : Bool) : State :=
  let len := bitsN slot 63 32
  if len = 0 || 2 ^ 24 < len then s.completeSlot slot Code.illegal 0
  else
    let dev := bitsN slot 191 128
    match s.ringMove toDevice (bitsN slot 127 64) dev (runsOf dev len 64) 0 with
    | (s, code, moved) => s.completeSlot slot code moved

/-- Op 3: 16 bytes at context 0 of the named core, from no tile, with a cookie that the spec does not give (a free value);
PROT for another kind (DESIGN CHOICE, log entry 23); NACK while the core is resetting or its mailbox is full (R254, R387). A
HOLDREL is performed (R348). -/
def State.ringMessage (s : State) (slot : Nat) : State :=
  let core : Fin 32 := ⟨bitsN slot 132 128 % 32, Nat.mod_lt _ (by omega)⟩
  let kind := bitsN slot 151 144
  let info := toWord (bitsN slot 127 64)
  let cookie := bits s.freeWord 15 0
  let s := s.spend
  if s.resetting then s.completeSlot slot Code.nack 0
  else if kind < 0x80 || 0xEF < kind then s.completeSlot slot Code.prot 0
  else if kind = 0xE0 then (s.holdrel core cookie info).completeSlot slot 0 0
  else if !s.room (.crest core) then s.completeSlot slot Code.nack 0
  else
    let e : MailEntry :=
      { ctx := 0, lo := toWord (cookie + kind * 2 ^ 16 + 0xFFFF_0000 * 2 ^ 32), hi := info, held := false, reserve := false }
    (s.modNi (.crest core) fun n => { n with mail := n.mail ++ [e] }).completeSlot slot 0 0

/-- Fetch the slot at the read index and run it, if its op is one of those given: one command runs at a time, whole (DESIGN
CHOICE, log entry 23). -/
def State.onSlot (s : State) (ops : Nat → Bool) (k : State → Nat → State) : State :=
  if !s.ringReady then s
  else match s.ringSlot with
    | (s, slot) => if ops (slot % 256) then k s slot else s

/-- RING_HOST_TO_DEVICE: op 1; and every op that has no meaning, which completes with ILLEGAL. -/
def execRingHostToDevice (s : State) : Out :=
  .next (s.onSlot (fun op => op ≠ 2 && op ≠ 3) fun s slot =>
    if slot % 256 = 1 then s.ringData slot true else s.completeSlot slot Code.illegal 0)

/-- RING_DEVICE_TO_HOST: op 2. -/
def execRingDeviceToHost (s : State) : Out := .next (s.onSlot (· = 2) fun s slot => s.ringData slot false)

/-- RING_MESSAGE: op 3. -/
def execRingMessage (s : State) : Out := .next (s.onSlot (· = 3) fun s slot => s.ringMessage slot)

end Sys2Proof.Machine
end

