-- ==== Sys2Proof/Machine/Firmware.lean ====
section
/-! DEFINITION. The management firmware: firmware calls, region teardown, kernel crashes, live update, bring-up (R15 to R18,
R26, R27, R173, R268 to R270, R283, R365, R366, R369, R384 to R386). -/

namespace Sys2Proof.Machine

/-! ### Firmware calls (R173, R385) -/

/-- An fwcall: only a crest core has the feature, and only kernel privilege may call. -/
def State.onFirmware (s : State) (k : State → State) : State := s.needFeature 12 fun s => s.needKernel k

/-- The firmware answers: x1, x2, and the call retires. -/
def State.fwAnswer (s : State) (x1 x2 : Word) : State := s.mod fun c => ((c.setX 1 x1).setX 2 x2).retire s.latch

/-- A call that fails answers a fault code in x1; what x2 then holds the spec does not say: a free value (log entry 18). -/
def State.fwFail (s : State) (code : Nat) : State := s.spend.fwAnswer (toWord code) s.freeWord

/-- FWCALL_UNKNOWN: x1 all ones; x2 is not given. -/
def execFwcallUnknown (_ : BitVec 16) (s : State) : Out :=
  .next (s.onFirmware fun s => s.spend.fwAnswer allOnes s.freeWord)

/-- FWCALL_FIRMWARE_LEVEL. -/
def execFwcallFirmwareLevel (s : State) : Out :=
  .next (s.onFirmware fun s => s.fwAnswer 0 (s.mgmt.firmware.setWidth 64))

/-- FWCALL_REGISTER_NOTICE_CONTEXT: ILLEGAL for a ctxid of no crest context (DESIGN CHOICE, log entry 41). -/
def execFwcallRegisterNoticeContext (s : State) : Out :=
  .next (s.onFirmware fun s =>
    let id : BitVec 16 := (s.c.getX 1).setWidth 16
    match agentOfCtxid none id.toNat with
    | some (.crest _ _) => (s.modMgmt fun m => { m with noticeCtx := some id }).fwAnswer 0 0
    | _ => s.fwFail Code.illegal)

/-- FWCALL_SET_RECEIVE_WINDOW: number x1, base x2, size x3, ctxid x4; size 0 clears; ILLEGAL for a number above 255 (DESIGN
CHOICE, log entry 41). -/
def execFwcallSetReceiveWindow (s : State) : Out :=
  .next (s.onFirmware fun s =>
    let c := s.c
    let n := (c.getX 1).toNat
    if 255 < n then s.fwFail Code.illegal
    else
      (s.modMgmt fun m => { m with
        rwins := if c.getX 3 = 0 then m.rwins.del n
                 else m.rwins.put n ⟨c.getX 2, c.getX 3, (c.getX 4).setWidth 16⟩ }).fwAnswer 0 0)

/-- FWCALL_READ_DOMAIN_ENTRY: XLATE for a number with no entry (DESIGN CHOICE, log entry 41). -/
def execFwcallReadDomainEntry (s : State) : Out :=
  .next (s.onFirmware fun s =>
    match s.mgmt.domainTable.find (s.c.getX 1).toNat with
    | some e => s.fwAnswer 0 (e.setWidth 64)
    | none => s.fwFail Code.xlate)

/-- FWCALL_THAW: THAW after re-adoption (R366). -/
def execFwcallThaw (s : State) : Out :=
  .next (s.onFirmware fun s => s.thawAll.fwAnswer 0 0)

/-! ### Region teardown (R283; one whole step by 95_what_each_step_holds.md, log entry 40) -/

/-- An RCB and its parents, as far as they can be read, at most 16 (R268, R269). -/
def State.rcbChain (s : State) : Nat → Word → List Word
  | 0, _ => []
  | fuel + 1, rcb =>
    rcb :: match s.unitRead rcb 8 with
      | .ok 0 => []
      | .ok parent => s.rcbChain fuel (toWord parent)
      | .error _ => []

/-- Is a context one of a gang's? -/
def Gang.owns (g : Gang) (a : Agent) : Bool :=
  match tileNo a with
  | some t => g.tiles.contains t
  | none => false

/-- What a request that has left its queue still has to do is done: its pieces (step 2) -/
def State.finishPieces (s : State) (o : Owner) : State :=
  (s.runCopy o 0 CopyReq.isRunning).runCopy o 1 CopyReq.isRunning

/-- and its V operations. -/
def State.finishSignals (s : State) (r : CopyReq) : State :=
  if r.phase ≠ .signalling then s
  else r.targets.foldl (fun s (t, via) => (s.sendV r t via).1) s

/-- The stores of a gang's contexts that are under way are performed at their homes (log entry 40). -/
def State.finishStores (s : State) (g : Gang) : State :=
  let mine := s.net.filter fun x => g.owns x.agent && x.kind = .store
  let s := mine.foldl (fun s x => x.todo.foldl (fun s e =>
    match e.target with
    | .loc l => (s.arrive (srcTile x.agent) .store l e.bytes e.data).1
    | .device _ _ => s) s) s
  { s with net := s.net.filter fun x => !g.owns x.agent }

/-- The messages of a gang's contexts that are under way are delivered or refused (log entry 40). -/
def State.finishMessages (s : State) (g : Gang) : State :=
  let mine := s.msgs.filter fun m => match m.sender with
    | some a => g.owns a
    | none => false
  mine.foldl (fun s m =>
    match m.dest with
    | .crest k => if m.isHoldrel then (s.holdrel k (bits m.lo 15 0) m.hi).endMessage m false else s.deliverMessage m
    | .facet _ _ => s.deliverMessage m) s

/-- A context of a gang that is torn down: out of every unit's lists, and not live (step 1). -/
def State.endContext (s : State) (a : Agent) : State :=
  let s := match (s.ctx a).run with
    | .parked why => s.unlist a why
    | _ => s
  s.modCtx a fun c => { c with run := .notLive, frozen := false, late := [], pending := [], undo := none }

/-- Withdraw the steals on their way for contexts that `keep` does not name. -/
def State.dropSteals (s : State) (keep : Agent → Bool) : State :=
  { s with pools := ⟨s.pools.cells.map fun (n, p) => (n, { p with steals := p.steals.filter fun y => keep y.take.agent })⟩ }

/-- What is left of a tile of a gang that is torn down: no matrix entry, no request, no steal; a fence is over (R163). -/
def State.clearTile (s : State) (t : Nat) : State :=
  if h : t < 900 then
    let s := (tileAgents ⟨t, h⟩).foldl State.endContext s
    let s := s.modMm t fun m => { m with queue := [], clasp := Vector.replicate 4 none, savedLate := [], resume := none }
    let s := fourFacets.foldl (fun s f =>
      (s.modFacet ⟨t, h⟩ f fun x => { x with fenced := false, missed := false }).modNi (.facet ⟨t, h⟩ f) fun _ => Ni.initial) s
    let s := s.dropSteals fun a => tileNo a ≠ some t
    s.modTile t fun tl => { tl with spilled := false, taskOrder := [] }
  else s

/-- End a gang without saving: steps 1, 2 and 4. -/
def State.endGang (s : State) (slot : Nat) (g : Gang) : State :=
  let owners := g.tiles.flatMap fun t => fourFacets.filterMap fun f => facetOwner t f.val
  let s := owners.foldl State.finishPieces ((s.finishStores g).finishMessages g)
  let reqs := owners.flatMap fun o => s.copyQueue o 0 ++ s.copyQueue o 1
  let s := reqs.foldl State.finishSignals s
  let s := g.tiles.foldl State.clearTile s
  let s := { s with taskUnits := s.taskUnits.map fun (l : List Decrement) => l.filter fun x => !g.owns x.agent }
  let s := if g.pool = 0xFF then s else s.closePool g.pool
  (s.setSlot slot none).freeTiles g

/-- The launches of a region and its descendants that wait at the dispatch units are withdrawn: no gang of the region starts
after its teardown (R283; log entry 40). -/
def State.dropLaunches (s : State) (rcb : Word) : State :=
  ([0, 1, 2, 3] : List (Fin 4)).foldl (fun t u => t.setLaunches u fun l =>
    l.filter fun x => !((s.rcbChain 16 x.rcb).contains rcb)) s

/-- Tear down the region of an RCB: its gangs and its descendants' end; its queues and pools are closed; its pools leave the
units; stat bit 0 is set and the calling kernel context gets a message, whose contents the spec does not give. The code of the
read that faults, if the RCB cannot be read. -/
def State.tearDown (s : State) (rcb : Word) : Except Nat State := do
  let v ← s.unitRead rcb 64
  let rid := BitVec.ofNat 16 (bitsN v 111 96)
  let mine := s.gangs.cells.filter fun (_, g) => (s.rcbChain 16 g.rcb).contains rcb
  let s := s.dropLaunches rcb
  let s := mine.foldl (fun s (slot, g) => s.endGang slot g) s
  let s := s.queues.cells.foldl (fun s (n, q) => if q.open_ && q.rid = rid then s.resetQueue n none else s) s
  let s := s.pools.cells.foldl (fun s (n, p) => if p.rid = rid then s.closePool n else s) s
  let s ← s.unitWrite (rcb + 56) 8 1
  return { s with free := s.free + 2 }.unitMessage (BitVec.ofNat 16 (ctxid s.cur)) s.freeWord s.spend.freeWord

/-- FWCALL_REGION_TEARDOWN. -/
def execFwcallRegionTeardown (s : State) : Out :=
  .next (s.onFirmware fun s =>
    match s.tearDown (s.c.getX 1) with
    | .error code => s.fwFail code
    | .ok s => s.fwAnswer 0 0)

/-- The regions that the firmware knows: those of gangs and of waiting launches with their parents, and the registry's
(R270, R366). -/
def State.regions (s : State) : List Word :=
  let waiting := (s.dispatch.toList.flatMap fun u => u.launches).filter fun x => x.rcb ≠ 0
  let bound := (s.gangs.cells.map fun (_, g) => g.rcb) ++ waiting.map Launch.rcb
  let bound := bound.flatMap (s.rcbChain 16)
  let count := min (s.mem.read (Config.registry + 16) 4) 32766
  let listed := (List.range count).filterMap fun i =>
    let at_ := Config.registry + 64 + 32 * i
    if s.mem.read at_ 1 = 1 then some (toWord (s.mem.read (at_ + 8) 8)) else none
  (bound ++ listed).eraseDups

/-- Is the effective fault domain of a region this one? -/
def State.inDomain (s : State) (d : Nat) (rcb : Word) : Bool :=
  match s.chain 16 rcb with
  | .ok (ch, _) => effective 1 10 1 ch = d
  | .error _ => false

/-- FWCALL_FAULT_DOMAIN_TEARDOWN: ILLEGAL for x1 = 0 (R270), and for a domain above 255. -/
def execFwcallFaultDomainTeardown (s : State) : Out :=
  .next (s.onFirmware fun s =>
    let d := (s.c.getX 1).toNat
    if d = 0 || 255 < d then s.fwFail Code.illegal
    else
      let done := (s.regions.filter (s.inDomain d)).foldl (fun (s, n) rcb =>
        match s.tearDown rcb with
        | .ok s => (s, n + 1)
        | .error _ => (s, n)) (s, 0)
      done.1.fwAnswer 0 (toWord done.2))

/-! ### Kernel crashes (R365, R366) -/

/-- Reset a crest core: its contexts are not live, its mailbox and its release queue are empty, the messages that a dispatch unit
holds for it are discarded with its mailbox (R272), its loads and atomics under way are withdrawn (log entry 42). Its copy queues
finish what is in flight and hold what is queued (R365). -/
def State.resetCore (s : State) (k : Fin 32) : State :=
  let agents : List Agent := [.crest k 0, .crest k 1]
  let s := agents.foldl (fun s a =>
    match (s.ctx a).run with
    | .parked why => s.unlist a why
    | _ => s) s
  let s := agents.foldl (fun s a => s.setCtx a Ctx.initial) s
  let s := s.modNi (.crest k) fun n => { Ni.initial with cq := n.cq, ring := n.ring, seq := n.seq }
  let s := s.modRelq k.val fun _ => ReleaseQueue.initial
  let net := s.net.filter fun x => !(agents.contains x.agent && x.kind ≠ .store)
  let dispatch := s.dispatch.map fun u => { u with out := u.out.filter fun m => m.core ≠ k }
  { s with net := net, dispatch := dispatch }.dropSteals fun a => !agents.contains a

/-- The crest cores. -/
def crestCores : List (Fin 32) := List.ofFn fun k => k

/-- The dirty lines of the crest cores that do not answer at a kernel crash are lost: a byte of one that still holds what its core
wrote is again what its home held before (R365; log entry 75). Those of every other core are written back. -/
def State.loseLines (s : State) : State :=
  let lost := s.dirty.cells.filter fun (l, x) => s.silent.contains (x.core, l / 64) && s.mem.byte l = x.new
  { s with mem := lost.foldl (fun m (l, x) => m.setByte l x.old) s.mem, dirty := Table.empty, silent := [] }

/-- A kernel crash: FREEZE, every crest core reset, the counts and notices; a second one before THAW leaves the device
frozen. -/
def State.kernelCrash (s : State) (cause : Byte) (code : Word) : State :=
  let again := s.mgmt.crashed
  let s := crestCores.foldl State.resetCore s.freezeAll.loseLines
  let s := s.modMgmt fun m => { m with
    crashed := true, crashes := m.crashes + 1, crashCause := cause, panicCode := code
    frozenTwice := m.frozenTwice || again }
  let s := s.pushNotice 0x81 s.mgmt.crashWord
  if again then s.pushNotice 0x85 s.mgmt.crashWord else s

/-- FWCALL_PANIC: the panic of the kernel, with its code in x1; the calling core is reset and gets no answer. -/
def execFwcallPanic (s : State) : Out := .next (s.onFirmware fun s => s.kernelCrash 1 (s.c.getX 1))

/-- KERNEL_CRASH: a crest hardware fault (cause 2), or a panic that the outside world brings (cause 1) whose code is not given:
the panic code stays (log entry 42). -/
def execKernelCrash (cause : BitVec 8) (s : State) : Out :=
  .next (if cause = 1 || cause = 2 then s.kernelCrash cause s.mgmt.panicCode else s)

/-- WARM_REBOOT: the resident kernel boots again on crest core 0, context 0; registry, slots, queues, pools and counters stand
as they are for it to re-adopt. After a second crash before THAW the device stays frozen. -/
def execWarmReboot (s : State) : Out :=
  .next (if s.resetting && !s.mgmt.frozenTwice then s.setCtx (.crest 0 0) Ctx.booted else s)

/-! ### The alarm, the complexes, the clock (R27, R369, R384) -/

/-- The source agent of an alarm (R374): fixed for a signature check and for the tamper sensor. -/
def alarmSource (cause : AlarmCause) (agent : BitVec 16) : Nat :=
  match cause with
  | .signature => 0xFFFE
  | .window => agent.toNat
  | .tamper => 0xFFFF

/-- SIGNET_ALARM. -/
def execSignetAlarm (cause : AlarmCause) (agent : BitVec 16) (s : State) : Out :=
  .next (s.raiseAlarm cause (alarmSource cause agent))

/-- The standby complex is active now; what it takes over stands as it stood (R26, R384). -/
def State.takeOver (s : State) : State :=
  let b := !s.mgmt.activeB
  (s.modMgmt fun m => { m with activeB := b }).setDib 2 b

/-- TAKEOVER. -/
def execTakeover (s : State) : Out := .next s.takeOver

/-- Does the part boot a firmware: without keys only one that the board marks unkeyed (R369)? -/
def State.boots (s : State) (level : BitVec 16) : Bool := s.signet.keyed || Config.markedUnkeyed level

/-- LIVE_UPDATE: an image whose signature fails raises the alarm and the active complex stays (R370); one that the part does not
boot, or that does not accept the state table, changes nothing (R369, R384); else the standby takes over with the image's
firmware level. -/
def execLiveUpdate (signatureOk : Bool) (level : BitVec 16) (s : State) : Out :=
  .next (if !signatureOk then s.raiseAlarm .signature 0xFFFE
    else if s.boots level && Config.acceptsTable level s.mgmt.firmware then
      s.takeOver.modMgmt fun m => { m with firmware := level }
    else s)

/-- CLOCK_STEP: one step of 100 MHz, between 2.0 and 3.0 GHz. -/
def execClockStep (mhz : BitVec 16) (s : State) : Out :=
  .next (let n := mhz.toNat
    if 2000 ≤ n && n ≤ 3000 && (n = s.mhz.toNat + 100 || n + 100 = s.mhz.toNat) then { s with mhz := mhz } else s)

/-! ### Bring-up (R15 to R18, R386) -/

/-- The excluded tiles of row r of a die, by in-die column. -/
def badColumns (bad : List (Nat × Nat)) (die r : Nat) : List Nat :=
  (List.range 16).filter fun c => bad.contains (16 * (die % 2) + c, 16 * (die / 2) + r)

/-- The rows of a die with two or more excluded tiles. -/
def multiRows (bad : List (Nat × Nat)) (die : Nat) : List Nat :=
  (List.range 16).filter fun r => 2 ≤ (badColumns bad die r).length

/-- The spare row of a die (R16 rule 1). -/
def spareRow (bad : List (Nat × Nat)) (die : Nat) : Nat :=
  match multiRows bad die with
  | r :: _ => r
  | [] => match ((List.range 16).filter fun r => !(badColumns bad die r).isEmpty).getLast? with
    | some r => r
    | none => if die < 2 then 15 else 0

/-- Can every die be mapped (R16 rule 3)? -/
def mappable (bad : List (Nat × Nat)) : Bool := [0, 1, 2, 3].all fun die => (multiRows bad die).length < 2

/-- The physical position of a tile id (R16 rule 2, R17). -/
def positionOf (bad : List (Nat × Nat)) (tile : Nat) : Nat × Nat :=
  let lx := tile % 30
  let ly := tile / 30
  let die := lx / 15 + 2 * (ly / 15)
  let spare := spareRow bad die
  let row := if ly % 15 < spare then ly % 15 else ly % 15 + 1
  let skip := (badColumns bad die row).headD 15
  let col := if lx % 15 < skip then lx % 15 else lx % 15 + 1
  (16 * (die % 2) + col, 16 * (die / 2) + row)

/-- The 1,800 bytes of the published map; all 0 where there is none (R18, R371). -/
def mapBytes (bad : List (Nat × Nat)) (ok : Bool) : List Byte :=
  (List.range 900).flatMap fun t => if ok then toBytes 2 (mapEntry (positionOf bad t)) else [0, 0]

/-- HBM outside the firmware range as a cold start leaves it: as it stood, so that the state of saved gangs stays usable (R34; log
entry 3). -/
def Memory.kept (m : Memory) : Memory := ⟨m.cells.filter fun x =>
  decide (Config.firmwareRange ≤ x.1) && decide (x.1 < Config.hbmBytes)⟩

/-- The saved gangs, which a cold start keeps with their slots (R34). -/
def State.savedGangs (s : State) : List (Nat × Gang) := s.gangs.cells.filter fun (_, g) => g.phase = .saved

/-- The part with power, before step 1 of bring-up: nothing live. -/
def State.powered (s : State) : State :=
  { State.reset with
    mem := s.mem.kept.write (Config.dib + 0x30) 8 (s.mgmt.coldStarts + 1), ctxs := Table.empty
    agenda := s.agenda, nextId := s.nextId, free := s.free, signet := s.signet
    mgmt := { Mgmt.initial with
      coldStarts := s.mgmt.coldStarts + 1, step := 0, notices := [], firmware := s.mgmt.firmware, activeB := s.mgmt.activeB }
    host := { HostSide.initial with mem := s.host.mem } }

/-- COLD_START: self-test with the excluded tiles `bad`, the map, and bring-up, as one whole step. A module without keys whose
firmware the board does not mark unkeyed does not boot (R369). One that cannot be mapped, or whose routers fail, stops at step
2 with MAPFAIL and nothing runs. -/
def execColdStart (bad : List (Nat × Nat)) (routersOk : Bool) (s : State) : Out :=
  .next (
    let ok := routersOk && mappable bad
    let p := s.powered
    let p := (p.setDib 1 (!s.signet.keyed)).setDib 2 s.mgmt.activeB
    if !s.boots s.mgmt.firmware then p
    else
      let p := { p with mem := p.mem.setBytes (Config.dib + 0x100) (mapBytes bad ok) }.setDib 0 (!ok)
      let p := s.savedGangs.foldl (fun p (n, g) => p.setSlot n (some g)) p
      let p := p.modMgmt fun m => { m with mapFail := !ok, step := if ok then 7 else 2 }
      if ok then { p with ctxs := State.reset.ctxs }.pushNotice 0x84 0 else p.pushNotice 0x83 0)

/-! ### Vacating a gang (R33, R183 step 6, R273; log entry 17) -/

/-- May the firmware take a gang out of its tiles: every tile has quiesced, with every record and the spill area written, and the
copies of its handlers done? -/
def State.vacatable (s : State) (g : Gang) : Bool :=
  g.phase = .running && !s.freeze && s.copiesDone g && g.tiles.all fun t =>
    (s.tile t).spilled && !(s.tile t).preempt && (s.mm t).queue.isEmpty &&
      if h : t < 900 then
        ((tileAgents ⟨t, h⟩).all fun a => s.handled a && s.allPerformed a) &&
          fourFacets.all fun f => (s.ni (.facet ⟨t, h⟩ f)).mail.isEmpty
      else false

/-- What a gang keeps of a tile that it leaves. -/
def State.tileKept (s : State) (t : Nat) : TileKept :=
  { parts := Vector.ofFn fun f => match facetOwner t f.val with
      | some o => ((s.ni o).kept, (s.ni o).notices)
      | none => (Kept.initial, [])
    channels := (s.tile t).channels }

/-- The firmware takes a quiesced gang out of its tiles, its handlers having copied the save image: the record's state is 3 with
the image's address, and the tiles are free (R183, R273). -/
def State.vacate (s : State) (slot : Nat) (image : Word) : State :=
  match s.gangs.find slot with
  | none => s
  | some g =>
    if s.vacatable g then
      ((g.tiles.foldl State.clearTile s).setSlot slot
        (some { g with phase := .saved, save := image, kept := g.tiles.map s.tileKept })).freeTiles g
    else s

end Sys2Proof.Machine
end

