-- ==== Sys2Proof/Decode.lean ====
section
/-! DEFINITION. The decoder of instruction words (R83, R84, R89, R90) and of bytecode (R324, R328), total on every
bit pattern, and after it the encoder, from the same tables. Reserved fields are ignored (R90), so the decoder
drops them and the encoder writes them as zero (R3). -/

namespace Sys2Proof

/-- The field of `len` bits whose lowest bit is `lo` (R84). -/
def fld (w : Insn) (lo len : Nat) : BitVec len := BitVec.ofNat len (w.toNat / 2 ^ lo)

/-- The number a field holds. -/
def fldN (w : Insn) (lo len : Nat) : Nat := w.toNat / 2 ^ lo % 2 ^ len

/-- Major 0x00 (R169): sel chooses; the all-zero word is RUNOFF, any other word with sel 0 is unassigned. fwcall's
number chooses the row of the firmware function (R385). -/
def decodeSys (w : Insn) : Instr :=
  match fldN w 21 5 with
  | 0 => if w.toNat = 0 then .runoff else .illegal
  | 1 => .trap (fld w 0 16)
  | 2 => .kret
  | 3 => .uiret
  | 4 => .halt
  | 5 => .wfi
  | 6 =>
    match fldN w 0 16 with
    | 0x00 => .fwcallFirmwareLevel
    | 0x01 => .fwcallRegionTeardown
    | 0x02 => .fwcallFaultDomainTeardown
    | 0x10 => .fwcallPanic
    | 0x11 => .fwcallThaw
    | 0x20 => .fwcallRegisterNoticeContext
    | 0x30 => .fwcallSetReceiveWindow
    | 0x40 => .fwcallReadDomainEntry
    | _ => .fwcallUnknown (fld w 0 16)
  | _ => .illegal

/-- Major 0x01 (R102), by the selector in bits 10:0; a value not listed is unassigned. -/
def decodeAlu (w : Insn) : Instr :=
  match fldN w 0 11 with
  | 0x0 => .add (fld w 21 5) (fld w 16 5) (fld w 11 5)
  | 0x1 => .sub (fld w 21 5) (fld w 16 5) (fld w 11 5)
  | 0x2 => .and (fld w 21 5) (fld w 16 5) (fld w 11 5)
  | 0x3 => .or (fld w 21 5) (fld w 16 5) (fld w 11 5)
  | 0x4 => .xor (fld w 21 5) (fld w 16 5) (fld w 11 5)
  | 0x5 => .andn (fld w 21 5) (fld w 16 5) (fld w 11 5)
  | 0x6 => .orn (fld w 21 5) (fld w 16 5) (fld w 11 5)
  | 0x8 => .sll (fld w 21 5) (fld w 16 5) (fld w 11 5)
  | 0x9 => .srl (fld w 21 5) (fld w 16 5) (fld w 11 5)
  | 0xA => .sra (fld w 21 5) (fld w 16 5) (fld w 11 5)
  | 0xB => .rol (fld w 21 5) (fld w 16 5) (fld w 11 5)
  | 0x10 => .slt (fld w 21 5) (fld w 16 5) (fld w 11 5)
  | 0x11 => .sltu (fld w 21 5) (fld w 16 5) (fld w 11 5)
  | 0x12 => .min (fld w 21 5) (fld w 16 5) (fld w 11 5)
  | 0x13 => .max (fld w 21 5) (fld w 16 5) (fld w 11 5)
  | 0x14 => .minu (fld w 21 5) (fld w 16 5) (fld w 11 5)
  | 0x15 => .maxu (fld w 21 5) (fld w 16 5) (fld w 11 5)
  | 0x18 | 0x19 | 0x1A | 0x1B => .lea (fld w 21 5) (fld w 16 5) (fld w 11 5) (fld w 0 2)
  | 0x20 => .clz (fld w 21 5) (fld w 16 5)
  | 0x21 => .ctz (fld w 21 5) (fld w 16 5)
  | 0x22 => .popc (fld w 21 5) (fld w 16 5)
  | 0x23 => .bswap (fld w 21 5) (fld w 16 5)
  | 0x24 => .sextB (fld w 21 5) (fld w 16 5)
  | 0x25 => .sextH (fld w 21 5) (fld w 16 5)
  | 0x26 => .sextW (fld w 21 5) (fld w 16 5)
  | 0x27 => .zextW (fld w 21 5) (fld w 16 5)
  | _ => .illegal

/-- Major 0x09 (R105), by the selector in bits 15:8; a value not listed is unassigned. -/
def decodeShiftImm (w : Insn) : Instr :=
  match fldN w 8 8 with
  | 0x0 => .slli (fld w 21 5) (fld w 16 5) (fld w 0 6)
  | 0x1 => .srli (fld w 21 5) (fld w 16 5) (fld w 0 6)
  | 0x2 => .srai (fld w 21 5) (fld w 16 5) (fld w 0 6)
  | 0x3 => .roli (fld w 21 5) (fld w 16 5) (fld w 0 6)
  | _ => .illegal

/-- Major 0x0A (R106), by the selector in bits 10:0; a value not listed is unassigned. -/
def decodeMulDiv (w : Insn) : Instr :=
  match fldN w 0 11 with
  | 0x0 => .mul (fld w 21 5) (fld w 16 5) (fld w 11 5)
  | 0x1 => .mulh (fld w 21 5) (fld w 16 5) (fld w 11 5)
  | 0x2 => .mulhu (fld w 21 5) (fld w 16 5) (fld w 11 5)
  | 0x3 => .mulhsu (fld w 21 5) (fld w 16 5) (fld w 11 5)
  | 0x4 => .div (fld w 21 5) (fld w 16 5) (fld w 11 5)
  | 0x5 => .divu (fld w 21 5) (fld w 16 5) (fld w 11 5)
  | 0x6 => .rem (fld w 21 5) (fld w 16 5) (fld w 11 5)
  | 0x7 => .remu (fld w 21 5) (fld w 16 5) (fld w 11 5)
  | _ => .illegal

/-- Major 0x0B (R107), by the selector in bits 15:12; a value not listed is unassigned. -/
def decodeBranch (w : Insn) : Instr :=
  match fldN w 12 4 with
  | 0x0 => .bEq (fld w 21 5) (fld w 16 5) (fld w 0 12)
  | 0x1 => .bNe (fld w 21 5) (fld w 16 5) (fld w 0 12)
  | 0x2 => .bLt (fld w 21 5) (fld w 16 5) (fld w 0 12)
  | 0x3 => .bGe (fld w 21 5) (fld w 16 5) (fld w 0 12)
  | 0x4 => .bLtu (fld w 21 5) (fld w 16 5) (fld w 0 12)
  | 0x5 => .bGeu (fld w 21 5) (fld w 16 5) (fld w 0 12)
  | 0x8 => .bKany (fld w 21 5) (fld w 16 5) (fld w 0 12)
  | 0x9 => .bKall (fld w 21 5) (fld w 16 5) (fld w 0 12)
  | 0xA => .bKnone (fld w 21 5) (fld w 16 5) (fld w 0 12)
  | _ => .illegal

/-- Major 0x0F (R110), by the selector in bits 10:0; a value not listed is unassigned. -/
def decodeJumpReg (w : Insn) : Instr :=
  match fldN w 0 11 with
  | 0x0 => .jr (fld w 16 5)
  | 0x1 => .jlr (fld w 21 5) (fld w 16 5)
  | _ => .illegal

/-- Major 0x12 (R123), by the selector in bits 10:6; a value not listed is unassigned. -/
def decodeSpace (w : Insn) : Instr :=
  match fldN w 6 5 with
  | 0x0 => .ldx (fld w 21 5) (fld w 16 5) (fld w 11 5) (fld w 0 3)
  | 0x1 => .stx (fld w 21 5) (fld w 16 5) (fld w 11 5) (fld w 0 3)
  | 0x2 => .ldAcq (fld w 21 5) (fld w 16 5) (fld w 0 3)
  | 0x3 => .stRel (fld w 21 5) (fld w 16 5) (fld w 0 3)
  | 0x4 => .raddr (fld w 21 5) (fld w 16 5) (fld w 11 5)
  | _ => .illegal

/-- Major 0x13 (R125), by the selector in bits 10:7; a value not listed is unassigned. -/
def decodeAmo (w : Insn) : Instr :=
  match fldN w 7 4 with
  | 0x0 => .amoAdd (fld w 21 5) (fld w 16 5) (fld w 11 5) (fld w 5 2) (fld w 4 1)
  | 0x1 => .amoSwap (fld w 21 5) (fld w 16 5) (fld w 11 5) (fld w 5 2) (fld w 4 1)
  | 0x2 => .amoCas (fld w 21 5) (fld w 16 5) (fld w 11 5) (fld w 5 2) (fld w 4 1)
  | 0x3 => .amoMin (fld w 21 5) (fld w 16 5) (fld w 11 5) (fld w 5 2) (fld w 4 1)
  | 0x4 => .amoMax (fld w 21 5) (fld w 16 5) (fld w 11 5) (fld w 5 2) (fld w 4 1)
  | 0x5 => .amoMinu (fld w 21 5) (fld w 16 5) (fld w 11 5) (fld w 5 2) (fld w 4 1)
  | 0x6 => .amoMaxu (fld w 21 5) (fld w 16 5) (fld w 11 5) (fld w 5 2) (fld w 4 1)
  | 0x7 => .amoAnd (fld w 21 5) (fld w 16 5) (fld w 11 5) (fld w 5 2) (fld w 4 1)
  | 0x8 => .amoOr (fld w 21 5) (fld w 16 5) (fld w 11 5) (fld w 5 2) (fld w 4 1)
  | 0x9 => .amoXor (fld w 21 5) (fld w 16 5) (fld w 11 5) (fld w 5 2) (fld w 4 1)
  | _ => .illegal

/-- Major 0x14 (R127), by the selector in bits 10:8; a value not listed is unassigned. -/
def decodeFence (w : Insn) : Instr :=
  match fldN w 8 3 with
  | 0x0 => .fenceIssue (fld w 6 2) (fld w 0 5)
  | 0x1 => .fenceWait (fld w 6 2)
  | 0x2 => .fenceTest (fld w 21 5) (fld w 6 2)
  | _ => .illegal

/-- Major 0x15 (R129), by the selector in bits 10:8; a value not listed is unassigned. -/
def decodeSync (w : Insn) : Instr :=
  match fldN w 8 3 with
  | 0x0 => .mtxLock (fld w 11 5)
  | 0x1 => .mtxTry (fld w 21 5) (fld w 11 5)
  | 0x2 => .mtxUnlock (fld w 11 5)
  | 0x3 => .semP (fld w 11 5)
  | 0x4 => .semV (fld w 11 5)
  | 0x5 => .semTry (fld w 21 5) (fld w 11 5)
  | 0x6 => .semRd (fld w 21 5) (fld w 11 5)
  | _ => .illegal

/-- Major 0x16 (R157), by the selector in bits 10:0; a value not listed is unassigned. -/
def decodeCtx (w : Insn) : Instr :=
  match fldN w 0 11 with
  | 0x0 => .beadStart (fld w 21 5) (fld w 16 5) (fld w 11 5)
  | 0x2 => .beadWait (fld w 16 5)
  | 0x3 => .beadLive (fld w 21 5)
  | 0x1 => .beadEnd
  | 0x4 => .hbeat
  | _ => .illegal

/-- Major 0x17 (R165), by the selector in bits 15:14; a value not listed is unassigned. -/
def decodeSpecial (w : Insn) : Instr :=
  match fldN w 14 2 with
  | 0x0 => .srr (fld w 21 5) (fld w 0 12)
  | 0x1 => .srw (fld w 21 5) (fld w 16 5) (fld w 0 12)
  | 0x2 => .srs (fld w 21 5) (fld w 16 5) (fld w 0 12)
  | 0x3 => .src (fld w 21 5) (fld w 16 5) (fld w 0 12)
  | _ => .illegal

/-- Major 0x18 (R112), by the selector in bits 5:0; a value not listed is unassigned. -/
def decodeFp (w : Insn) : Instr :=
  match fldN w 0 6 with
  | 0x0 => .fadd (fld w 21 5) (fld w 16 5) (fld w 11 5) (fld w 10 1) (fld w 7 3) (fld w 6 1)
  | 0x1 => .fsub (fld w 21 5) (fld w 16 5) (fld w 11 5) (fld w 10 1) (fld w 7 3) (fld w 6 1)
  | 0x2 => .fmul (fld w 21 5) (fld w 16 5) (fld w 11 5) (fld w 10 1) (fld w 7 3) (fld w 6 1)
  | 0x3 => .fdiv (fld w 21 5) (fld w 16 5) (fld w 11 5) (fld w 10 1) (fld w 7 3) (fld w 6 1)
  | 0x4 => .fsqrt (fld w 21 5) (fld w 16 5) (fld w 10 1) (fld w 7 3) (fld w 6 1)
  | 0x5 => .fmadd (fld w 21 5) (fld w 16 5) (fld w 11 5) (fld w 10 1) (fld w 7 3) (fld w 6 1)
  | 0x8 => .fmin (fld w 21 5) (fld w 16 5) (fld w 11 5) (fld w 6 1)
  | 0x9 => .fmax (fld w 21 5) (fld w 16 5) (fld w 11 5) (fld w 6 1)
  | 0xA => .fneg (fld w 21 5) (fld w 16 5) (fld w 6 1)
  | 0xB => .fabs (fld w 21 5) (fld w 16 5) (fld w 6 1)
  | 0x10 => .feq (fld w 21 5) (fld w 16 5) (fld w 11 5) (fld w 6 1)
  | 0x11 => .flt (fld w 21 5) (fld w 16 5) (fld w 11 5) (fld w 6 1)
  | 0x12 => .fle (fld w 21 5) (fld w 16 5) (fld w 11 5) (fld w 6 1)
  | 0x13 => .fclass (fld w 21 5) (fld w 16 5) (fld w 6 1)
  | _ => .illegal

/-- Major 0x1A (R140), by the selector in bits 4:0; a value not listed is unassigned. -/
def decodeVecInt (w : Insn) : Instr :=
  match fldN w 0 5 with
  | 0x0 => .vadd (fld w 21 5) (fld w 16 5) (fld w 11 5) (fld w 8 3) (fld w 7 1) (fld w 5 2)
  | 0x1 => .vsub (fld w 21 5) (fld w 16 5) (fld w 11 5) (fld w 8 3) (fld w 7 1) (fld w 5 2)
  | 0x2 => .vmul (fld w 21 5) (fld w 16 5) (fld w 11 5) (fld w 8 3) (fld w 7 1) (fld w 5 2)
  | 0x3 => .vmulh (fld w 21 5) (fld w 16 5) (fld w 11 5) (fld w 8 3) (fld w 7 1) (fld w 5 2)
  | 0x4 => .vand (fld w 21 5) (fld w 16 5) (fld w 11 5) (fld w 8 3) (fld w 7 1) (fld w 5 2)
  | 0x5 => .vor (fld w 21 5) (fld w 16 5) (fld w 11 5) (fld w 8 3) (fld w 7 1) (fld w 5 2)
  | 0x6 => .vxor (fld w 21 5) (fld w 16 5) (fld w 11 5) (fld w 8 3) (fld w 7 1) (fld w 5 2)
  | 0x7 => .vsll (fld w 21 5) (fld w 16 5) (fld w 11 5) (fld w 8 3) (fld w 7 1) (fld w 5 2)
  | 0x8 => .vsrl (fld w 21 5) (fld w 16 5) (fld w 11 5) (fld w 8 3) (fld w 7 1) (fld w 5 2)
  | 0x9 => .vsra (fld w 21 5) (fld w 16 5) (fld w 11 5) (fld w 8 3) (fld w 7 1) (fld w 5 2)
  | 0xA => .vmin (fld w 21 5) (fld w 16 5) (fld w 11 5) (fld w 8 3) (fld w 7 1) (fld w 5 2)
  | 0xB => .vmax (fld w 21 5) (fld w 16 5) (fld w 11 5) (fld w 8 3) (fld w 7 1) (fld w 5 2)
  | 0xC => .vminu (fld w 21 5) (fld w 16 5) (fld w 11 5) (fld w 8 3) (fld w 7 1) (fld w 5 2)
  | 0xD => .vmaxu (fld w 21 5) (fld w 16 5) (fld w 11 5) (fld w 8 3) (fld w 7 1) (fld w 5 2)
  | 0xE => .vabs (fld w 21 5) (fld w 16 5) (fld w 8 3) (fld w 7 1) (fld w 5 2)
  | 0xF => .vmerge (fld w 21 5) (fld w 16 5) (fld w 11 5) (fld w 8 3) (fld w 5 2)
  | 0x10 => .vcmpEq (fld w 21 5) (fld w 16 5) (fld w 11 5) (fld w 8 3) (fld w 7 1) (fld w 5 2)
  | 0x11 => .vcmpNe (fld w 21 5) (fld w 16 5) (fld w 11 5) (fld w 8 3) (fld w 7 1) (fld w 5 2)
  | 0x12 => .vcmpLt (fld w 21 5) (fld w 16 5) (fld w 11 5) (fld w 8 3) (fld w 7 1) (fld w 5 2)
  | 0x13 => .vcmpLtu (fld w 21 5) (fld w 16 5) (fld w 11 5) (fld w 8 3) (fld w 7 1) (fld w 5 2)
  | 0x14 => .vcmpLe (fld w 21 5) (fld w 16 5) (fld w 11 5) (fld w 8 3) (fld w 7 1) (fld w 5 2)
  | 0x15 => .vcmpLeu (fld w 21 5) (fld w 16 5) (fld w 11 5) (fld w 8 3) (fld w 7 1) (fld w 5 2)
  | _ => .illegal

/-- Major 0x1B (R141), by the selector in bits 4:0; a value not listed is unassigned. -/
def decodeVecFp (w : Insn) : Instr :=
  match fldN w 0 5 with
  | 0x0 | 0x1 | 0x2 | 0x3 => .vfadd (fld w 21 5) (fld w 16 5) (fld w 11 5) (fld w 8 3) (fld w 7 1) (fld w 5 2) (fld w 0 2)
  | 0x4 | 0x5 | 0x6 | 0x7 => .vfsub (fld w 21 5) (fld w 16 5) (fld w 11 5) (fld w 8 3) (fld w 7 1) (fld w 5 2) (fld w 0 2)
  | 0x8 | 0x9 | 0xA | 0xB => .vfmul (fld w 21 5) (fld w 16 5) (fld w 11 5) (fld w 8 3) (fld w 7 1) (fld w 5 2) (fld w 0 2)
  | 0xC | 0xD | 0xE | 0xF => .vfma (fld w 21 5) (fld w 16 5) (fld w 11 5) (fld w 8 3) (fld w 7 1) (fld w 5 2) (fld w 0 2)
  | 0x10 | 0x11 | 0x12 | 0x13 => .vfdiv (fld w 21 5) (fld w 16 5) (fld w 11 5) (fld w 8 3) (fld w 7 1) (fld w 5 2) (fld w 0 2)
  | 0x14 | 0x15 | 0x16 | 0x17 => .vfsqrt (fld w 21 5) (fld w 16 5) (fld w 8 3) (fld w 7 1) (fld w 5 2) (fld w 0 2)
  | 0x18 => .vfmin (fld w 21 5) (fld w 16 5) (fld w 11 5) (fld w 8 3) (fld w 7 1) (fld w 5 2)
  | 0x19 => .vfmax (fld w 21 5) (fld w 16 5) (fld w 11 5) (fld w 8 3) (fld w 7 1) (fld w 5 2)
  | 0x1A => .vfneg (fld w 21 5) (fld w 16 5) (fld w 8 3) (fld w 7 1) (fld w 5 2)
  | 0x1B => .vfabs (fld w 21 5) (fld w 16 5) (fld w 8 3) (fld w 7 1) (fld w 5 2)
  | 0x1C => .vfcmpEq (fld w 21 5) (fld w 16 5) (fld w 11 5) (fld w 8 3) (fld w 7 1) (fld w 5 2)
  | 0x1D => .vfcmpLt (fld w 21 5) (fld w 16 5) (fld w 11 5) (fld w 8 3) (fld w 7 1) (fld w 5 2)
  | 0x1E => .vfcmpLe (fld w 21 5) (fld w 16 5) (fld w 11 5) (fld w 8 3) (fld w 7 1) (fld w 5 2)
  | 0x1F => .vfcmpUn (fld w 21 5) (fld w 16 5) (fld w 11 5) (fld w 8 3) (fld w 7 1) (fld w 5 2)
  | _ => .illegal

/-- Major 0x1C (R142), by the selector in bits 4:0; a value not listed is unassigned. -/
def decodeVecMem (w : Insn) : Instr :=
  match fldN w 0 5 with
  | 0x0 => .vld (fld w 21 5) (fld w 16 5) (fld w 8 3) (fld w 7 1) (fld w 5 2)
  | 0x1 => .vst (fld w 21 5) (fld w 16 5) (fld w 8 3) (fld w 5 2)
  | 0x2 => .vlds (fld w 21 5) (fld w 16 5) (fld w 11 5) (fld w 8 3) (fld w 7 1) (fld w 5 2)
  | 0x3 => .vsts (fld w 21 5) (fld w 16 5) (fld w 11 5) (fld w 8 3) (fld w 5 2)
  | 0x4 => .vldx (fld w 21 5) (fld w 16 5) (fld w 11 5) (fld w 8 3) (fld w 7 1) (fld w 5 2)
  | 0x5 => .vstx (fld w 21 5) (fld w 16 5) (fld w 11 5) (fld w 8 3) (fld w 5 2)
  | 0x6 => .vldb (fld w 21 5) (fld w 16 5) (fld w 8 3) (fld w 7 1) (fld w 5 2)
  | _ => .illegal

/-- Major 0x1D (R147), by the selector in bits 4:0; a value not listed is unassigned. -/
def decodeVecPerm (w : Insn) : Instr :=
  match fldN w 0 5 with
  | 0x0 => .vperm (fld w 21 5) (fld w 16 5) (fld w 11 5) (fld w 8 3) (fld w 7 1) (fld w 5 2)
  | 0x1 => .vslide (fld w 21 5) (fld w 16 5) (fld w 11 5) (fld w 8 3) (fld w 7 1) (fld w 5 2)
  | 0x2 => .vbcast (fld w 21 5) (fld w 16 5) (fld w 8 3) (fld w 7 1) (fld w 5 2)
  | 0x3 => .vext (fld w 21 5) (fld w 16 5) (fld w 11 5) (fld w 5 2)
  | 0x4 => .vins (fld w 21 5) (fld w 16 5) (fld w 11 5) (fld w 5 2)
  | 0x5 => .vidx (fld w 21 5) (fld w 8 3) (fld w 7 1) (fld w 5 2)
  | 0x6 => .vredAdd (fld w 21 5) (fld w 16 5) (fld w 8 3) (fld w 5 2)
  | 0x7 => .vredMin (fld w 21 5) (fld w 16 5) (fld w 8 3) (fld w 5 2)
  | 0x8 => .vredMax (fld w 21 5) (fld w 16 5) (fld w 8 3) (fld w 5 2)
  | 0x9 => .vscanAdd (fld w 21 5) (fld w 16 5) (fld w 8 3) (fld w 7 1) (fld w 5 2)
  | 0x10 => .vredFadd (fld w 21 5) (fld w 16 5) (fld w 8 3) (fld w 5 2)
  | 0x11 => .vredFmin (fld w 21 5) (fld w 16 5) (fld w 8 3) (fld w 5 2)
  | 0x12 => .vredFmax (fld w 21 5) (fld w 16 5) (fld w 8 3) (fld w 5 2)
  | 0x13 => .vscanFadd (fld w 21 5) (fld w 16 5) (fld w 8 3) (fld w 7 1) (fld w 5 2)
  | _ => .illegal

/-- Major 0x1E (R149), by the selector in bits 6:0; a value not listed is unassigned. -/
def decodeMask (w : Insn) : Instr :=
  match fldN w 0 7 with
  | 0x0 => .kand (fld w 21 5) (fld w 16 5) (fld w 11 5)
  | 0x1 => .kor (fld w 21 5) (fld w 16 5) (fld w 11 5)
  | 0x2 => .kxor (fld w 21 5) (fld w 16 5) (fld w 11 5)
  | 0x3 => .knot (fld w 21 5) (fld w 16 5)
  | 0x4 => .kmov (fld w 21 5) (fld w 16 5)
  | 0x5 => .kpopc (fld w 21 5) (fld w 16 5)
  | 0x6 => .kfirst (fld w 21 5) (fld w 16 5)
  | 0x7 => .kset (fld w 21 5) (fld w 16 5)
  | _ => .illegal

/-- Major 0x22 (R220), by the selector in bits 2:0; a value not listed is unassigned. -/
def decodeBezel (w : Insn) : Instr :=
  match fldN w 0 3 with
  | 0x0 => .bzLocate (fld w 21 5)
  | 0x1 => .bzFix (fld w 21 5) (fld w 16 5)
  | 0x2 => .bzRetry (fld w 21 5)
  | 0x3 => .bzClear (fld w 16 5)
  | 0x4 => .bzInject (fld w 16 5) (fld w 11 5)
  | 0x5 => .bzStat (fld w 21 5) (fld w 16 5)
  | _ => .illegal

/-- Major 0x23 (R208), by the selector in bits 2:0; a value not listed is unassigned. -/
def decodeTensorTable (w : Insn) : Instr :=
  match fldN w 0 3 with
  | 0x0 => .ttLoad (fld w 16 5) (fld w 3 8)
  | 0x1 => .ttSlice (fld w 3 8)
  | 0x2 => .ttRd (fld w 21 5) (fld w 11 5) (fld w 3 8)
  | 0x3 => .ttInval (fld w 3 8)
  | _ => .illegal

/-- Major 0x24 (R235), by the selector in bits 10:0; a value not listed is unassigned. -/
def decodeCopy (w : Insn) : Instr :=
  match fldN w 0 11 with
  | 0x0 => .cpyPush (fld w 16 5)
  | 0x1 => .cpyTry (fld w 21 5) (fld w 16 5)
  | 0x2 => .cpyQuiesce (fld w 16 5)
  | _ => .illegal

/-- Major 0x25 (R253), by the selector in bits 10:0; a value not listed is unassigned. -/
def decodeMessage (w : Insn) : Instr :=
  match fldN w 0 11 with
  | 0x0 => .msgSend (fld w 16 5) (fld w 11 5)
  | 0x1 => .msgSendRel (fld w 16 5) (fld w 11 5)
  | 0x2 => .msgMcast (fld w 16 5) (fld w 11 5)
  | 0x3 => .msgMcastRel (fld w 16 5) (fld w 11 5)
  | _ => .illegal

/-- Major 0x26 (R251), by the selector in bits 10:0; a value not listed is unassigned. -/
def decodeMailbox (w : Insn) : Instr :=
  match fldN w 0 11 with
  | 0x1 => .mboxPop (fld w 21 5)
  | 0x2 => .mboxCnt (fld w 21 5)
  | 0x0 => .mboxWait
  | _ => .illegal

/-- Major 0x27 (R259), by the selector in bits 10:0; a value not listed is unassigned. -/
def decodeTag (w : Insn) : Instr :=
  match fldN w 0 11 with
  | 0x0 => .tagLook (fld w 21 5) (fld w 16 5) (fld w 11 5)
  | 0x1 => .tagSet (fld w 16 5) (fld w 11 5)
  | 0x2 => .tagClr (fld w 21 5) (fld w 16 5)
  | 0x3 => .tagFlush (fld w 21 5) (fld w 16 5)
  | _ => .illegal

/-- Major 0x28 (R278), by the selector in bits 10:0; a value not listed is unassigned. -/
def decodeQueue (w : Insn) : Instr :=
  match fldN w 0 11 with
  | 0x0 => .qPush (fld w 21 5) (fld w 16 5) (fld w 11 5)
  | 0x1 => .qTry (fld w 21 5) (fld w 16 5) (fld w 11 5)
  | 0x2 => .qDeq (fld w 21 5) (fld w 16 5) (fld w 11 5)
  | 0x3 => .qTdeq (fld w 21 5) (fld w 16 5) (fld w 11 5)
  | 0x4 => .qStat (fld w 21 5) (fld w 11 5)
  | 0x5 => .qReset (fld w 16 5) (fld w 11 5)
  | _ => .illegal

/-- Major 0x29 (R288), by the selector in bits 10:0; a value not listed is unassigned. -/
def decodeTask (w : Insn) : Instr :=
  match fldN w 0 11 with
  | 0x0 => .taskNext (fld w 21 5) (fld w 16 5)
  | 0x1 => .taskDone (fld w 16 5)
  | 0x2 => .taskFail (fld w 16 5) (fld w 11 5)
  | 0x3 => .taskRearm (fld w 16 5)
  | 0x4 => .taskSpawn (fld w 16 5) (fld w 11 5)
  | 0x5 => .gangLaunch (fld w 21 5) (fld w 16 5)
  | 0x6 => .gangExit
  | _ => .illegal

/-- Major 0x2A (R304), by the selector in bits 2:0; a value not listed is unassigned. -/
def decodeCairn (w : Insn) : Instr :=
  match fldN w 0 3 with
  | 0x0 => .cnPut (fld w 16 5) (fld w 11 5) (fld w 5 6)
  | 0x1 => .cnTake (fld w 21 5) (fld w 5 6)
  | 0x2 => .cnTtake (fld w 21 5) (fld w 5 6)
  | 0x3 => .cnStat (fld w 21 5) (fld w 11 5) (fld w 5 6)
  | 0x4 => .cnOpen (fld w 16 5) (fld w 5 6)
  | 0x5 => .cnClose (fld w 5 6)
  | _ => .illegal

/-- Major 0x2B (R134), by the selector in bits 10:8; a value not listed is unassigned. -/
def decodeBarrier (w : Insn) : Instr :=
  match fldN w 8 3 with
  | 0x0 => .barArrive (fld w 21 5) (fld w 11 5)
  | 0x1 => .barWait (fld w 16 5) (fld w 11 5)
  | 0x2 => .barTest (fld w 21 5) (fld w 16 5) (fld w 11 5)
  | 0x3 => .barCfg (fld w 16 5) (fld w 11 5)
  | _ => .illegal

/-- Major 0x2C (R341), by the selector in bits 10:0; a value not listed is unassigned. -/
def decodeBridge (w : Insn) : Instr :=
  match fldN w 0 11 with
  | 0x0 => .txEnter (fld w 16 5) (fld w 11 5)
  | 0x1 => .txResume (fld w 16 5)
  | 0x2 => .txResumeSkip (fld w 16 5)
  | 0x3 => .icGet (fld w 21 5) (fld w 16 5)
  | 0x4 => .icSet (fld w 16 5) (fld w 11 5)
  | 0x5 => .icClr (fld w 16 5)
  | 0x6 => .holdAdd (fld w 21 5) (fld w 16 5) (fld w 11 5)
  | 0x7 => .txRelq (fld w 21 5)
  | 0x8 => .txRelqRel (fld w 16 5)
  | 0x9 => .txRelqStat (fld w 21 5)
  | 0xA => .txRelqCfg (fld w 16 5)
  | 0xB => .txClsver (fld w 21 5) (fld w 16 5)
  | _ => .illegal

/-- Major 0x20 (R196): the operation in bits 2:0; operation 3 divides by the selector in bits 10:3. -/
def decodeMatrix (w : Insn) : Instr :=
  match fldN w 0 3 with
  | 0 => .mmLoadw (fld w 16 5) (fld w 11 5) (fld w 3 8)
  | 1 => .mmStream (fld w 16 5) (fld w 11 5) (fld w 3 8)
  | 2 => .mmDrain (fld w 16 5) (fld w 11 5) (fld w 3 8)
  | 3 =>
    match fldN w 3 8 with
    | 0 => .mmZero (fld w 16 5)
    | 1 => .mmSwap
    | 2 => .mmRdrow (fld w 21 5) (fld w 16 5)
    | 3 => .mmWait
    | 4 => .mmSave
    | 5 => .mmRest
    | 6 => .mmSync
    | _ => .illegal
  | _ => .illegal

/-- Major 0x1F (R150): the destination format code in bits 6:3 is a format for vcvt, 0xD for vpack and 0xE for
vunpack; 0xF and LQ2 (0x7) are no encoding, so they trap ILLEGAL in every word of the major, at step 4 of R91
(DEDUCED, log entry 44). -/
def decodeVecCvt (w : Insn) : Instr :=
  match fldN w 3 4 with
  | 0xD => .vpack (fld w 21 5) (fld w 16 5) (fld w 11 5) (fld w 8 3) (fld w 7 1) (fld w 2 1) (fld w 0 2)
  | 0xE => .vunpack (fld w 21 5) (fld w 16 5) (fld w 11 1) (fld w 8 3) (fld w 7 1) (fld w 2 1) (fld w 0 2)
  | 0xF | 0x7 => .illegal
  | _ => .vcvt (fld w 21 5) (fld w 16 5) (fld w 12 4) (fld w 11 1) (fld w 8 3) (fld w 7 1) (fld w 3 4) (fld w 0 3)

/-- The fate of a word without prefixes (R89, R90): the instruction it is, or the step that traps for it. -/
def decode (w : Insn) : Instr :=
  match fldN w 26 6 with
  | 0x00 => decodeSys w
  | 0x01 => decodeAlu w
  | 0x02 => .addi (fld w 21 5) (fld w 16 5) (fld w 0 16)
  | 0x03 => .andi (fld w 21 5) (fld w 16 5) (fld w 0 16)
  | 0x04 => .ori (fld w 21 5) (fld w 16 5) (fld w 0 16)
  | 0x05 => .xori (fld w 21 5) (fld w 16 5) (fld w 0 16)
  | 0x06 => .slti (fld w 21 5) (fld w 16 5) (fld w 0 16)
  | 0x07 => .sltiu (fld w 21 5) (fld w 16 5) (fld w 0 16)
  | 0x08 => .lih (fld w 21 5) (fld w 16 5) (fld w 0 16)
  | 0x09 => decodeShiftImm w
  | 0x0A => decodeMulDiv w
  | 0x0B => decodeBranch w
  | 0x0D => .j (fld w 0 26)
  | 0x0E => .jl (fld w 0 26)
  | 0x0F => decodeJumpReg w
  | 0x10 => .ld (fld w 21 5) (fld w 16 5) (fld w 13 3) (fld w 0 13)
  | 0x11 => .st (fld w 21 5) (fld w 16 5) (fld w 13 3) (fld w 0 13)
  | 0x12 => decodeSpace w
  | 0x13 => decodeAmo w
  | 0x14 => decodeFence w
  | 0x15 => decodeSync w
  | 0x16 => decodeCtx w
  | 0x17 => decodeSpecial w
  | 0x18 => decodeFp w
  | 0x19 => .cvt (fld w 21 5) (fld w 16 5) (fld w 12 4) (fld w 11 1) (fld w 8 3) (fld w 4 4) (fld w 3 1)
  | 0x1A => decodeVecInt w
  | 0x1B => decodeVecFp w
  | 0x1C => decodeVecMem w
  | 0x1D => decodeVecPerm w
  | 0x1E => decodeMask w
  | 0x1F => decodeVecCvt w
  | 0x20 => decodeMatrix w
  | 0x21 => .mmSeq (fld w 16 5)
  | 0x22 => decodeBezel w
  | 0x23 => decodeTensorTable w
  | 0x24 => decodeCopy w
  | 0x25 => decodeMessage w
  | 0x26 => decodeMailbox w
  | 0x27 => decodeTag w
  | 0x28 => decodeQueue w
  | 0x29 => decodeTask w
  | 0x2A => decodeCairn w
  | 0x2B => decodeBarrier w
  | 0x2C => decodeBridge w
  | 0x30 | 0x31 | 0x32 | 0x33 | 0x34 | 0x35 | 0x36 | 0x37 | 0x3C | 0x3D => .future
  | 0x38 | 0x39 | 0x3A | 0x3B => .nop (fld w 0 28)
  | 0x3E => .rep (fld w 20 6) (fld w 17 3) (fld w 14 3) (fld w 11 3)
  | 0x3F => .long (fld w 0 26)
  | _ => .illegal

/-- The field of `len` bits at bit `lo` of the 48 bits at a bytecode address (R324). -/
def bfld (v : BitVec 48) (lo len : Nat) : BitVec len := BitVec.ofNat len (v.toNat / 2 ^ lo)

/-- The length in bytes of the bytecode instruction with an opcode byte: 6 for format I, else 4 (R324, R328). -/
def bytecodeLength (op : Nat) : Nat :=
  match op with
  | 0x05 | 0x06 | 0x07 | 0x08 | 0x09 | 0x0A | 0x1B | 0x1C | 0x21 => 6
  | _ => 4

/-- The bytecode instruction whose bytes are the low bytes of v (R324, R328). -/
noncomputable def decodeBytecode (v : BitVec 48) : Instr :=
  match v.toNat % 256 with
  | 0x00 => .tsupixNop
  | 0x01 => .tsupixMove (bfld v 16 8) (bfld v 8 8)
  | 0x02 => .tsupixLoadk (bfld v 16 16) (bfld v 8 8)
  | 0x03 => .tsupixLoadi (bfld v 16 16) (bfld v 8 8)
  | 0x04 => .tsupixDrop (bfld v 8 8)
  | 0x05 => .tsupixGetglobal (bfld v 8 8) (bfld v 16 8) (bfld v 24 8) (bfld v 32 16)
  | 0x06 => .tsupixSetglobal (bfld v 8 8) (bfld v 16 8) (bfld v 24 8) (bfld v 32 16)
  | 0x07 => .tsupixGetattr (bfld v 8 8) (bfld v 16 8) (bfld v 24 8) (bfld v 32 16)
  | 0x08 => .tsupixSetattr (bfld v 8 8) (bfld v 16 8) (bfld v 24 8) (bfld v 32 16)
  | 0x09 => .tsupixGetitem (bfld v 8 8) (bfld v 16 8) (bfld v 24 8) (bfld v 32 16)
  | 0x0A => .tsupixSetitem (bfld v 8 8) (bfld v 16 8) (bfld v 24 8) (bfld v 32 16)
  | 0x0B => .tsupixAdd (bfld v 24 8) (bfld v 16 8) (bfld v 8 8)
  | 0x0C => .tsupixSub (bfld v 24 8) (bfld v 16 8) (bfld v 8 8)
  | 0x0D => .tsupixMul (bfld v 24 8) (bfld v 16 8) (bfld v 8 8)
  | 0x0E => .tsupixTruediv (bfld v 24 8) (bfld v 16 8) (bfld v 8 8)
  | 0x0F => .tsupixFloordiv (bfld v 24 8) (bfld v 16 8) (bfld v 8 8)
  | 0x10 => .tsupixMod (bfld v 24 8) (bfld v 16 8) (bfld v 8 8)
  | 0x11 => .tsupixMatmul (bfld v 24 8) (bfld v 16 8) (bfld v 8 8)
  | 0x12 => .tsupixNeg (bfld v 16 8) (bfld v 8 8)
  | 0x13 => .tsupixLt (bfld v 24 8) (bfld v 16 8) (bfld v 8 8)
  | 0x14 => .tsupixLe (bfld v 24 8) (bfld v 16 8) (bfld v 8 8)
  | 0x15 => .tsupixEq (bfld v 24 8) (bfld v 16 8) (bfld v 8 8)
  | 0x16 => .tsupixNot (bfld v 16 8) (bfld v 8 8)
  | 0x17 => .tsupixJmp (bfld v 8 24)
  | 0x18 => .tsupixJmpif (bfld v 16 16) (bfld v 8 8)
  | 0x19 => .tsupixJmpifnot (bfld v 16 16) (bfld v 8 8)
  | 0x1A => .tsupixForiter (bfld v 16 16) (bfld v 8 8)
  | 0x1B => .tsupixCall (bfld v 8 8) (bfld v 16 8) (bfld v 24 8) (bfld v 32 16)
  | 0x1C => .tsupixTcall (bfld v 8 8) (bfld v 16 8) (bfld v 24 8) (bfld v 32 16)
  | 0x1D => .tsupixReturn (bfld v 8 8)
  | 0x1E => .tsupixNewtuple (bfld v 24 8) (bfld v 16 8) (bfld v 8 8)
  | 0x1F => .tsupixNewlist (bfld v 24 8) (bfld v 16 8) (bfld v 8 8)
  | 0x20 => .tsupixNewdict (bfld v 8 8)
  | 0x21 => .tsupixNewobj (bfld v 8 8) (bfld v 16 8) (bfld v 24 8) (bfld v 32 16)
  | 0x22 => .tsupixTsync (bfld v 8 8)
  | 0x23 => .tsupixRaise (bfld v 8 8)
  | 0x24 => .tsupixTry (bfld v 8 24)
  | 0x25 => .tsupixPoptry
  | 0x26 => .tsupixNative (bfld v 16 16) (bfld v 8 8)
  | _ => .tsupixUnassignedOpcode (bfld v 0 8)

/-- A field placed with its lowest bit at `lo` (R84). -/
def place {n : Nat} (x : BitVec n) (lo : Nat) : Nat := x.toNat * 2 ^ lo

/-- The 32-bit word of fixed bits `base` with the given fields placed in it. -/
def word32 (base : Nat) (fields : List Nat) : Option (Nat × Nat) := some (32, base + fields.sum)

/-- The encoding of an instruction: how many bits it has and their value, the first word's bit 0 lowest, of FUTURE's many words the
first; none for a step of the part that is no encoding, and for CODEWIN, which is no word (R83, R84, R324). -/
def encode : Instr → Option (Nat × Nat)
  | .fwcallUnknown n => some (32, 0x00C00000 + n.toNat)
  | .trap i => word32 0x00200000 [place i 0]
  | .nop h => word32 0xE0000000 [place h 0]
  | .long h => word32 0xFC000000 [place h 0]
  | .rep c d a b => word32 0xF8000000 [place c 20, place d 17, place a 14, place b 11]
  | .add d a b => word32 0x04000000 [place d 21, place a 16, place b 11]
  | .sub d a b => word32 0x04000001 [place d 21, place a 16, place b 11]
  | .and d a b => word32 0x04000002 [place d 21, place a 16, place b 11]
  | .or d a b => word32 0x04000003 [place d 21, place a 16, place b 11]
  | .xor d a b => word32 0x04000004 [place d 21, place a 16, place b 11]
  | .andn d a b => word32 0x04000005 [place d 21, place a 16, place b 11]
  | .orn d a b => word32 0x04000006 [place d 21, place a 16, place b 11]
  | .sll d a b => word32 0x04000008 [place d 21, place a 16, place b 11]
  | .srl d a b => word32 0x04000009 [place d 21, place a 16, place b 11]
  | .sra d a b => word32 0x0400000A [place d 21, place a 16, place b 11]
  | .rol d a b => word32 0x0400000B [place d 21, place a 16, place b 11]
  | .slt d a b => word32 0x04000010 [place d 21, place a 16, place b 11]
  | .sltu d a b => word32 0x04000011 [place d 21, place a 16, place b 11]
  | .min d a b => word32 0x04000012 [place d 21, place a 16, place b 11]
  | .max d a b => word32 0x04000013 [place d 21, place a 16, place b 11]
  | .minu d a b => word32 0x04000014 [place d 21, place a 16, place b 11]
  | .maxu d a b => word32 0x04000015 [place d 21, place a 16, place b 11]
  | .lea d a b s => word32 0x04000018 [place d 21, place a 16, place b 11, place s 0]
  | .clz d a => word32 0x04000020 [place d 21, place a 16]
  | .ctz d a => word32 0x04000021 [place d 21, place a 16]
  | .popc d a => word32 0x04000022 [place d 21, place a 16]
  | .bswap d a => word32 0x04000023 [place d 21, place a 16]
  | .sextB d a => word32 0x04000024 [place d 21, place a 16]
  | .sextH d a => word32 0x04000025 [place d 21, place a 16]
  | .sextW d a => word32 0x04000026 [place d 21, place a 16]
  | .zextW d a => word32 0x04000027 [place d 21, place a 16]
  | .addi d a i => word32 0x08000000 [place d 21, place a 16, place i 0]
  | .andi d a i => word32 0x0C000000 [place d 21, place a 16, place i 0]
  | .ori d a i => word32 0x10000000 [place d 21, place a 16, place i 0]
  | .xori d a i => word32 0x14000000 [place d 21, place a 16, place i 0]
  | .slti d a i => word32 0x18000000 [place d 21, place a 16, place i 0]
  | .sltiu d a i => word32 0x1C000000 [place d 21, place a 16, place i 0]
  | .lih d a i => word32 0x20000000 [place d 21, place a 16, place i 0]
  | .slli d a h => word32 0x24000000 [place d 21, place a 16, place h 0]
  | .srli d a h => word32 0x24000100 [place d 21, place a 16, place h 0]
  | .srai d a h => word32 0x24000200 [place d 21, place a 16, place h 0]
  | .roli d a h => word32 0x24000300 [place d 21, place a 16, place h 0]
  | .mul d a b => word32 0x28000000 [place d 21, place a 16, place b 11]
  | .mulh d a b => word32 0x28000001 [place d 21, place a 16, place b 11]
  | .mulhu d a b => word32 0x28000002 [place d 21, place a 16, place b 11]
  | .mulhsu d a b => word32 0x28000003 [place d 21, place a 16, place b 11]
  | .div d a b => word32 0x28000004 [place d 21, place a 16, place b 11]
  | .divu d a b => word32 0x28000005 [place d 21, place a 16, place b 11]
  | .rem d a b => word32 0x28000006 [place d 21, place a 16, place b 11]
  | .remu d a b => word32 0x28000007 [place d 21, place a 16, place b 11]
  | .bEq a b i => word32 0x2C000000 [place a 21, place b 16, place i 0]
  | .bNe a b i => word32 0x2C001000 [place a 21, place b 16, place i 0]
  | .bLt a b i => word32 0x2C002000 [place a 21, place b 16, place i 0]
  | .bGe a b i => word32 0x2C003000 [place a 21, place b 16, place i 0]
  | .bLtu a b i => word32 0x2C004000 [place a 21, place b 16, place i 0]
  | .bGeu a b i => word32 0x2C005000 [place a 21, place b 16, place i 0]
  | .bKany a b i => word32 0x2C008000 [place a 21, place b 16, place i 0]
  | .bKall a b i => word32 0x2C009000 [place a 21, place b 16, place i 0]
  | .bKnone a b i => word32 0x2C00A000 [place a 21, place b 16, place i 0]
  | .j i => word32 0x34000000 [place i 0]
  | .jl i => word32 0x38000000 [place i 0]
  | .jr a => word32 0x3C000000 [place a 16]
  | .jlr d a => word32 0x3C000001 [place d 21, place a 16]
  | .ld d a s i => word32 0x40000000 [place d 21, place a 16, place s 13, place i 0]
  | .st d a s i => word32 0x44000000 [place d 21, place a 16, place s 13, place i 0]
  | .ldx d a b s => word32 0x48000000 [place d 21, place a 16, place b 11, place s 0]
  | .stx d a b s => word32 0x48000040 [place d 21, place a 16, place b 11, place s 0]
  | .ldAcq d a s => word32 0x48000080 [place d 21, place a 16, place s 0]
  | .stRel d a s => word32 0x480000C0 [place d 21, place a 16, place s 0]
  | .raddr d a b => word32 0x48000100 [place d 21, place a 16, place b 11]
  | .amoAdd d a b o w => word32 0x4C000000 [place d 21, place a 16, place b 11, place o 5, place w 4]
  | .amoSwap d a b o w => word32 0x4C000080 [place d 21, place a 16, place b 11, place o 5, place w 4]
  | .amoCas d a b o w => word32 0x4C000100 [place d 21, place a 16, place b 11, place o 5, place w 4]
  | .amoMin d a b o w => word32 0x4C000180 [place d 21, place a 16, place b 11, place o 5, place w 4]
  | .amoMax d a b o w => word32 0x4C000200 [place d 21, place a 16, place b 11, place o 5, place w 4]
  | .amoMinu d a b o w => word32 0x4C000280 [place d 21, place a 16, place b 11, place o 5, place w 4]
  | .amoMaxu d a b o w => word32 0x4C000300 [place d 21, place a 16, place b 11, place o 5, place w 4]
  | .amoAnd d a b o w => word32 0x4C000380 [place d 21, place a 16, place b 11, place o 5, place w 4]
  | .amoOr d a b o w => word32 0x4C000400 [place d 21, place a 16, place b 11, place o 5, place w 4]
  | .amoXor d a b o w => word32 0x4C000480 [place d 21, place a 16, place b 11, place o 5, place w 4]
  | .fenceIssue t k => word32 0x50000000 [place t 6, place k 0]
  | .fenceWait t => word32 0x50000100 [place t 6]
  | .fenceTest d t => word32 0x50000200 [place d 21, place t 6]
  | .mtxLock b => word32 0x54000000 [place b 11]
  | .mtxTry d b => word32 0x54000100 [place d 21, place b 11]
  | .mtxUnlock b => word32 0x54000200 [place b 11]
  | .semP b => word32 0x54000300 [place b 11]
  | .semV b => word32 0x54000400 [place b 11]
  | .semTry d b => word32 0x54000500 [place d 21, place b 11]
  | .semRd d b => word32 0x54000600 [place d 21, place b 11]
  | .beadStart d a b => word32 0x58000000 [place d 21, place a 16, place b 11]
  | .beadWait a => word32 0x58000002 [place a 16]
  | .beadLive d => word32 0x58000003 [place d 21]
  | .srr d n => word32 0x5C000000 [place d 21, place n 0]
  | .srw d a n => word32 0x5C004000 [place d 21, place a 16, place n 0]
  | .srs d a n => word32 0x5C008000 [place d 21, place a 16, place n 0]
  | .src d a n => word32 0x5C00C000 [place d 21, place a 16, place n 0]
  | .fadd d a b y m t => word32 0x60000000 [place d 21, place a 16, place b 11, place y 10, place m 7, place t 6]
  | .fsub d a b y m t => word32 0x60000001 [place d 21, place a 16, place b 11, place y 10, place m 7, place t 6]
  | .fmul d a b y m t => word32 0x60000002 [place d 21, place a 16, place b 11, place y 10, place m 7, place t 6]
  | .fdiv d a b y m t => word32 0x60000003 [place d 21, place a 16, place b 11, place y 10, place m 7, place t 6]
  | .fsqrt d a y m t => word32 0x60000004 [place d 21, place a 16, place y 10, place m 7, place t 6]
  | .fmadd d a b y m t => word32 0x60000005 [place d 21, place a 16, place b 11, place y 10, place m 7, place t 6]
  | .fmin d a b t => word32 0x60000008 [place d 21, place a 16, place b 11, place t 6]
  | .fmax d a b t => word32 0x60000009 [place d 21, place a 16, place b 11, place t 6]
  | .fneg d a t => word32 0x6000000A [place d 21, place a 16, place t 6]
  | .fabs d a t => word32 0x6000000B [place d 21, place a 16, place t 6]
  | .feq d a b t => word32 0x60000010 [place d 21, place a 16, place b 11, place t 6]
  | .flt d a b t => word32 0x60000011 [place d 21, place a 16, place b 11, place t 6]
  | .fle d a b t => word32 0x60000012 [place d 21, place a 16, place b 11, place t 6]
  | .fclass d a t => word32 0x60000013 [place d 21, place a 16, place t 6]
  | .cvt d a g s m f y => word32 0x64000000 [place d 21, place a 16, place g 12, place s 11, place m 8, place f 4, place y 3]
  | .vadd d a b k z w => word32 0x68000000 [place d 21, place a 16, place b 11, place k 8, place z 7, place w 5]
  | .vsub d a b k z w => word32 0x68000001 [place d 21, place a 16, place b 11, place k 8, place z 7, place w 5]
  | .vmul d a b k z w => word32 0x68000002 [place d 21, place a 16, place b 11, place k 8, place z 7, place w 5]
  | .vmulh d a b k z w => word32 0x68000003 [place d 21, place a 16, place b 11, place k 8, place z 7, place w 5]
  | .vand d a b k z w => word32 0x68000004 [place d 21, place a 16, place b 11, place k 8, place z 7, place w 5]
  | .vor d a b k z w => word32 0x68000005 [place d 21, place a 16, place b 11, place k 8, place z 7, place w 5]
  | .vxor d a b k z w => word32 0x68000006 [place d 21, place a 16, place b 11, place k 8, place z 7, place w 5]
  | .vsll d a b k z w => word32 0x68000007 [place d 21, place a 16, place b 11, place k 8, place z 7, place w 5]
  | .vsrl d a b k z w => word32 0x68000008 [place d 21, place a 16, place b 11, place k 8, place z 7, place w 5]
  | .vsra d a b k z w => word32 0x68000009 [place d 21, place a 16, place b 11, place k 8, place z 7, place w 5]
  | .vmin d a b k z w => word32 0x6800000A [place d 21, place a 16, place b 11, place k 8, place z 7, place w 5]
  | .vmax d a b k z w => word32 0x6800000B [place d 21, place a 16, place b 11, place k 8, place z 7, place w 5]
  | .vminu d a b k z w => word32 0x6800000C [place d 21, place a 16, place b 11, place k 8, place z 7, place w 5]
  | .vmaxu d a b k z w => word32 0x6800000D [place d 21, place a 16, place b 11, place k 8, place z 7, place w 5]
  | .vabs d a k z w => word32 0x6800000E [place d 21, place a 16, place k 8, place z 7, place w 5]
  | .vmerge d a b k w => word32 0x6800000F [place d 21, place a 16, place b 11, place k 8, place w 5]
  | .vcmpEq d a b k z w => word32 0x68000010 [place d 21, place a 16, place b 11, place k 8, place z 7, place w 5]
  | .vcmpNe d a b k z w => word32 0x68000011 [place d 21, place a 16, place b 11, place k 8, place z 7, place w 5]
  | .vcmpLt d a b k z w => word32 0x68000012 [place d 21, place a 16, place b 11, place k 8, place z 7, place w 5]
  | .vcmpLtu d a b k z w => word32 0x68000013 [place d 21, place a 16, place b 11, place k 8, place z 7, place w 5]
  | .vcmpLe d a b k z w => word32 0x68000014 [place d 21, place a 16, place b 11, place k 8, place z 7, place w 5]
  | .vcmpLeu d a b k z w => word32 0x68000015 [place d 21, place a 16, place b 11, place k 8, place z 7, place w 5]
  | .vfadd d a b k z t r => word32 0x6C000000 [place d 21, place a 16, place b 11, place k 8, place z 7, place t 5, place r 0]
  | .vfsub d a b k z t r => word32 0x6C000004 [place d 21, place a 16, place b 11, place k 8, place z 7, place t 5, place r 0]
  | .vfmul d a b k z t r => word32 0x6C000008 [place d 21, place a 16, place b 11, place k 8, place z 7, place t 5, place r 0]
  | .vfma d a b k z t r => word32 0x6C00000C [place d 21, place a 16, place b 11, place k 8, place z 7, place t 5, place r 0]
  | .vfdiv d a b k z t r => word32 0x6C000010 [place d 21, place a 16, place b 11, place k 8, place z 7, place t 5, place r 0]
  | .vfsqrt d a k z t r => word32 0x6C000014 [place d 21, place a 16, place k 8, place z 7, place t 5, place r 0]
  | .vfmin d a b k z t => word32 0x6C000018 [place d 21, place a 16, place b 11, place k 8, place z 7, place t 5]
  | .vfmax d a b k z t => word32 0x6C000019 [place d 21, place a 16, place b 11, place k 8, place z 7, place t 5]
  | .vfneg d a k z t => word32 0x6C00001A [place d 21, place a 16, place k 8, place z 7, place t 5]
  | .vfabs d a k z t => word32 0x6C00001B [place d 21, place a 16, place k 8, place z 7, place t 5]
  | .vfcmpEq d a b k z t => word32 0x6C00001C [place d 21, place a 16, place b 11, place k 8, place z 7, place t 5]
  | .vfcmpLt d a b k z t => word32 0x6C00001D [place d 21, place a 16, place b 11, place k 8, place z 7, place t 5]
  | .vfcmpLe d a b k z t => word32 0x6C00001E [place d 21, place a 16, place b 11, place k 8, place z 7, place t 5]
  | .vfcmpUn d a b k z t => word32 0x6C00001F [place d 21, place a 16, place b 11, place k 8, place z 7, place t 5]
  | .vld d a k z w => word32 0x70000000 [place d 21, place a 16, place k 8, place z 7, place w 5]
  | .vst d a k w => word32 0x70000001 [place d 21, place a 16, place k 8, place w 5]
  | .vlds d a b k z w => word32 0x70000002 [place d 21, place a 16, place b 11, place k 8, place z 7, place w 5]
  | .vsts d a b k w => word32 0x70000003 [place d 21, place a 16, place b 11, place k 8, place w 5]
  | .vldx d a b k z w => word32 0x70000004 [place d 21, place a 16, place b 11, place k 8, place z 7, place w 5]
  | .vstx d a b k w => word32 0x70000005 [place d 21, place a 16, place b 11, place k 8, place w 5]
  | .vldb d a k z w => word32 0x70000006 [place d 21, place a 16, place k 8, place z 7, place w 5]
  | .vperm d a b k z w => word32 0x74000000 [place d 21, place a 16, place b 11, place k 8, place z 7, place w 5]
  | .vslide d a b k z w => word32 0x74000001 [place d 21, place a 16, place b 11, place k 8, place z 7, place w 5]
  | .vbcast d a k z w => word32 0x74000002 [place d 21, place a 16, place k 8, place z 7, place w 5]
  | .vext d a b w => word32 0x74000003 [place d 21, place a 16, place b 11, place w 5]
  | .vins d a b w => word32 0x74000004 [place d 21, place a 16, place b 11, place w 5]
  | .vidx d k z w => word32 0x74000005 [place d 21, place k 8, place z 7, place w 5]
  | .vredAdd d a k w => word32 0x74000006 [place d 21, place a 16, place k 8, place w 5]
  | .vredMin d a k w => word32 0x74000007 [place d 21, place a 16, place k 8, place w 5]
  | .vredMax d a k w => word32 0x74000008 [place d 21, place a 16, place k 8, place w 5]
  | .vscanAdd d a k z w => word32 0x74000009 [place d 21, place a 16, place k 8, place z 7, place w 5]
  | .vredFadd d a k t => word32 0x74000010 [place d 21, place a 16, place k 8, place t 5]
  | .vredFmin d a k t => word32 0x74000011 [place d 21, place a 16, place k 8, place t 5]
  | .vredFmax d a k t => word32 0x74000012 [place d 21, place a 16, place k 8, place t 5]
  | .vscanFadd d a k z t => word32 0x74000013 [place d 21, place a 16, place k 8, place z 7, place t 5]
  | .kand d a b => word32 0x78000000 [place d 21, place a 16, place b 11]
  | .kor d a b => word32 0x78000001 [place d 21, place a 16, place b 11]
  | .kxor d a b => word32 0x78000002 [place d 21, place a 16, place b 11]
  | .knot d a => word32 0x78000003 [place d 21, place a 16]
  | .kmov d a => word32 0x78000004 [place d 21, place a 16]
  | .kpopc d a => word32 0x78000005 [place d 21, place a 16]
  | .kfirst d a => word32 0x78000006 [place d 21, place a 16]
  | .kset d a => word32 0x78000007 [place d 21, place a 16]
  | .vcvt d a f t k z g m => word32 0x7C000000 [place d 21, place a 16, place f 12, place t 11, place k 8, place z 7, place g 3, place m 0]
  | .vpack d a b k z t w => word32 0x7C000068 [place d 21, place a 16, place b 11, place k 8, place z 7, place t 2, place w 0]
  | .vunpack d a h k z u w => word32 0x7C000070 [place d 21, place a 16, place h 11, place k 8, place z 7, place u 2, place w 0]
  | .mmLoadw a b t => word32 0x80000000 [place a 16, place b 11, place t 3]
  | .mmStream a b t => word32 0x80000001 [place a 16, place b 11, place t 3]
  | .mmDrain a b t => word32 0x80000002 [place a 16, place b 11, place t 3]
  | .mmZero a => word32 0x80000003 [place a 16]
  | .mmRdrow d a => word32 0x80000013 [place d 21, place a 16]
  | .mmSeq a => word32 0x84000000 [place a 16]
  | .bzLocate d => word32 0x88000000 [place d 21]
  | .bzFix d a => word32 0x88000001 [place d 21, place a 16]
  | .bzRetry d => word32 0x88000002 [place d 21]
  | .bzClear a => word32 0x88000003 [place a 16]
  | .bzInject a b => word32 0x88000004 [place a 16, place b 11]
  | .bzStat d a => word32 0x88000005 [place d 21, place a 16]
  | .ttLoad a t => word32 0x8C000000 [place a 16, place t 3]
  | .ttSlice t => word32 0x8C000001 [place t 3]
  | .ttRd d n t => word32 0x8C000002 [place d 21, place n 11, place t 3]
  | .ttInval t => word32 0x8C000003 [place t 3]
  | .cpyPush a => word32 0x90000000 [place a 16]
  | .cpyTry d a => word32 0x90000001 [place d 21, place a 16]
  | .cpyQuiesce a => word32 0x90000002 [place a 16]
  | .msgSend a b => word32 0x94000000 [place a 16, place b 11]
  | .msgSendRel a b => word32 0x94000001 [place a 16, place b 11]
  | .msgMcast a b => word32 0x94000002 [place a 16, place b 11]
  | .msgMcastRel a b => word32 0x94000003 [place a 16, place b 11]
  | .mboxPop d => word32 0x98000001 [place d 21]
  | .mboxCnt d => word32 0x98000002 [place d 21]
  | .tagLook d a b => word32 0x9C000000 [place d 21, place a 16, place b 11]
  | .tagSet a b => word32 0x9C000001 [place a 16, place b 11]
  | .tagClr d a => word32 0x9C000002 [place d 21, place a 16]
  | .tagFlush d a => word32 0x9C000003 [place d 21, place a 16]
  | .qPush d a b => word32 0xA0000000 [place d 21, place a 16, place b 11]
  | .qTry d a b => word32 0xA0000001 [place d 21, place a 16, place b 11]
  | .qDeq d a b => word32 0xA0000002 [place d 21, place a 16, place b 11]
  | .qTdeq d a b => word32 0xA0000003 [place d 21, place a 16, place b 11]
  | .qStat d b => word32 0xA0000004 [place d 21, place b 11]
  | .qReset a b => word32 0xA0000005 [place a 16, place b 11]
  | .taskNext d a => word32 0xA4000000 [place d 21, place a 16]
  | .taskDone a => word32 0xA4000001 [place a 16]
  | .taskFail a b => word32 0xA4000002 [place a 16, place b 11]
  | .taskRearm a => word32 0xA4000003 [place a 16]
  | .taskSpawn a b => word32 0xA4000004 [place a 16, place b 11]
  | .gangLaunch d a => word32 0xA4000005 [place d 21, place a 16]
  | .cnPut a b p => word32 0xA8000000 [place a 16, place b 11, place p 5]
  | .cnTake d p => word32 0xA8000001 [place d 21, place p 5]
  | .cnTtake d p => word32 0xA8000002 [place d 21, place p 5]
  | .cnStat d b p => word32 0xA8000003 [place d 21, place b 11, place p 5]
  | .cnOpen a p => word32 0xA8000004 [place a 16, place p 5]
  | .cnClose p => word32 0xA8000005 [place p 5]
  | .barArrive d b => word32 0xAC000000 [place d 21, place b 11]
  | .barWait a b => word32 0xAC000100 [place a 16, place b 11]
  | .barTest d a b => word32 0xAC000200 [place d 21, place a 16, place b 11]
  | .barCfg a b => word32 0xAC000300 [place a 16, place b 11]
  | .txEnter a b => word32 0xB0000000 [place a 16, place b 11]
  | .txResume a => word32 0xB0000001 [place a 16]
  | .txResumeSkip a => word32 0xB0000002 [place a 16]
  | .icGet d a => word32 0xB0000003 [place d 21, place a 16]
  | .icSet a b => word32 0xB0000004 [place a 16, place b 11]
  | .icClr a => word32 0xB0000005 [place a 16]
  | .holdAdd d a b => word32 0xB0000006 [place d 21, place a 16, place b 11]
  | .txRelq d => word32 0xB0000007 [place d 21]
  | .txRelqRel a => word32 0xB0000008 [place a 16]
  | .txRelqStat d => word32 0xB0000009 [place d 21]
  | .txRelqCfg a => word32 0xB000000A [place a 16]
  | .txClsver d a => word32 0xB000000B [place d 21, place a 16]
  | .tsupixMove b a => word32 0x00000001 [place b 16, place a 8]
  | .tsupixLoadk k a => word32 0x00000002 [place k 16, place a 8]
  | .tsupixLoadi k a => word32 0x00000003 [place k 16, place a 8]
  | .tsupixDrop a => word32 0x00000004 [place a 8]
  | .tsupixGetglobal a x y i => some (48, 0x05 + [place a 8, place x 16, place y 24, place i 32].sum)
  | .tsupixSetglobal a x y i => some (48, 0x06 + [place a 8, place x 16, place y 24, place i 32].sum)
  | .tsupixGetattr a x y i => some (48, 0x07 + [place a 8, place x 16, place y 24, place i 32].sum)
  | .tsupixSetattr a x y i => some (48, 0x08 + [place a 8, place x 16, place y 24, place i 32].sum)
  | .tsupixGetitem a x y i => some (48, 0x09 + [place a 8, place x 16, place y 24, place i 32].sum)
  | .tsupixSetitem a x y i => some (48, 0x0A + [place a 8, place x 16, place y 24, place i 32].sum)
  | .tsupixAdd c b a => word32 0x0000000B [place c 24, place b 16, place a 8]
  | .tsupixSub c b a => word32 0x0000000C [place c 24, place b 16, place a 8]
  | .tsupixMul c b a => word32 0x0000000D [place c 24, place b 16, place a 8]
  | .tsupixTruediv c b a => word32 0x0000000E [place c 24, place b 16, place a 8]
  | .tsupixFloordiv c b a => word32 0x0000000F [place c 24, place b 16, place a 8]
  | .tsupixMod c b a => word32 0x00000010 [place c 24, place b 16, place a 8]
  | .tsupixMatmul c b a => word32 0x00000011 [place c 24, place b 16, place a 8]
  | .tsupixNeg b a => word32 0x00000012 [place b 16, place a 8]
  | .tsupixLt c b a => word32 0x00000013 [place c 24, place b 16, place a 8]
  | .tsupixLe c b a => word32 0x00000014 [place c 24, place b 16, place a 8]
  | .tsupixEq c b a => word32 0x00000015 [place c 24, place b 16, place a 8]
  | .tsupixNot b a => word32 0x00000016 [place b 16, place a 8]
  | .tsupixJmp j => word32 0x00000017 [place j 8]
  | .tsupixJmpif k a => word32 0x00000018 [place k 16, place a 8]
  | .tsupixJmpifnot k a => word32 0x00000019 [place k 16, place a 8]
  | .tsupixForiter k a => word32 0x0000001A [place k 16, place a 8]
  | .tsupixCall a x y i => some (48, 0x1B + [place a 8, place x 16, place y 24, place i 32].sum)
  | .tsupixTcall a x y i => some (48, 0x1C + [place a 8, place x 16, place y 24, place i 32].sum)
  | .tsupixReturn a => word32 0x0000001D [place a 8]
  | .tsupixNewtuple c b a => word32 0x0000001E [place c 24, place b 16, place a 8]
  | .tsupixNewlist c b a => word32 0x0000001F [place c 24, place b 16, place a 8]
  | .tsupixNewdict a => word32 0x00000020 [place a 8]
  | .tsupixNewobj a x y i => some (48, 0x21 + [place a 8, place x 16, place y 24, place i 32].sum)
  | .tsupixTsync a => word32 0x00000022 [place a 8]
  | .tsupixRaise a => word32 0x00000023 [place a 8]
  | .tsupixTry j => word32 0x00000024 [place j 8]
  | .tsupixNative k a => word32 0x00000026 [place k 16, place a 8]
  | .lateFault _ => none
  | .userInterruptDelivery _ => none
  | .parkWake _ => none
  | .busyEnd _ => none
  | .remoteValueReturn _ => none
  | .homeAccess _ _ => none
  | .heartbeatMiss _ _ => none
  | .hbmiss _ _ => none
  | .preemption _ => none
  | .matrixEntryStart _ => none
  | .barrierPhaseComplete _ _ => none
  | .copy _ _ => none
  | .gather _ _ => none
  | .scatter _ _ => none
  | .fill _ _ => none
  | .mcast _ _ => none
  | .qfence _ _ => none
  | .reduceAdd _ _ => none
  | .port _ _ _ => none
  | .tlbinv _ _ => none
  | .completion _ _ => none
  | .semaphoreV _ _ => none
  | .messageDelivery _ => none
  | .holdrel _ => none
  | .tresume _ => none
  | .translationWalk _ => none
  | .launchCheck _ _ => none
  | .gangBind _ _ _ _ _ => none
  | .gangEnd _ => none
  | .dispatchMessage _ => none
  | .quantumStart _ => none
  | .taskDecrement _ => none
  | .roundBoundary _ => none
  | .cairnSteal _ => none
  | .kernelCrash _ => none
  | .liveUpdate _ _ => none
  | .signetAlarm _ _ => none
  | .coldStart _ _ => none
  | .clockStep _ => none
  | .rtail _ => none
  | .rfix _ => none
  | .registerWrite _ _ => none
  | .bar2Access _ _ _ => none
  | .packetReceive _ _ => none
  | .lsGapTimeout _ _ => none
  | .linkFailure _ _ => none
  | .routingEntryWrite _ _ _ => none
  | .keyEntryWrite _ _ _ _ => none
  | .domainTableWrite _ _ => none
  | .codewin _ => none
  | .tsupixUnassignedOpcode op => some (32, op.toNat)
  | .mboxinUnknownCommand _ => none
  | .crcBurst _ _ => none
  | .portRecovery _ => none
  | .runoff => word32 0x00000000 []
  | .kret => word32 0x00400000 []
  | .uiret => word32 0x00600000 []
  | .halt => word32 0x00800000 []
  | .wfi => word32 0x00A00000 []
  | .fwcallFirmwareLevel => word32 0x00C00000 []
  | .fwcallRegionTeardown => word32 0x00C00001 []
  | .fwcallFaultDomainTeardown => word32 0x00C00002 []
  | .fwcallPanic => word32 0x00C00010 []
  | .fwcallThaw => word32 0x00C00011 []
  | .fwcallRegisterNoticeContext => word32 0x00C00020 []
  | .fwcallSetReceiveWindow => word32 0x00C00030 []
  | .fwcallReadDomainEntry => word32 0x00C00040 []
  | .future => word32 0xC0000000 []
  | .beadEnd => word32 0x58000001 []
  | .hbeat => word32 0x58000004 []
  | .mmSwap => word32 0x8000000B []
  | .mmWait => word32 0x8000001B []
  | .mmSave => word32 0x80000023 []
  | .mmRest => word32 0x8000002B []
  | .mmSync => word32 0x80000033 []
  | .mboxWait => word32 0x98000000 []
  | .gangExit => word32 0xA4000006 []
  | .tsupixNop => word32 0x00000000 []
  | .tsupixPoptry => word32 0x00000025 []
  | .freeze => none
  | .thaw => none
  | .faultRecordReoffer => none
  | .takeover => none
  | .levels => none
  | .status => none
  | .alarmlog => none
  | .crash => none
  | .dibread => none
  | .mboxoutRead => none
  | .kernelCrashNotice => none
  | .signetAlarmNotice => none
  | .mapfail => none
  | .bringUpComplete => none
  | .frozenNotice => none
  | .ringHostToDevice => none
  | .ringDeviceToHost => none
  | .ringMessage => none
  | .illegal => none
  | .warmReboot => none

/-- The instruction that the decoder reads from an instruction whose bits are w: 32 bits are a Lanivo word, or where
Lanivo assigns the word nothing, a bytecode instruction of 4 bytes (R316: one fetch unit serves both); 48 bits are a
bytecode instruction of 6 bytes. -/
noncomputable def decodeTableWord (nbits w : Nat) : Option Instr :=
  if nbits = 32 then
    match decode (BitVec.ofNat 32 w) with
    | .illegal => some (decodeBytecode (BitVec.ofNat 48 w))
    | i => some i
  else if nbits = 48 then some (decodeBytecode (BitVec.ofNat 48 w))
  else none

end Sys2Proof
end

