-- ==== Sys2Proof/Machine/Fetch.lean ====
section
/-! DEFINITION. Fetching an instruction word (R36, R83, R166, R360). -/

namespace Sys2Proof.Machine

/-- What a fetch of one word finds; `waits` where it is not made yet. -/
inductive Fetched where
  | word (w : Insn)
  | fault (code : Nat)
  | waits
deriving DecidableEq, Repr

/-- May a facet context fetch at this pc: within cwin at user privilege, within the kernel reserve at kernel privilege
(R166)? -/
def Ctx.mayFetch (c : Ctx) (pc : Word) : Bool :=
  if c.kernel then 0x3C_0000 ≤ pc.toNat && pc.toNat < 0x40_0000
  else bits c.cwin 21 0 ≤ pc.toNat && pc.toNat < bits c.cwin 53 32

/-- A fetch of a word from another device: a packet of load-store traffic, behind the earlier traffic of its core for that device
(R10, R36, R63). -/
def State.fetchFar (s : State) (sp : Byte) (va : Word) : State × Fetched :=
  if s.homeBusy s.cur (Target.device sp va).home then (s.park .order, .waits)
  else match s.askDevice sp va .read 4 [] with
    | (s, .ok v) => (s, .word (BitVec.ofNat 32 v))
    | (s, .error code) => (s, .fault code)

/-- Fetch a word for the crest context in issue: only from paged addresses, through the page tables, with the space byte of spc
(R36, R315, R360). -/
def State.crestFetch (s : State) (va : Word) : State × Fetched :=
  if isPaged va.toNat then
    match s.check s.cur s.c.spc va 4 3 s.c.kernel with
    | .ok (.loc l) => (s, .word (BitVec.ofNat 32 (s.mem.read l 4)))
    | .ok (.device sp at_) => s.fetchFar sp at_
    | .fault code _ => (s, .fault code)
    | .miss => (s, .fault Code.xlate)
    | .signet => (s, .fault Code.prot)
  else (s, .fault Code.prot)

/-- A crest fetch of the Signet's window raises the alarm (R368). -/
def State.fetchAlarm (s : State) (va : Word) : State :=
  match s.cur with
  | .facet _ _ _ => s
  | .crest _ _ =>
    match s.check s.cur s.c.spc va 4 3 s.c.kernel with
    | .signet => if isPaged va.toNat then s.raiseAlarm .window (alarmAgent s.cur) else s
    | _ => s

/-- Fetch the word at a pc for the context in issue. -/
def State.fetch (s : State) (pc : Word) : State × Fetched :=
  match s.cur with
  | .facet t _ _ =>
    if s.c.mayFetch pc then (s, .word (BitVec.ofNat 32 (s.mem.read (lmLoc t.val pc.toNat) 4))) else (s, .fault Code.codewin)
  | .crest _ _ => s.crestFetch pc

end Sys2Proof.Machine
end

