-- ==== Sys2Proof/Machine/Vector.lean ====
section
/-! DEFINITION. The vector unit and masks: majors 0x1A to 0x1F (R137 to R155). -/

namespace Sys2Proof.Machine

/-! ### Integer lanes (R140) -/

/-- Write vector register d of elements of `width` bits under a mask, then retire (R138). -/
def Ctx.writeLanes (c : Ctx) (d : BitVec 5) (width : Nat) (act : List Bool) (z : BitVec 1) (new : List Nat) : Ctx :=
  c.setV d (packVec width (mergeLanes act (z = 1) (lanesOf (c.getV d) width) new))

/-- A lane operation of two vector registers. -/
def vv (f : Nat → Nat → Nat → Nat) (d a b : BitVec 5) (k : BitVec 3) (z : BitVec 1) (w : BitVec 2) (s : State) : State :=
  s.needFeature 2 fun s => s.mod fun c =>
    let n := widthBits w
    let new := ((lanesOf (c.getV a) n).zip (lanesOf (c.getV b) n)).map fun (x, y) => f n x y
    (c.writeLanes d n (activeLanes c k (512 / n)) z new).retire s.latch

/-- A comparison of lanes into a mask register; its field d above 7 traps ILLEGAL (R86, R140). fn bit 7 zeroes inactive mask bits
(DEDUCED, log entry 68). -/
def vcmp (f : Nat → Nat → Nat → Bool) (d a b : BitVec 5) (k : BitVec 3) (z : BitVec 1) (w : BitVec 2) (s : State) : State :=
  s.needFeature 2 fun s => s.needLimits (maskField d) fun s => s.mod fun c =>
    let n := widthBits w
    let new := ((lanesOf (c.getV a) n).zip (lanesOf (c.getV b) n)).map fun (x, y) => f n x y
    (c.setK (maskReg d) (packMask (activeLanes c k (512 / n)) (z = 1) (c.getK (maskReg d)) new)).retire s.latch

/-- The shift count: the low log2(n) bits of an n-bit lane. -/
def laneShift (n y : Nat) : Nat := y % n

/-- An arithmetic shift right of an n-bit lane. -/
def laneSra (n x c : Nat) : Nat := (BitVec.ofInt n (signedN x n / 2 ^ c)).toNat

/-- The high half of the signed product of n-bit lanes. -/
def laneMulh (n x y : Nat) : Nat := (BitVec.ofInt n (signedN x n * signedN y n / 2 ^ n)).toNat

/-- The smaller of two lanes, signed. -/
def laneMin (n x y : Nat) : Nat := if signedN y n < signedN x n then y else x

/-- The greater of two lanes, signed. -/
def laneMax (n x y : Nat) : Nat := if signedN x n < signedN y n then y else x

/-- vadd. -/
def execVadd (d a b : BitVec 5) (k : BitVec 3) (z : BitVec 1) (w : BitVec 2) (s : State) : Out :=
  .next (vv (fun _ x y => x + y) d a b k z w s)
/-- vsub. -/
def execVsub (d a b : BitVec 5) (k : BitVec 3) (z : BitVec 1) (w : BitVec 2) (s : State) : Out :=
  .next (vv (fun n x y => x + (2 ^ n - y)) d a b k z w s)
/-- vmul. -/
def execVmul (d a b : BitVec 5) (k : BitVec 3) (z : BitVec 1) (w : BitVec 2) (s : State) : Out :=
  .next (vv (fun _ x y => x * y) d a b k z w s)
/-- vmulh. -/
def execVmulh (d a b : BitVec 5) (k : BitVec 3) (z : BitVec 1) (w : BitVec 2) (s : State) : Out :=
  .next (vv laneMulh d a b k z w s)
/-- vand. -/
def execVand (d a b : BitVec 5) (k : BitVec 3) (z : BitVec 1) (w : BitVec 2) (s : State) : Out :=
  .next (vv (fun _ x y => x &&& y) d a b k z w s)
/-- vor. -/
def execVor (d a b : BitVec 5) (k : BitVec 3) (z : BitVec 1) (w : BitVec 2) (s : State) : Out :=
  .next (vv (fun _ x y => x ||| y) d a b k z w s)
/-- vxor. -/
def execVxor (d a b : BitVec 5) (k : BitVec 3) (z : BitVec 1) (w : BitVec 2) (s : State) : Out :=
  .next (vv (fun _ x y => x ^^^ y) d a b k z w s)
/-- vsll. -/
def execVsll (d a b : BitVec 5) (k : BitVec 3) (z : BitVec 1) (w : BitVec 2) (s : State) : Out :=
  .next (vv (fun n x y => x * 2 ^ laneShift n y) d a b k z w s)
/-- vsrl. -/
def execVsrl (d a b : BitVec 5) (k : BitVec 3) (z : BitVec 1) (w : BitVec 2) (s : State) : Out :=
  .next (vv (fun n x y => x / 2 ^ laneShift n y) d a b k z w s)
/-- vsra. -/
def execVsra (d a b : BitVec 5) (k : BitVec 3) (z : BitVec 1) (w : BitVec 2) (s : State) : Out :=
  .next (vv (fun n x y => laneSra n x (laneShift n y)) d a b k z w s)
/-- vmin. -/
def execVmin (d a b : BitVec 5) (k : BitVec 3) (z : BitVec 1) (w : BitVec 2) (s : State) : Out :=
  .next (vv laneMin d a b k z w s)
/-- vmax. -/
def execVmax (d a b : BitVec 5) (k : BitVec 3) (z : BitVec 1) (w : BitVec 2) (s : State) : Out :=
  .next (vv laneMax d a b k z w s)
/-- vminu. -/
def execVminu (d a b : BitVec 5) (k : BitVec 3) (z : BitVec 1) (w : BitVec 2) (s : State) : Out :=
  .next (vv (fun _ x y => Nat.min x y) d a b k z w s)
/-- vmaxu. -/
def execVmaxu (d a b : BitVec 5) (k : BitVec 3) (z : BitVec 1) (w : BitVec 2) (s : State) : Out :=
  .next (vv (fun _ x y => Nat.max x y) d a b k z w s)
/-- vabs: the smallest signed value is its own absolute value. -/
def execVabs (d a : BitVec 5) (k : BitVec 3) (z : BitVec 1) (w : BitVec 2) (s : State) : Out :=
  .next (vv (fun n x _ => (signedN x n).natAbs) d a a k z w s)
/-- vmerge: km selects between the sources and every lane is written. -/
def execVmerge (d a b : BitVec 5) (k : BitVec 3) (w : BitVec 2) (s : State) : Out :=
  .next (s.needFeature 2 fun s => s.mod fun c =>
    let n := widthBits w
    let new := mergeLanes (activeLanes c k (512 / n)) false (lanesOf (c.getV b) n) (lanesOf (c.getV a) n)
    (c.setV d (packVec n new)).retire s.latch)
/-- vcmp.eq. -/
def execVcmpEq (d a b : BitVec 5) (k : BitVec 3) (z : BitVec 1) (w : BitVec 2) (s : State) : Out :=
  .next (vcmp (fun _ x y => x = y) d a b k z w s)
/-- vcmp.ne. -/
def execVcmpNe (d a b : BitVec 5) (k : BitVec 3) (z : BitVec 1) (w : BitVec 2) (s : State) : Out :=
  .next (vcmp (fun _ x y => x ≠ y) d a b k z w s)
/-- vcmp.lt, signed. -/
def execVcmpLt (d a b : BitVec 5) (k : BitVec 3) (z : BitVec 1) (w : BitVec 2) (s : State) : Out :=
  .next (vcmp (fun n x y => signedN x n < signedN y n) d a b k z w s)
/-- vcmp.ltu. -/
def execVcmpLtu (d a b : BitVec 5) (k : BitVec 3) (z : BitVec 1) (w : BitVec 2) (s : State) : Out :=
  .next (vcmp (fun _ x y => x < y) d a b k z w s)
/-- vcmp.le, signed. -/
def execVcmpLe (d a b : BitVec 5) (k : BitVec 3) (z : BitVec 1) (w : BitVec 2) (s : State) : Out :=
  .next (vcmp (fun n x y => signedN x n ≤ signedN y n) d a b k z w s)
/-- vcmp.leu. -/
def execVcmpLeu (d a b : BitVec 5) (k : BitVec 3) (z : BitVec 1) (w : BitVec 2) (s : State) : Out :=
  .next (vcmp (fun _ x y => x ≤ y) d a b k z w s)

/-! ### Floating-point lanes (R141) -/

/-- Round the results of the active lanes in increasing order: an inactive lane raises no flag and draws nothing (R74,
R138, R139). -/
def roundLanes (fmt rm : Nat) (sat : Bool) : List Bool → List Exact → Word → List Nat × Flags × Word
  | a :: act, x :: xs, gen =>
    if a then
      let r := round fmt rm sat x.val gen
      let rest := roundLanes fmt rm sat act xs r.gen
      (r.code :: rest.1, x.flags ||| r.flags ||| rest.2.1, rest.2.2)
    else
      let rest := roundLanes fmt rm sat act xs gen
      (0 :: rest.1, rest.2)
  | _, _, gen => ([], 0, gen)

/-- The values of the lanes of a vector register read in a format. -/
def laneVals (v : Vec) (fmt : Nat) : List Val := (lanesOf v (fmtBits fmt)).map (decodeFmt fmt)

/-- A lane operation that rounds (R141): each lane's exact result from a, b and the old d. -/
def vfRound (f : Nat → Val → Val → Val → Exact) (cycles : BitVec 2 → Nat) (d a b : BitVec 5) (k : BitVec 3) (z : BitVec 1)
    (t r : BitVec 2) (s : State) : State :=
  s.needFeature 2 fun s =>
    let go := fun (c : Ctx) =>
      let fmt := vectorFmt t
      let rm := vectorMode c r
      let act := activeLanes c k (512 / fmtBits fmt)
      let xs := ((laneVals (c.getV a) fmt).zip ((laneVals (c.getV b) fmt).zip (laneVals (c.getV d) fmt))).map
        fun (x, y, w) => f rm x y w
      let res := roundLanes fmt rm false act xs c.srgen
      Ctx.retire s.latch { (c.writeLanes d (fmtBits fmt) act z res.1).raise res.2.1 with srgen := res.2.2 }
    if cycles t = 0 then s.mod go else s.busyFor (cycles t) none (some d) go

/-- vfdiv and vfsqrt keep a facet's context busy: 16 cycles .s, 8 .bf and .hf, 24 .d (R139). -/
def vectorCycles (t : BitVec 2) : Nat := if t = 0 then 16 else if t = 3 then 24 else 8

/-- vfadd. -/
def execVfadd (d a b : BitVec 5) (k : BitVec 3) (z : BitVec 1) (t r : BitVec 2) (s : State) : Out :=
  .next (vfRound (fun rm x y _ => sumExact rm [x, y]) (fun _ => 0) d a b k z t r s)
/-- vfsub. -/
def execVfsub (d a b : BitVec 5) (k : BitVec 3) (z : BitVec 1) (t r : BitVec 2) (s : State) : Out :=
  .next (vfRound (fun rm x y _ => sumExact rm [x, y.neg]) (fun _ => 0) d a b k z t r s)
/-- vfmul. -/
def execVfmul (d a b : BitVec 5) (k : BitVec 3) (z : BitVec 1) (t r : BitVec 2) (s : State) : Out :=
  .next (vfRound (fun _ x y _ => mulExact x y) (fun _ => 0) d a b k z t r s)
/-- vfma: a * b + d rounded once. -/
def execVfma (d a b : BitVec 5) (k : BitVec 3) (z : BitVec 1) (t r : BitVec 2) (s : State) : Out :=
  .next (vfRound (fun rm x y w => fmaExact rm x y w) (fun _ => 0) d a b k z t r s)
/-- vfdiv. -/
def execVfdiv (d a b : BitVec 5) (k : BitVec 3) (z : BitVec 1) (t r : BitVec 2) (s : State) : Out :=
  .next (vfRound (fun _ x y _ => divExact x y) vectorCycles d a b k z t r s)
/-- vfsqrt; field b is reserved. -/
def execVfsqrt (d a : BitVec 5) (k : BitVec 3) (z : BitVec 1) (t r : BitVec 2) (s : State) : Out :=
  .next (vfRound (fun _ x _ _ => sqrtExact x) vectorCycles d a a k z t r s)

/-- A lane operation that does not round: the results and the OR of the active lanes' flags. -/
def vfPlain (f : Nat → Nat → Nat → Nat × Flags) (d a b : BitVec 5) (k : BitVec 3) (z : BitVec 1) (t : BitVec 2)
    (s : State) : State :=
  s.needFeature 2 fun s => s.mod fun c =>
    let fmt := vectorFmt t
    let n := fmtBits fmt
    let act := activeLanes c k (512 / n)
    let rs := ((lanesOf (c.getV a) n).zip (lanesOf (c.getV b) n)).map fun (x, y) => f fmt x y
    let flags := ((act.zip rs).map fun (on, r) => if on then r.2 else 0).foldl (· ||| ·) 0
    ((c.writeLanes d n act z (rs.map Prod.fst)).raise flags).retire s.latch

/-- A comparison of lanes into a mask register; fn bit 7 zeroes inactive mask bits (DEDUCED, log entry 68). -/
def vfCompare (op : Nat) (d a b : BitVec 5) (k : BitVec 3) (z : BitVec 1) (t : BitVec 2) (s : State) : State :=
  s.needFeature 2 fun s => s.needLimits (maskField d) fun s => s.mod fun c =>
    let fmt := vectorFmt t
    let n := fmtBits fmt
    let act := activeLanes c k (512 / n)
    let rs := ((lanesOf (c.getV a) n).zip (lanesOf (c.getV b) n)).map fun (x, y) => compareFloat op fmt x y
    let flags := ((act.zip rs).map fun (on, r) => if on then r.2 else 0).foldl (· ||| ·) 0
    ((c.setK (maskReg d) (packMask act (z = 1) (c.getK (maskReg d)) (rs.map Prod.fst))).raise flags).retire s.latch

/-- vfmin. -/
def execVfmin (d a b : BitVec 5) (k : BitVec 3) (z : BitVec 1) (t : BitVec 2) (s : State) : Out :=
  .next (vfPlain (minMaxFloat true) d a b k z t s)
/-- vfmax. -/
def execVfmax (d a b : BitVec 5) (k : BitVec 3) (z : BitVec 1) (t : BitVec 2) (s : State) : Out :=
  .next (vfPlain (minMaxFloat false) d a b k z t s)
/-- vfneg. -/
def execVfneg (d a : BitVec 5) (k : BitVec 3) (z : BitVec 1) (t : BitVec 2) (s : State) : Out :=
  .next (vfPlain (fun fmt x _ => signFloat true fmt x) d a a k z t s)
/-- vfabs. -/
def execVfabs (d a : BitVec 5) (k : BitVec 3) (z : BitVec 1) (t : BitVec 2) (s : State) : Out :=
  .next (vfPlain (fun fmt x _ => signFloat false fmt x) d a a k z t s)
/-- vfcmp.eq. -/
def execVfcmpEq (d a b : BitVec 5) (k : BitVec 3) (z : BitVec 1) (t : BitVec 2) (s : State) : Out :=
  .next (vfCompare 0 d a b k z t s)
/-- vfcmp.lt. -/
def execVfcmpLt (d a b : BitVec 5) (k : BitVec 3) (z : BitVec 1) (t : BitVec 2) (s : State) : Out :=
  .next (vfCompare 1 d a b k z t s)
/-- vfcmp.le. -/
def execVfcmpLe (d a b : BitVec 5) (k : BitVec 3) (z : BitVec 1) (t : BitVec 2) (s : State) : Out :=
  .next (vfCompare 2 d a b k z t s)
/-- vfcmp.un. -/
def execVfcmpUn (d a b : BitVec 5) (k : BitVec 3) (z : BitVec 1) (t : BitVec 2) (s : State) : Out :=
  .next (vfCompare 3 d a b k z t s)

/-! ### Vector memory access (R142 to R146) -/

/-- The element addresses of a vector memory instruction (R142): contiguous, strided, indexed, one for all. -/
inductive Lanes where
  | contiguous
  | strided (x : Word)
  | indexed (v : Vec)
  | one

/-- The address of element i of n bytes. -/
def Lanes.addr (m : Lanes) (base : Word) (n i : Nat) : Word :=
  match m with
  | .contiguous => base + toWord (n * i)
  | .strided x => base + toWord i * x
  | .indexed v => base + toWord (laneOf v (8 * n) i)
  | .one => base

/-- The indexed forms reach only the local alias (R146). -/
def Lanes.localOnly : Lanes → Bool
  | .indexed _ => true
  | _ => false

/-- A vld or vst of a 64-byte aligned address with every lane active is one access (R144). -/
def Lanes.whole (m : Lanes) (base : Word) (act : List Bool) : Bool :=
  match m with
  | .contiguous => base.toNat % 64 = 0 && act.all id
  | _ => false

/-- The elements of an access: lane, address, bytes, data. -/
def vectorElems (m : Lanes) (base : Word) (n : Nat) (act : List Bool) (data : Vec) : List (Nat × Word × Nat × Nat) :=
  if m.whole base act then [(0, base, 64, data.toNat)]
  else match m with
    | .one => if act.any id then [(0, base, n, 0)] else []
    | _ => (List.range (64 / n)).filterMap fun i =>
      if act.getD i false then some (i, m.addr base n i, n, laneOf data (8 * n) i) else none

/-- vldx and vstx on a crest core, which has no local memory, trap PROT with the word (R146). -/
def State.needLocal (s : State) (m : Lanes) (k : State → State) : State :=
  if m.localOnly && isCrest s.cur then s.trapWord Code.prot else k s

/-- A vector load; it holds its context until every element is performed (R144). -/
def vload (form : Ctx → Lanes) (d a : BitVec 5) (k : BitVec 3) (z : BitVec 1) (w : BitVec 2) (s : State) : State :=
  s.needFeature 2 fun s =>
    let c := s.c
    let m := form c
    let n := widthBits w / 8
    let act := activeLanes c k (64 / n)
    let bcast := match m with
      | .one => true
      | _ => false
    s.needLocal m fun s =>
      s.accessWith m.localOnly c.spc .load
        (if m.whole (c.getX a) act then .whole d else .lanes d n act (z = 1) bcast)
        (vectorElems m (c.getX a) n act 0) none

/-- A vector store; it takes a ring entry with its scalar operands (R144, R175). -/
def vstore (form : Ctx → Lanes) (ops : Ctx → List Word) (d a : BitVec 5) (k : BitVec 3) (w : BitVec 2) (s : State) : State :=
  s.needFeature 2 fun s =>
    let c := s.c
    let m := form c
    let n := widthBits w / 8
    let act := activeLanes c k (64 / n)
    s.needLocal m fun s => s.needRing fun s =>
      s.accessWith m.localOnly c.spc .store .none (vectorElems m (c.getX a) n act (c.getV d)) (some (ops c))

/-- vld. -/
def execVld (d a : BitVec 5) (k : BitVec 3) (z : BitVec 1) (w : BitVec 2) (s : State) : Out :=
  .next (vload (fun _ => .contiguous) d a k z w s)
/-- vst. -/
def execVst (d a : BitVec 5) (k : BitVec 3) (w : BitVec 2) (s : State) : Out :=
  .next (vstore (fun _ => .contiguous) (fun c => [0, c.getX a, 0, 0]) d a k w s)
/-- vlds. -/
def execVlds (d a b : BitVec 5) (k : BitVec 3) (z : BitVec 1) (w : BitVec 2) (s : State) : Out :=
  .next (vload (fun c => .strided (c.getX b)) d a k z w s)
/-- vsts. -/
def execVsts (d a b : BitVec 5) (k : BitVec 3) (w : BitVec 2) (s : State) : Out :=
  .next (vstore (fun c => .strided (c.getX b)) (fun c => [0, c.getX a, c.getX b, 0]) d a k w s)
/-- vldx. -/
def execVldx (d a b : BitVec 5) (k : BitVec 3) (z : BitVec 1) (w : BitVec 2) (s : State) : Out :=
  .next (vload (fun c => .indexed (c.getV b)) d a k z w s)
/-- vstx. -/
def execVstx (d a b : BitVec 5) (k : BitVec 3) (w : BitVec 2) (s : State) : Out :=
  .next (vstore (fun c => .indexed (c.getV b)) (fun c => [0, c.getX a, 0, 0]) d a k w s)
/-- vldb. -/
def execVldb (d a : BitVec 5) (k : BitVec 3) (z : BitVec 1) (w : BitVec 2) (s : State) : Out :=
  .next (vload (fun _ => .one) d a k z w s)

/-! ### Permute, reduce and scan (R147, R148) -/

/-- A vector result from the context, lane by lane, under a mask. -/
def vlane (f : Ctx → Nat → Nat → Nat) (d : BitVec 5) (k : BitVec 3) (z : BitVec 1) (w : BitVec 2) (s : State) : State :=
  s.needFeature 2 fun s => s.mod fun c =>
    let n := widthBits w
    (c.writeLanes d n (activeLanes c k (512 / n)) z ((List.range (512 / n)).map (f c n))).retire s.latch

/-- vperm. -/
def execVperm (d a b : BitVec 5) (k : BitVec 3) (z : BitVec 1) (w : BitVec 2) (s : State) : Out :=
  .next (vlane (fun c n i => laneOf (c.getV a) n (laneOf (c.getV b) n i % (512 / n))) d k z w s)

/-- Lane i + k of a register of n-bit lanes for a signed k, 0 outside it. -/
def slideLane (v : Vec) (n : Nat) (k : Int) (i : Nat) : Nat :=
  let j := (i : Int) + k
  if 0 ≤ j ∧ j < ((512 / n : Nat) : Int) then laneOf v n j.toNat else 0

/-- vslide. -/
def execVslide (d a b : BitVec 5) (k : BitVec 3) (z : BitVec 1) (w : BitVec 2) (s : State) : Out :=
  .next (vlane (fun c n i => slideLane (c.getV a) n (c.getX b).toInt i) d k z w s)
/-- vbcast. -/
def execVbcast (d a : BitVec 5) (k : BitVec 3) (z : BitVec 1) (w : BitVec 2) (s : State) : Out :=
  .next (vlane (fun c n _ => (c.getX a).toNat % 2 ^ n) d k z w s)
/-- vidx. -/
def execVidx (d : BitVec 5) (k : BitVec 3) (z : BitVec 1) (w : BitVec 2) (s : State) : Out :=
  .next (vlane (fun _ _ i => i) d k z w s)

/-- vext: one lane, sign-extended. -/
def execVext (d a b : BitVec 5) (w : BitVec 2) (s : State) : Out :=
  .next (s.needFeature 2 fun s =>
    let n := widthBits w
    s.setXRetire d (signExt (laneOf (s.c.getV a) n ((s.c.getX b).toNat % (512 / n))) n))

/-- vins: one lane written, the others unchanged. -/
def execVins (d a b : BitVec 5) (w : BitVec 2) (s : State) : Out :=
  .next (s.needFeature 2 fun s => s.mod fun c =>
    let n := widthBits w
    let new := (lanesOf (c.getV d) n).set ((c.getX b).toNat % (512 / n)) ((c.getX a).toNat % 2 ^ n)
    (c.setV d (packVec n new)).retire s.latch)

/-- The active lanes of a vector register. -/
def activeOf (c : Ctx) (a : BitVec 5) (k : BitVec 3) (n : Nat) : List Nat :=
  ((lanesOf (c.getV a) n).zip (activeLanes c k (512 / n))).filterMap fun (x, on) => if on then some x else none

/-- An integer reduction: X[d] from the active lanes, sign-extended. -/
def vreduce (f : Nat → List Nat → Nat) (d a : BitVec 5) (k : BitVec 3) (w : BitVec 2) (s : State) : State :=
  s.needFeature 2 fun s =>
    let n := widthBits w
    s.setXRetire d (signExt (f n (activeOf s.c a k n)) n)

/-- vred.add. -/
def execVredAdd (d a : BitVec 5) (k : BitVec 3) (w : BitVec 2) (s : State) : Out :=
  .next (vreduce (fun _ xs => xs.sum) d a k w s)
/-- vred.min: with no lane active, the largest signed value. -/
def execVredMin (d a : BitVec 5) (k : BitVec 3) (w : BitVec 2) (s : State) : Out :=
  .next (vreduce (fun n xs => xs.foldl (laneMin n) (2 ^ (n - 1) - 1)) d a k w s)
/-- vred.max: with no lane active, the smallest signed value. -/
def execVredMax (d a : BitVec 5) (k : BitVec 3) (w : BitVec 2) (s : State) : Out :=
  .next (vreduce (fun n xs => xs.foldl (laneMax n) (2 ^ (n - 1))) d a k w s)

/-- Running sums of the active lanes; an inactive lane's entry is not used. -/
def scanSums : Nat → List Nat → List Bool → List Nat
  | acc, x :: xs, on :: act => let t := if on then acc + x else acc; t :: scanSums t xs act
  | _, _, _ => []

/-- vscan.add. -/
def execVscanAdd (d a : BitVec 5) (k : BitVec 3) (z : BitVec 1) (w : BitVec 2) (s : State) : Out :=
  .next (s.needFeature 2 fun s => s.mod fun c =>
    let n := widthBits w
    let act := activeLanes c k (512 / n)
    (c.writeLanes d n act z (scanSums 0 (lanesOf (c.getV a) n) act)).retire s.latch)

/-- vred.fadd: the exact sum of the active lanes rounded once under frm; no lane gives +0 and no flag (R148). -/
def execVredFadd (d a : BitVec 5) (k : BitVec 3) (t : BitVec 2) (s : State) : Out :=
  .next (s.needFeature 2 fun s => s.mod fun c =>
    let fmt := vectorFmt t
    let rm := c.frm.toNat
    match activeOf c a k (fmtBits fmt) with
    | [] => (c.setX d 0).retire s.latch
    | xs =>
      let r := (sumExact rm (xs.map (decodeFmt fmt))).round fmt rm c.srgen
      Ctx.retire s.latch { (c.setX d (writeFmt fmt r.code)).raise r.flags with srgen := r.gen })

/-- An infinity of a format, as no lane's minimum or maximum (R148). -/
def infOf (fmt : Nat) (neg : Bool) : Nat :=
  match floatFmt fmt with
  | some f => infCode f neg
  | none => 0

/-- Fold the fmin or fmax rules over the lanes. -/
def foldMinMax (least : Bool) (fmt : Nat) : Nat → Flags → List Nat → Nat × Flags
  | x, fl, [] => (x, fl)
  | x, fl, y :: ys => let r := minMaxFloat least fmt x y; foldMinMax least fmt r.1 (fl ||| r.2) ys

/-- vred.fmin and vred.fmax. -/
def vredMinMax (least : Bool) (d a : BitVec 5) (k : BitVec 3) (t : BitVec 2) (s : State) : State :=
  s.needFeature 2 fun s => s.mod fun c =>
    let fmt := vectorFmt t
    match activeOf c a k (fmtBits fmt) with
    | [] => (c.setX d (writeFmt fmt (infOf fmt (!least)))).retire s.latch
    | x :: xs =>
      let r := foldMinMax least fmt x 0 (x :: xs)
      ((c.setX d (writeFmt fmt r.1)).raise r.2).retire s.latch

/-- vred.fmin. -/
def execVredFmin (d a : BitVec 5) (k : BitVec 3) (t : BitVec 2) (s : State) : Out := .next (vredMinMax true d a k t s)
/-- vred.fmax. -/
def execVredFmax (d a : BitVec 5) (k : BitVec 3) (t : BitVec 2) (s : State) : Out := .next (vredMinMax false d a k t s)

/-- The exact sums of the active lanes up to each lane. -/
def scanExact (rm : Nat) (vs : List Val) (act : List Bool) : List Exact :=
  (List.range vs.length).map fun i =>
    sumExact rm (((vs.zip act).take (i + 1)).filterMap fun (x, on) => if on then some x else none)

/-- vscan.fadd. -/
def execVscanFadd (d a : BitVec 5) (k : BitVec 3) (z : BitVec 1) (t : BitVec 2) (s : State) : Out :=
  .next (s.needFeature 2 fun s => s.mod fun c =>
    let fmt := vectorFmt t
    let rm := c.frm.toNat
    let act := activeLanes c k (512 / fmtBits fmt)
    let r := roundLanes fmt rm false act (scanExact rm (laneVals (c.getV a) fmt) act) c.srgen
    Ctx.retire s.latch { (c.writeLanes d (fmtBits fmt) act z r.1).raise r.2.1 with srgen := r.2.2 })

/-! ### Mask instructions (R149) -/

/-- K[d] from K[a] and K[b]. -/
def kk (f : Word → Word → Word) (d a b : BitVec 5) (s : State) : State :=
  s.needFeature 2 fun s => s.needLimits (maskField d && maskField a && maskField b) fun s => s.mod fun c =>
    (c.setK (maskReg d) (f (c.getK (maskReg a)) (c.getK (maskReg b)))).retire s.latch

/-- X[d] from K[a]. -/
def kx (f : Word → Word) (d a : BitVec 5) (s : State) : State :=
  s.needFeature 2 fun s => s.needLimits (maskField a) fun s => s.setXRetire d (f (s.c.getK (maskReg a)))

/-- kand. -/
def execKand (d a b : BitVec 5) (s : State) : Out := .next (kk (fun x y => x &&& y) d a b s)
/-- kor. -/
def execKor (d a b : BitVec 5) (s : State) : Out := .next (kk (fun x y => x ||| y) d a b s)
/-- kxor. -/
def execKxor (d a b : BitVec 5) (s : State) : Out := .next (kk (fun x y => x ^^^ y) d a b s)
/-- knot. -/
def execKnot (d a : BitVec 5) (s : State) : Out := .next (kk (fun x _ => ~~~x) d a a s)
/-- kmov. -/
def execKmov (d a : BitVec 5) (s : State) : Out := .next (kk (fun x _ => x) d a a s)
/-- kpopc. -/
def execKpopc (d a : BitVec 5) (s : State) : Out := .next (kx (fun x => toWord (popCountN 64 x.toNat)) d a s)
/-- kfirst: 64 if no bit is set. -/
def execKfirst (d a : BitVec 5) (s : State) : Out := .next (kx (fun x => toWord (ctzN 64 x.toNat)) d a s)
/-- kset. -/
def execKset (d a : BitVec 5) (s : State) : Out :=
  .next (s.needFeature 2 fun s => s.needLimits (maskField d) fun s => s.mod fun c =>
    (c.setK (maskReg d) (c.getX a)).retire s.latch)

/-! ### Conversion (R150 to R152) -/

/-- Elements of a format in a vector register: E2M1 packs two in a byte (R68, R137). -/
def fmtLanes (code : Nat) : Nat := 512 / fmtBits code

/-- vcvt: the lesser lane count of the two formats and 64; the elements above it become 0 whatever the mask (R151). -/
def execVcvt (d a : BitVec 5) (f : BitVec 4) (sat : BitVec 1) (k : BitVec 3) (z : BitVec 1) (g : BitVec 4) (m : BitVec 3)
    (s : State) : Out :=
  .next (s.needFeature 2 fun s =>
    s.needLimits (roundingMode m && formatField g && formatField f) fun s => s.mod fun c =>
      let src := f.toNat
      let dst := g.toNat
      let n := Nat.min 64 (Nat.min (fmtLanes src) (fmtLanes dst))
      let act := activeLanes c k n
      let xs := (laneVals (c.getV a) src).take n
      let r := roundLanes dst m.toNat (sat = 1) act (xs.map fun x => ⟨x, 0⟩) c.srgen
      let new := mergeLanes act (z = 1) ((lanesOf (c.getV d) (fmtBits dst)).take n) r.1
      Ctx.retire s.latch { (c.setV d (packVec (fmtBits dst) new)).raise r.2.1 with srgen := r.2.2 })

/-- Narrow an element of n bits: its low half, or saturated as a signed value to the half width (R152). -/
def narrow (n : Nat) (sat : Bool) (x : Nat) : Nat :=
  let h := n / 2
  if sat then
    let v := signedN x n
    let hi : Int := 2 ^ (h - 1) - 1
    let lo : Int := -(2 ^ (h - 1))
    (BitVec.ofInt h (if hi < v then hi else if v < lo then lo else v)).toNat
  else x % 2 ^ h

/-- vpack: the narrowed elements of V[a], then those of V[b]. -/
def execVpack (d a b : BitVec 5) (k : BitVec 3) (z : BitVec 1) (t : BitVec 1) (w : BitVec 2) (s : State) : Out :=
  .next (s.needFeature 2 fun s => s.needLimits (w ≠ 0) fun s => s.mod fun c =>
    let n := widthBits w
    let new := (lanesOf (c.getV a) n ++ lanesOf (c.getV b) n).map (narrow n (t = 1))
    (c.writeLanes d (n / 2) (activeLanes c k (1024 / n)) z new).retire s.latch)

/-- vunpack: half `h` of V[a], read at half width and extended. -/
def execVunpack (d a : BitVec 5) (h : BitVec 1) (k : BitVec 3) (z : BitVec 1) (u : BitVec 1) (w : BitVec 2)
    (s : State) : Out :=
  .next (s.needFeature 2 fun s => s.needLimits (w ≠ 0) fun s => s.mod fun c =>
    let n := widthBits w
    let cnt := 512 / n
    let new := (List.range cnt).map fun i =>
      let x := laneOf (c.getV a) (n / 2) (h.toNat * cnt + i)
      if u = 1 then (BitVec.ofInt n (signedN x (n / 2))).toNat else x
    (c.writeLanes d n (activeLanes c k cnt) z new).retire s.latch)

end Sys2Proof.Machine
end

