-- ==== Sys2Proof/Machine/Prefix.lean ====
section
/-! DEFINITION. The prefixes LONG and REP (R91 to R94, R153). -/

namespace Sys2Proof.Machine

/-- The feature bit that a word's major requires (R89); the hint region needs none. -/
def featureBit (w : Insn) : Nat :=
  let m := bits w 31 26
  if m = 0 then (if bits w 25 21 = 6 then 12 else 0)
  else if m = 0x16 then 3
  else if m = 0x18 || m = 0x19 then 1
  else if (0x1A ≤ m && m ≤ 0x1F) || m = 0x3E then 2
  else if 0x20 ≤ m && m ≤ 0x22 then 4
  else if m = 0x23 then 5
  else if 0x24 ≤ m && m ≤ 0x27 then 7
  else if m = 0x28 || m = 0x29 then 8
  else if m = 0x2A then 9
  else if m = 0x2B then 10
  else if m = 0x2C then 11
  else 0

/-- Does an instruction name a special register of the matrix feature (R88)? -/
def namesMatrix (i : Instr) : Bool :=
  let spec := fun (n : BitVec 12) => match srSpec n.toNat with
    | some x => x.matrix
    | none => false
  match i with
  | .srr _ n => spec n
  | .srw _ _ n => spec n
  | .srs _ _ n => spec n
  | .src _ _ n => spec n
  | _ => false

/-- Does the word need a feature that the core lacks (R88, R89, R96)? Only a word that is an instruction does: RUNOFF, FUTURE and
ILLEGAL come first (R91 steps 2 to 5); but every word of major 0x2C does on a facet (R341). -/
def lacksFeature (a : Agent) (w : Insn) : Bool :=
  let lacks : Bool := decide (fmaskOf a / 2 ^ featureBit w % 2 ≠ 1)
  match decode w with
  | .runoff => false
  | .future => false
  | .illegal => decide (bits w 31 26 = 0x2C) && lacks
  | i => lacks || (isCrest a && namesMatrix i)

/-- Latch a further word of the group in issue. -/
def State.latchWord (s : State) (w : Insn) (len : Nat) : State :=
  { s with latch := { s.latch with word := w, len := len, rep := none } }

/-- A trap at a REP group keeps the live repidx (R93). -/
def State.trapRep (s : State) (code : Nat) (info : Word) : State := s.trapAt s.cur code info true

/-- Steps 2 to 5 of R91 for the word that follows a prefix: the trap that decides, or the instruction. Which of the ILLEGALs that
step 8 does not list count as step 4 is the decoder's choice (DEDUCED, log entry 44). -/
def State.afterPrefix (s : State) (w : Insn) : Except (Nat × Word) Instr :=
  if lacksFeature s.cur w then .error (Code.feature, w.setWidth 64)
  else match decode w with
    | .runoff => .error (Code.runoff, 0)
    | .future => .error (Code.future, w.setWidth 64)
    | .illegal => .error (Code.illegal, w.setWidth 64)
    | i => .ok i

/-! ### LONG (R92) -/

/-- LONG: fetches the word after it; only the six extendable immediates accept it (R92, R94). The words behind a second prefix are
not fetched (DEDUCED, log entry 44). -/
def execLong (h : BitVec 26) (s : State) : Out :=
  .next (match s.fetch (s.c.pc + 4) with
    | (s, .waits) => s
    | (s, .fault code) => (s.fetchAlarm (s.c.pc + 4)).trap code (s.c.pc + 4)
    | (s, .word w) =>
      match s.afterPrefix w with
      | .error e => s.trap e.1 e.2
      | .ok i =>
        let t := s.latchWord w 8
        match i with
        | .addi d a imm => ri addiFn d a (immLong h imm) t
        | .andi d a imm => ri andiFn d a (immLong h imm) t
        | .ori d a imm => ri oriFn d a (immLong h imm) t
        | .xori d a imm => ri xoriFn d a (immLong h imm) t
        | .slti d a imm => ri sltiFn d a (immLong h imm) t
        | .sltiu d a imm => ri sltiuFn d a (immLong h imm) t
        | _ => s.trap Code.illegal (s.latch.first.setWidth 64))

/-! ### REP (R93, R153) -/

/-- What REP steps: for fields d, a and b of a vector instruction the limit of each that names a register (31, or 7 for a
mask register), 0 for one that is not stepped; none for an instruction that is not a vector instruction. -/
def stepLimits : Instr → Option (Nat × Nat × Nat)
  | .vadd _ _ _ _ _ _ => some (31, 31, 31)
  | .vsub _ _ _ _ _ _ => some (31, 31, 31)
  | .vmul _ _ _ _ _ _ => some (31, 31, 31)
  | .vmulh _ _ _ _ _ _ => some (31, 31, 31)
  | .vand _ _ _ _ _ _ => some (31, 31, 31)
  | .vor _ _ _ _ _ _ => some (31, 31, 31)
  | .vxor _ _ _ _ _ _ => some (31, 31, 31)
  | .vsll _ _ _ _ _ _ => some (31, 31, 31)
  | .vsrl _ _ _ _ _ _ => some (31, 31, 31)
  | .vsra _ _ _ _ _ _ => some (31, 31, 31)
  | .vmin _ _ _ _ _ _ => some (31, 31, 31)
  | .vmax _ _ _ _ _ _ => some (31, 31, 31)
  | .vminu _ _ _ _ _ _ => some (31, 31, 31)
  | .vmaxu _ _ _ _ _ _ => some (31, 31, 31)
  | .vabs _ _ _ _ _ => some (31, 31, 0)
  | .vmerge _ _ _ _ _ => some (31, 31, 31)
  | .vcmpEq _ _ _ _ _ _ => some (7, 31, 31)
  | .vcmpNe _ _ _ _ _ _ => some (7, 31, 31)
  | .vcmpLt _ _ _ _ _ _ => some (7, 31, 31)
  | .vcmpLtu _ _ _ _ _ _ => some (7, 31, 31)
  | .vcmpLe _ _ _ _ _ _ => some (7, 31, 31)
  | .vcmpLeu _ _ _ _ _ _ => some (7, 31, 31)
  | .vfadd _ _ _ _ _ _ _ => some (31, 31, 31)
  | .vfsub _ _ _ _ _ _ _ => some (31, 31, 31)
  | .vfmul _ _ _ _ _ _ _ => some (31, 31, 31)
  | .vfma _ _ _ _ _ _ _ => some (31, 31, 31)
  | .vfdiv _ _ _ _ _ _ _ => some (31, 31, 31)
  | .vfsqrt _ _ _ _ _ _ => some (31, 31, 0)
  | .vfmin _ _ _ _ _ _ => some (31, 31, 31)
  | .vfmax _ _ _ _ _ _ => some (31, 31, 31)
  | .vfneg _ _ _ _ _ => some (31, 31, 0)
  | .vfabs _ _ _ _ _ => some (31, 31, 0)
  | .vfcmpEq _ _ _ _ _ _ => some (7, 31, 31)
  | .vfcmpLt _ _ _ _ _ _ => some (7, 31, 31)
  | .vfcmpLe _ _ _ _ _ _ => some (7, 31, 31)
  | .vfcmpUn _ _ _ _ _ _ => some (7, 31, 31)
  | .vld _ _ _ _ _ => some (31, 31, 0)
  | .vst _ _ _ _ => some (31, 31, 0)
  | .vlds _ _ _ _ _ _ => some (31, 31, 31)
  | .vsts _ _ _ _ _ => some (31, 31, 31)
  | .vldx _ _ _ _ _ _ => some (31, 31, 31)
  | .vstx _ _ _ _ _ => some (31, 31, 31)
  | .vldb _ _ _ _ _ => some (31, 31, 0)
  | .vperm _ _ _ _ _ _ => some (31, 31, 31)
  | .vslide _ _ _ _ _ _ => some (31, 31, 31)
  | .vbcast _ _ _ _ _ => some (31, 31, 0)
  | .vext _ _ _ _ => some (31, 31, 31)
  | .vins _ _ _ _ => some (31, 31, 31)
  | .vidx _ _ _ _ => some (31, 0, 0)
  | .vredAdd _ _ _ _ => some (31, 31, 0)
  | .vredMin _ _ _ _ => some (31, 31, 0)
  | .vredMax _ _ _ _ => some (31, 31, 0)
  | .vscanAdd _ _ _ _ _ => some (31, 31, 0)
  | .vredFadd _ _ _ _ => some (31, 31, 0)
  | .vredFmin _ _ _ _ => some (31, 31, 0)
  | .vredFmax _ _ _ _ => some (31, 31, 0)
  | .vscanFadd _ _ _ _ _ => some (31, 31, 0)
  | .kand _ _ _ => some (7, 7, 7)
  | .kor _ _ _ => some (7, 7, 7)
  | .kxor _ _ _ => some (7, 7, 7)
  | .knot _ _ => some (7, 7, 0)
  | .kmov _ _ => some (7, 7, 0)
  | .kpopc _ _ => some (31, 7, 0)
  | .kfirst _ _ => some (31, 7, 0)
  | .kset _ _ => some (7, 31, 0)
  | .vcvt _ _ _ _ _ _ _ _ => some (31, 31, 0)
  | .vpack _ _ _ _ _ _ _ => some (31, 31, 31)
  | .vunpack _ _ _ _ _ _ _ => some (31, 31, 0)
  | _ => none

/-- The meaning of a vector instruction (majors 0x1A to 0x1F); any other is illegal after REP. -/
def execVectorInstr (i : Instr) (s : State) : Out :=
  match i with
  | .vadd d a b k z w => execVadd d a b k z w s
  | .vsub d a b k z w => execVsub d a b k z w s
  | .vmul d a b k z w => execVmul d a b k z w s
  | .vmulh d a b k z w => execVmulh d a b k z w s
  | .vand d a b k z w => execVand d a b k z w s
  | .vor d a b k z w => execVor d a b k z w s
  | .vxor d a b k z w => execVxor d a b k z w s
  | .vsll d a b k z w => execVsll d a b k z w s
  | .vsrl d a b k z w => execVsrl d a b k z w s
  | .vsra d a b k z w => execVsra d a b k z w s
  | .vmin d a b k z w => execVmin d a b k z w s
  | .vmax d a b k z w => execVmax d a b k z w s
  | .vminu d a b k z w => execVminu d a b k z w s
  | .vmaxu d a b k z w => execVmaxu d a b k z w s
  | .vabs d a k z w => execVabs d a k z w s
  | .vmerge d a b k w => execVmerge d a b k w s
  | .vcmpEq d a b k z w => execVcmpEq d a b k z w s
  | .vcmpNe d a b k z w => execVcmpNe d a b k z w s
  | .vcmpLt d a b k z w => execVcmpLt d a b k z w s
  | .vcmpLtu d a b k z w => execVcmpLtu d a b k z w s
  | .vcmpLe d a b k z w => execVcmpLe d a b k z w s
  | .vcmpLeu d a b k z w => execVcmpLeu d a b k z w s
  | .vfadd d a b k z t r => execVfadd d a b k z t r s
  | .vfsub d a b k z t r => execVfsub d a b k z t r s
  | .vfmul d a b k z t r => execVfmul d a b k z t r s
  | .vfma d a b k z t r => execVfma d a b k z t r s
  | .vfdiv d a b k z t r => execVfdiv d a b k z t r s
  | .vfsqrt d a k z t r => execVfsqrt d a k z t r s
  | .vfmin d a b k z t => execVfmin d a b k z t s
  | .vfmax d a b k z t => execVfmax d a b k z t s
  | .vfneg d a k z t => execVfneg d a k z t s
  | .vfabs d a k z t => execVfabs d a k z t s
  | .vfcmpEq d a b k z t => execVfcmpEq d a b k z t s
  | .vfcmpLt d a b k z t => execVfcmpLt d a b k z t s
  | .vfcmpLe d a b k z t => execVfcmpLe d a b k z t s
  | .vfcmpUn d a b k z t => execVfcmpUn d a b k z t s
  | .vld d a k z w => execVld d a k z w s
  | .vst d a k w => execVst d a k w s
  | .vlds d a b k z w => execVlds d a b k z w s
  | .vsts d a b k w => execVsts d a b k w s
  | .vldx d a b k z w => execVldx d a b k z w s
  | .vstx d a b k w => execVstx d a b k w s
  | .vldb d a k z w => execVldb d a k z w s
  | .vperm d a b k z w => execVperm d a b k z w s
  | .vslide d a b k z w => execVslide d a b k z w s
  | .vbcast d a k z w => execVbcast d a k z w s
  | .vext d a b w => execVext d a b w s
  | .vins d a b w => execVins d a b w s
  | .vidx d k z w => execVidx d k z w s
  | .vredAdd d a k w => execVredAdd d a k w s
  | .vredMin d a k w => execVredMin d a k w s
  | .vredMax d a k w => execVredMax d a k w s
  | .vscanAdd d a k z w => execVscanAdd d a k z w s
  | .vredFadd d a k t => execVredFadd d a k t s
  | .vredFmin d a k t => execVredFmin d a k t s
  | .vredFmax d a k t => execVredFmax d a k t s
  | .vscanFadd d a k z t => execVscanFadd d a k z t s
  | .kand d a b => execKand d a b s
  | .kor d a b => execKor d a b s
  | .kxor d a b => execKxor d a b s
  | .knot d a => execKnot d a s
  | .kmov d a => execKmov d a s
  | .kpopc d a => execKpopc d a s
  | .kfirst d a => execKfirst d a s
  | .kset d a => execKset d a s
  | .vcvt d a f t k z g m => execVcvt d a f t k z g m s
  | .vpack d a b k z t w => execVpack d a b k z t w s
  | .vunpack d a h k z u w => execVunpack d a h k z u w s
  | _ => .next (s.trapRep Code.illegal (s.latch.first.setWidth 64))

/-- Does field `lo` of a word stay within its limit over n repetitions (R93)? A limit of 0 is no stepped field. -/
def stepOk (w : Insn) (lo limit stride n : Nat) : Bool :=
  limit = 0 || n = 0 || bitsN w.toNat (lo + 4) lo + (n - 1) * stride ≤ limit

/-- Field `lo` of a word advanced i times by its stride. -/
def stepField (w : Nat) (lo limit stride i : Nat) : Nat :=
  if limit = 0 then w else putBitsN w lo 5 (bitsN w (lo + 4) lo + i * stride)

/-- The word of repetition i. -/
def stepWord (w : Insn) (lim : Nat × Nat × Nat) (ds as bs i : Nat) : Insn :=
  BitVec.ofNat 32 (stepField (stepField (stepField w.toNat 21 lim.1 ds i) 16 lim.2.1 as i) 11 lim.2.2 bs i)

/-- One repetition of a group, or the retirement of one whose repidx is the count or more. Each repetition is one step, so
an interrupt or pre-emption may fall between two (R91, R93). -/
def State.repeat (s : State) (w : Insn) (i : Instr) (lim : Nat × Nat × Nat) (n ds as bs : Nat) : Out :=
  if stepOk w 21 lim.1 ds n && stepOk w 16 lim.2.1 as n && stepOk w 11 lim.2.2 bs n then
    let k := s.c.repidx.toNat
    if n ≤ k then
      .next (if i.wf then s.mod fun c => { c with pc := c.pc + 8, repidx := 0 }
             else s.trapRep Code.illegal (w.setWidth 64))
    else
      let t := { s with latch := { s.latch with word := w, len := 8, rep := some (k, n) } }
      execVectorInstr (decode (stepWord w lim ds as bs k)) t
  else .next (s.trapRep Code.illegal (s.latch.first.setWidth 64))

/-- REP followed by LONG: no vector instruction has an immediate, so after the checks of the word behind them the sequence
is illegal (R94, R153). The words behind a third prefix are not fetched (DEDUCED, log entry 44). -/
def State.repLong (s : State) : State :=
  match s.fetch (s.c.pc + 8) with
  | (s, .waits) => s
  | (s, .fault code) => (s.fetchAlarm (s.c.pc + 8)).trapRep code (s.c.pc + 8)
  | (s, .word w) =>
    match s.afterPrefix w with
    | .error e => s.trapRep e.1 e.2
    | .ok _ => s.trapRep Code.illegal (s.latch.first.setWidth 64)

/-- REP (R93, R94). The words behind a second REP are not fetched (DEDUCED, log entry 44). -/
def execRep (n : BitVec 6) (ds as bs : BitVec 3) (s : State) : Out :=
  match s.fetch (s.c.pc + 4) with
  | (s, .waits) => .next s
  | (s, .fault code) => .next ((s.fetchAlarm (s.c.pc + 4)).trapRep code (s.c.pc + 4))
  | (s, .word w) =>
    if bits w 31 26 = 0x3F then .next s.repLong
    else match s.afterPrefix w with
      | .error e => .next (s.trapRep e.1 e.2)
      | .ok i =>
        match stepLimits i with
        | none => .next (s.trapRep Code.illegal (s.latch.first.setWidth 64))
        | some lim => s.repeat w i lim n.toNat ds.toNat as.toNat bs.toNat

end Sys2Proof.Machine
end

