-- ==== Sys2Proof/Machine/ScalarFp.lean ====
section
/-! DEFINITION. Scalar floating point and cvt, majors 0x18 and 0x19 (R111 to R117). -/

namespace Sys2Proof.Machine

/-- The value of a scalar operand of a format (R111, R116). -/
def fpVal (code : Nat) (x : Word) : Val := decodeFmt code (readFmt code x)

/-- Write a rounded result: X[d], the flags, the generator; then retire (R79, R111). -/
def Ctx.fpWrite (c : Ctx) (d : BitVec 5) (code : Nat) (r : Rounded) : Ctx :=
  { (c.setX d (writeFmt code r.code)).raise r.flags with srgen := r.gen }

/-- An operation that rounds (R112): its mode from frm or its own field, where 6 and 7 trap ILLEGAL; `cycles` 0 for one
issue slot, else the facet's context stays busy (R101). -/
def fpRounding (f : Nat → Val → Val → Val → Exact) (cycles : BitVec 1 → Nat) (d a b : BitVec 5) (y : BitVec 1)
    (m : BitVec 3) (t : BitVec 1) (s : State) : State :=
  s.needFeature 1 fun s =>
    match scalarMode s.c y m with
    | none => s.trapWord Code.illegal
    | some rm =>
      let fmt := scalarFmt t
      let go := fun (c : Ctx) =>
        (c.fpWrite d fmt ((f rm (fpVal fmt (c.getX a)) (fpVal fmt (c.getX b)) (fpVal fmt (c.getX d))).round fmt rm
          c.srgen)).retire s.latch
      if cycles t = 0 then s.mod go else s.busyFor (cycles t) (some d) none go

/-- fdiv and fsqrt keep a facet's context busy 12 cycles for .s and 20 for .d (R101). -/
def longCycles (t : BitVec 1) : Nat := if t = 1 then 20 else 12

/-- fadd. -/
def execFadd (d a b : BitVec 5) (y : BitVec 1) (m : BitVec 3) (t : BitVec 1) (s : State) : Out :=
  .next (fpRounding (fun rm x z _ => sumExact rm [x, z]) (fun _ => 0) d a b y m t s)
/-- fsub. -/
def execFsub (d a b : BitVec 5) (y : BitVec 1) (m : BitVec 3) (t : BitVec 1) (s : State) : Out :=
  .next (fpRounding (fun rm x z _ => sumExact rm [x, z.neg]) (fun _ => 0) d a b y m t s)
/-- fmul. -/
def execFmul (d a b : BitVec 5) (y : BitVec 1) (m : BitVec 3) (t : BitVec 1) (s : State) : Out :=
  .next (fpRounding (fun _ x z _ => mulExact x z) (fun _ => 0) d a b y m t s)
/-- fdiv. -/
def execFdiv (d a b : BitVec 5) (y : BitVec 1) (m : BitVec 3) (t : BitVec 1) (s : State) : Out :=
  .next (fpRounding (fun _ x z _ => divExact x z) longCycles d a b y m t s)
/-- fsqrt; field b is reserved. -/
def execFsqrt (d a : BitVec 5) (y : BitVec 1) (m : BitVec 3) (t : BitVec 1) (s : State) : Out :=
  .next (fpRounding (fun _ x _ _ => sqrtExact x) longCycles d a 0 y m t s)
/-- fmadd: a * b + d rounded once, d the old X[d]. -/
def execFmadd (d a b : BitVec 5) (y : BitVec 1) (m : BitVec 3) (t : BitVec 1) (s : State) : Out :=
  .next (fpRounding (fun rm x z w => fmaExact rm x z w) (fun _ => 0) d a b y m t s)

/-- An operation that does not round and gives a value of the type (R113). -/
def fpPlain (f : Nat → Nat → Nat → Nat × Flags) (d a b : BitVec 5) (t : BitVec 1) (s : State) : State :=
  s.needFeature 1 fun s => s.mod fun c =>
    let fmt := scalarFmt t
    let r := f fmt (readFmt fmt (c.getX a)) (readFmt fmt (c.getX b))
    ((c.setX d (writeFmt fmt r.1)).raise r.2).retire s.latch

/-- A comparison: 1 or 0 in X[d] (R113). -/
def fpCompare (op : Nat) (d a b : BitVec 5) (t : BitVec 1) (s : State) : State :=
  s.needFeature 1 fun s => s.mod fun c =>
    let fmt := scalarFmt t
    let r := compareFloat op fmt (readFmt fmt (c.getX a)) (readFmt fmt (c.getX b))
    ((c.setX d (boolWord r.1)).raise r.2).retire s.latch

/-- fmin. -/
def execFmin (d a b : BitVec 5) (t : BitVec 1) (s : State) : Out := .next (fpPlain (minMaxFloat true) d a b t s)
/-- fmax. -/
def execFmax (d a b : BitVec 5) (t : BitVec 1) (s : State) : Out := .next (fpPlain (minMaxFloat false) d a b t s)
/-- fneg. -/
def execFneg (d a : BitVec 5) (t : BitVec 1) (s : State) : Out :=
  .next (fpPlain (fun fmt x _ => signFloat true fmt x) d a 0 t s)
/-- fabs. -/
def execFabs (d a : BitVec 5) (t : BitVec 1) (s : State) : Out :=
  .next (fpPlain (fun fmt x _ => signFloat false fmt x) d a 0 t s)
/-- feq. -/
def execFeq (d a b : BitVec 5) (t : BitVec 1) (s : State) : Out := .next (fpCompare 0 d a b t s)
/-- flt. -/
def execFlt (d a b : BitVec 5) (t : BitVec 1) (s : State) : Out := .next (fpCompare 1 d a b t s)
/-- fle. -/
def execFle (d a b : BitVec 5) (t : BitVec 1) (s : State) : Out := .next (fpCompare 2 d a b t s)
/-- fclass: the class mask of R114; no flag. -/
def execFclass (d a : BitVec 5) (t : BitVec 1) (s : State) : Out :=
  .next (s.needFeature 1 fun s => s.setXRetire d (toWord (classMask (scalarFmt t) (readFmt (scalarFmt t) (s.c.getX a)))))

/-- cvt (R115 to R117): codes 0xD to 0xF and LQ2 in either field, and modes 6 and 7 with dyn = 0, trap ILLEGAL. -/
def execCvt (d a : BitVec 5) (g : BitVec 4) (sat : BitVec 1) (m : BitVec 3) (f : BitVec 4) (y : BitVec 1)
    (s : State) : Out :=
  .next (s.needFeature 1 fun s => s.needLimits (formatField g && formatField f) fun s =>
    match scalarMode s.c y m with
    | none => s.trapWord Code.illegal
    | some rm => s.mod fun c =>
      (c.fpWrite d g.toNat (round g.toNat rm (sat = 1) (fpVal f.toNat (c.getX a)) c.srgen)).retire s.latch)

end Sys2Proof.Machine
end

