-- ==== Sys2Proof/Machine/Bytecode.lean ====
section
/-! DEFINITION. What every bytecode instruction shares: code descriptors and frames, the fetch, the operand checks, the exits
GUARD, TXILL and NATIVE, counted writes as one plan that is checked whole and then performed, inline caches
(R316 to R327, R336 to R340, R346). -/

namespace Sys2Proof.Machine

/-! ### Registers of the bytecode machine (R316) -/

/-- fb. -/
def Ctx.fb (c : Ctx) : Word := c.xn 18
/-- bpc. -/
def Ctx.bpc (c : Ctx) : Word := c.xn 19
/-- cd. -/
def Ctx.cd (c : Ctx) : Word := c.xn 20
/-- fl. -/
def Ctx.fl (c : Ctx) : Word := c.xn 21
/-- hs. -/
def Ctx.hs (c : Ctx) : Word := c.xn 22
/-- rb. -/
def Ctx.rb (c : Ctx) : Word := c.xn 28

/-- The address of frame register n. -/
def Ctx.frame (c : Ctx) (n : Nat) : Word := c.fb + toWord (8 * n)

/-! ### Reading runs of fields -/

/-- Load fields (offset, bytes) from a base, in order. -/
def State.crestLoads (s : State) (base : Word) :
    List (Nat × Nat) → List Nat → (List Nat → State → State) → State
  | [], acc, k => k acc.reverse s
  | (off, n) :: rest, acc, k => s.crestLoad (base + toWord off) n fun v s => s.crestLoads base rest (v :: acc) k

/-- Load frame registers by number. -/
def State.loadRegs (s : State) (rs : List Nat) (k : List Word → State → State) : State :=
  s.crestLoads s.c.fb (rs.map fun r => (8 * r, 8)) [] fun vs s => k (vs.map toWord) s

/-- Load one frame register. -/
def State.loadReg (s : State) (r : Nat) (k : Word → State → State) : State :=
  s.crestLoad (s.c.frame r) 8 fun v s => k (toWord v) s

/-! ### Code descriptors (R323) -/

/-- A code descriptor. -/
structure Desc where
  code : Nat
  clen : Nat
  pool : Word
  npool : Nat
  nframe : Nat
  nparam : Nat
  ictab : Word
  nic : Nat
deriving DecidableEq, Repr

/-- Read a code descriptor. -/
def State.readDesc (s : State) (cd : Word) (k : Desc → State → State) : State :=
  s.crestLoads cd [(0, 8), (8, 4), (16, 8), (24, 4), (28, 2), (30, 1), (32, 8), (40, 4)] [] fun v s =>
    k { code := v.getD 0 0, clen := v.getD 1 0, pool := toWord (v.getD 2 0), npool := v.getD 3 0, nframe := v.getD 4 0
        nparam := v.getD 5 0, ictab := toWord (v.getD 6 0), nic := v.getD 7 0 } s

/-! ### Formats and exits (R324, R325, R327) -/

/-- The formats. -/
inductive BcFormat where
  | a | k | i | j
deriving DecidableEq, Repr

/-- The format of an opcode. -/
def bcFormat (op : Nat) : BcFormat :=
  if [0x05, 0x06, 0x07, 0x08, 0x09, 0x0A, 0x1B, 0x1C, 0x21].contains op then .i
  else if [0x02, 0x03, 0x18, 0x19, 0x1A, 0x26].contains op then .k
  else if op = 0x17 || op = 0x24 then .j
  else .a

/-- The bytes of an instruction. -/
def bcLength (op : Nat) : Nat := if bcFormat op = .i then 6 else 4

/-- Leave bytecode mode: the registers of R325, and the pc at the target. A target that is no multiple of 4 traps ALIGN at its
first fetch, which leaves repidx at 0 (R93, R335). -/
def State.leave (s : State) (cls code : Nat) (info bpc x1 x3 x4 x5 target : Word) : State :=
  let s' := s.mod fun c =>
    { ((((c.setXn 1 x1).setXn 2 bpc).setXn 3 x3).setXn 4 x4).setXn 5 x5 with
      epc := bpc ||| 1, ecause := ecauseOf cls code false none, einfo := info, pc := target &&& ~~~3, bytecode := false }
  if target.toNat % 4 ≠ 0 then
    (s'.enterKernel s.cur 0 (ecauseOf 0 Code.align false none) target (bpc ||| 1)).mod fun c => { c with repidx := 0 }
  else s'

/-- Leave to rb.txvec. -/
def State.leaveTo (s : State) (code : Nat) (info bpc x1 x3 x4 x5 : Word) : State :=
  s.crestLoad s.c.rb 8 fun v s => s.leave 0 code info bpc x1 x3 x4 x5 (toWord v)

/-- An exit by GUARD or TXILL of an instruction that has been fetched whole: x4 and x5 by its format, from the instruction's
bytes in the latch. `x3` is the address of f[a], or what stands for it. -/
def State.exitBy (s : State) (code : Nat) (info x1 x3 : Word) : State :=
  let w := s.latch.word
  match bcFormat (bits w 7 0) with
  | .k => s.leaveTo code info s.c.bpc x1 x3 (signExt (bits w 31 16) 16) 0
  | .j => s.leaveTo code info s.c.bpc x1 x3 (signExt (bits w 31 8) 24) 0
  | _ => s.loadRegs [bits w 23 16, bits w 31 24] fun v s =>
    s.leaveTo code info s.c.bpc x1 x3 (v.getD 0 0) (v.getD 1 0)

/-- GUARD (R326). A J-format instruction names no f[a]; what x3 is for it is not given: a free value (log entry 18). -/
def State.guardExit (s : State) (x1 info : Word) : State :=
  let w := s.latch.word
  if bcFormat (bits w 7 0) = .j then s.spend.exitBy Code.guard info x1 s.freeWord
  else s.exitBy Code.guard info x1 (s.c.frame (bits w 15 8))

/-- TXILL with details 3 to 8 (R327): x3 is 0 where the opcode names no f[a]. -/
def State.txill (s : State) (detail : Nat) : State :=
  let w := s.latch.word
  let op := bits w 7 0
  s.exitBy Code.txill (toWord detail) 0
    (if bcFormat op = .j || op = 0x00 || op = 0x25 then 0 else s.c.frame (bits w 15 8))

/-- TXILL with details 1 and 2: the instruction has no fields that count. -/
def State.txillBare (s : State) (detail : Nat) (bpc : Word) : State :=
  s.leaveTo Code.txill (toWord detail) bpc 0 0 0 0

/-! ### The fetch (R315, R316, R327, R360) -/

/-- Load n bytes, or the state after the trap. -/
def State.tryLoad (s : State) (va : Word) (n : Nat) : Except State (Nat × State) :=
  match s.tryPlace va n 0 with
  | .error s => .error s
  | .ok (t, s) =>
    match s.placeRead t n with
    | (s, .ok v) => .ok (v, s)
    | (s, .error code) => .error (s.trap code va)

/-- Fetch two bytes of bytecode: from paged addresses only. -/
def State.fetchHalf (s : State) (va : Word) : Except State (Nat × State) :=
  if bits va 63 60 = 0 || bits va 63 60 = 15 then .error (s.trap Code.prot va)
  else match s.tryPlace va 2 3 with
    | .error s => .error s
    | .ok (t, s) =>
      match s.placeRead t 2 with
      | (s, .ok v) => .ok (v, s)
      | (s, .error code) => .error (s.trap code va)

/-- The bytes from the third on. -/
def State.fetchRest (s : State) (bpc : Word) (lo len : Nat) : Except State (BitVec 48 × Nat × State) :=
  match s.fetchHalf (bpc + 2) with
  | .error s => .error s
  | .ok (mid, s) =>
    if len = 4 then .ok (BitVec.ofNat 48 (lo + mid * 2 ^ 16), 4, s)
    else match s.fetchHalf (bpc + 4) with
      | .error s => .error s
      | .ok (hi, s) => .ok (BitVec.ofNat 48 (lo + mid * 2 ^ 16 + hi * 2 ^ 32), 6, s)

/-- Fetch the instruction at bpc with its length; TXILL detail 1 where it does not lie in the code. -/
def State.bytecodeFetch (s : State) : Except State (BitVec 48 × Nat × State) :=
  let bpc := s.c.bpc
  match s.tryLoad s.c.cd 8 with
  | .error s => .error s
  | .ok (code, s) =>
    match s.tryLoad (s.c.cd + 8) 4 with
    | .error s => .error s
    | .ok (clen, s) =>
      if bit bpc 0 || bpc.toNat < code || code + clen ≤ bpc.toNat then .error (s.txillBare 1 bpc)
      else match s.fetchHalf bpc with
        | .error s => .error s
        | .ok (lo, s) =>
          let len := bcLength (lo % 256)
          if code + clen < bpc.toNat + len then .error (s.txillBare 1 bpc) else s.fetchRest bpc lo len

/-! ### The operand checks (R327) -/

/-- What an instruction names: frame registers, a constant, a cache slot, a jump's offset. -/
structure BcNames where
  regs : List Nat := []
  const : Option Nat := none
  ic : Option Nat := none
  jump : Option Word := none

/-- Run a bytecode instruction whose operands pass; the continuation gets the core's number and the descriptor. -/
def State.onBytecode (s : State) (x : BcNames) (k : Nat → Desc → State → State) : State :=
  match s.cur with
  | .facet _ _ _ => s.trapWord Code.feature
  | .crest core _ => s.readDesc s.c.cd fun d s =>
    if x.regs.any fun r => d.nframe ≤ r then s.txill 3
    else if x.const.any fun n => d.npool ≤ n then s.txill 4
    else if x.ic.any fun n => d.nic ≤ n then s.txill 5
    else if x.jump.any fun o => bit o 0 then s.txill 6
    else k core.val d s

/-- The instruction is over and does not jump. -/
def State.bcNext (s : State) : State := s.mod fun c => c.setXn 19 (c.bpc + toWord s.latch.len)

/-- Go on at a bytecode address. -/
def State.bcJump (s : State) (dest : Word) : State := s.mod fun c => c.setXn 19 dest

/-! ### Counted writes (R321, R322, R325) -/

/-- What an instruction writes: plain stores, values counted without a write, counted or initialising writes (the last
marked), and the frame registers it releases, by address. -/
structure Plan where
  stores : List (Word × Word) := []
  raises : List Word := []
  writes : List (Word × Word × Bool) := []
  frees : List Word := []

/-- One step of a plan; `plain` marks a plain store. A counted write swaps its value in and keeps the old one, and `settle` releases
the values so kept. -/
inductive BcOp where
  | store (va v : Word) (plain : Bool)
  | swap (va v : Word)
  | settle
  | raise (v : Word)
  | release (v : Word)
  | hold (v : Word)
  | lower (v : Word)
deriving DecidableEq, Repr

/-- Performing a plan: the state, whether anything has been written, the first refusal before that, and the values that counted
writes have replaced, in increasing order of address. -/
structure Commit where
  s : State
  done : Bool
  failed : Option (Nat × Word)
  olds : List (Word × Word)

/-- The place of an access that has been checked. -/
def State.placeOf (s : State) (va : Word) (n kind : Nat) : Target :=
  match s.check s.cur s.c.spc va n kind s.c.kernel with
  | .ok t => t
  | _ => .device 0 va

/-- What a home answered: a refusal after the first write, or of a plain store, is a late fault (R122, R325, R335). -/
def Commit.answer (x : Commit) (plain : Bool) (va : Word) (r : State × Except Nat Nat) : Commit × Option Nat :=
  match r with
  | (s, .ok v) => ({ x with s := s, done := true }, some v)
  | (s, .error code) =>
    if x.done || plain then
      ({ x with s := s.addLate s.cur ⟨BitVec.ofNat 8 code, va, none, none, false⟩, done := true }, none)
    else ({ x with s := s, failed := some (code, va) }, none)

/-- Change a header; the continuation sees the old one. -/
def Commit.header (x : Commit) (v : Word) (op : HeaderOp) (after : Nat → State → State) : Commit :=
  let r := x.answer false (v - 1) (x.s.placeChange (x.s.placeOf (v - 1) 16 2) 16 .header op.payload op.apply)
  match r.2 with
  | some h => { r.1 with s := after h r.1.s }
  | none => r.1

/-- Insert a replaced value in increasing order of address. -/
def insertOld (x : Word × Word) : List (Word × Word) → List (Word × Word)
  | [] => [x]
  | y :: rest => if x.1.toNat < y.1.toNat then x :: y :: rest else y :: insertOld x rest

/-- The counted write itself: one indivisible swap at the slot's home (R321, R335). -/
def Commit.swap (x : Commit) (va v : Word) : Commit :=
  let r := x.answer false va (x.s.placeChange (x.s.placeOf va 8 2) 8 (.amo .swap) (toBytes 8 v.toNat) fun _ => v.toNat)
  match r.2 with
  | some old => { r.1 with olds := insertOld (va, toWord old) r.1.olds }
  | none => r.1

/-- Release() of a value, if it is an object, at a core (R321). -/
def Commit.release (core : Nat) (x : Commit) (v : Word) : Commit :=
  if isObject v then x.header v .release fun h s => s.enqueueIf (hdrRelease h).2 core v else x

/-- Perform one step at a core. -/
def Commit.run (core : Nat) (x : Commit) (op : BcOp) : Commit :=
  if x.failed.isSome then x
  else match op with
    | .store va v plain => (x.answer plain va (x.s.placeWrite (x.s.placeOf va 8 1) 8 v.toNat)).1
    | .swap va v => x.swap va v
    | .settle => { x.olds.foldl (fun x old => x.release core old.2) x with olds := [] }
    | .raise v => if isObject v then x.header v .raise fun _ s => s else x
    | .release v => x.release core v
    | .hold v => x.header v .hold fun _ s => s
    | .lower v =>
      x.header v .lower fun h s =>
        let y := hdrLower h 1
        (if y.2.2 then s.modRelq core fun q => { q with herr := true } else s).enqueueIf y.2.1 core v

/-- Perform steps in order; `done` says that the instruction has written already. A refusal before the first write is precise, one
after it a late fault (R325). -/
def State.perform (s : State) (done : Bool) (core : Nat) (ops : List BcOp) (k : State → State) : State :=
  let x := ops.foldl (Commit.run core) ⟨s, done, none, []⟩
  match x.failed with
  | some (code, va) => x.s.trap code va
  | none => k x.s

/-- Check the addresses of plain stores. -/
def State.checkStores (s : State) : List (Word × Word) → (State → State) → State
  | [], k => k s
  | (va, _) :: rest, k => s.crestPlace va 8 1 fun _ s => s.checkStores rest k

/-- Check the addresses of counted writes and read what a counted one will replace, for the checks of R325: what it releases is what
its swap then returns. -/
def State.checkWrites (s : State) :
    List (Word × Word × Bool) → List (Word × Word) → (List (Word × Word) → State → State) → State
  | [], olds, k => k olds.reverse s
  | (va, _, init) :: rest, olds, k =>
    s.crestPlace va 8 (if init then 1 else 2) fun t s =>
      if init then s.checkWrites rest olds k
      else State.orTrap (s.placeRead t 8) va fun v s => s.checkWrites rest ((va, toWord v) :: olds) k

/-- Check the headers of the objects among some values. -/
def State.checkHeaders (s : State) : List Word → (State → State) → State
  | [], k => k s
  | v :: rest, k =>
    if isObject v then s.crestPlace (v - 1) 16 2 fun _ s => s.checkHeaders rest k else s.checkHeaders rest k

/-- Load the words of some addresses. -/
def State.loadWords (s : State) : List Word → List Word → (List Word → State → State) → State
  | [], acc, k => k acc.reverse s
  | va :: rest, acc, k => s.crestLoad va 8 fun v s => s.loadWords rest (toWord v :: acc) k

/-- The value that a released frame register holds once the plan's writes are done. -/
def Plan.freed (p : Plan) (va old : Word) : Word :=
  match p.writes.find? fun w => w.1 = va with
  | some w => w.2.1
  | none => old

/-- Check a plan whole (R325): every address and every translation; the continuation gets its steps in order: stores, raises,
writes, releases (R322). Where it releases an object, or where a counted write goes to another device, whose swap may return one, it
is a release (R51, R321). -/
def State.checkPlan (s : State) (p : Plan) (k : List BcOp → State → State) : State :=
  s.checkStores p.stores fun s => s.checkWrites p.writes [] fun olds s => s.loadWords p.frees [] fun vals s =>
    let raises := p.raises ++ p.writes.map fun w => w.2.1
    let olds := (olds.foldl (fun l x => insertOld x l) []).map Prod.snd
    let releases := olds ++ (p.frees.zip vals).map fun (va, v) => p.freed va v
    s.checkHeaders (raises ++ releases) fun s =>
      let ops := p.stores.map (fun (va, v) => BcOp.store va v true) ++ raises.map BcOp.raise ++
        p.writes.map (fun (va, v, init) => if init then BcOp.store va v true else .swap va v) ++ [BcOp.settle] ++
        ((p.frees.zip vals).map fun (va, v) => BcOp.release (p.freed va v))
      let far := p.writes.any fun w => !w.2.2 && !s.ownSpace s.c.spc
      if far || releases.any isObject then s.afterRelease (k ops) else k ops s

/-- Check a plan, perform it, and go on. -/
def State.commit (s : State) (core : Nat) (p : Plan) (k : State → State) : State :=
  s.checkPlan p fun ops s => s.perform false core ops k

/-- f[a] ← v, counted; then the next instruction. -/
def State.putReg (s : State) (core a : Nat) (v : Word) : State :=
  s.commit core { writes := [(s.c.frame a, v, false)] } State.bcNext

/-! ### Allocation (R332, R339) -/

/-- Take n bytes at rb.aptr, or leave by GUARD; the continuation gets the object's address. -/
def State.allocate (s : State) (n : Nat) (x1 : Word) (k : Word → State → State) : State :=
  s.crestLoad (s.c.rb + 8) 8 fun aptr s => s.crestLoad (s.c.rb + 16) 8 fun alim s =>
    if alim < aptr + n then s.guardExit x1 0 else k (toWord aptr) s

/-- The plan of a new object: aptr, the two header words and initialised slots, then f[a]. -/
def newPlan (c : Ctx) (o : Word) (size layout kind length : Nat) (slots : List Word) (a : Nat) (raw : List Word) : Plan :=
  { stores := [(c.rb + 8, o + toWord size), (o, toWord layout), (o + 8, toWord (kind * 2 ^ 40 + length))] ++
      raw.zipIdx.map fun (v, i) => (o + toWord (16 + 8 * i), v)
    writes := (slots.zipIdx.map fun (v, i) => (o + toWord (16 + 8 * (raw.length + i)), v, true)) ++
      [(c.frame a, o + 1, false)] }

/-! ### Inline caches (R336 to R340, R346) -/

/-- An entry's fields. -/
def icLayout (e : Nat) : Nat := bitsN e 31 0
/-- kind. -/
def icKind (e : Nat) : Nat := bitsN e 35 32
/-- State: 0 empty, 1 mono, 2 poly, 3 mega. -/
def icState (e : Nat) : Nat := bitsN e 41 40
/-- cver. -/
def icVersion (e : Nat) : Nat := bitsN e 63 48
/-- target. -/
def icTarget (e : Nat) : Word := toWord (bitsN e 127 64)

/-- A signature that a TCALL matched: queue, kernel id, tensor mask and the arguments. -/
structure Call where
  queue : Nat
  kid : Nat
  tmask : Nat
  args : List Word

/-- What a hit gives: the place of a slot or item, a value, a binding's datum, a class to instantiate (layout, slots), a call. -/
inductive Hit where
  | place (va : Word)
  | value (v : Word)
  | fresh (layout slots : Nat)
  | call (c : Call)

/-- The version of the class that a binding record names holds (R338). -/
def State.versionHolds (s : State) (binding : Word) (cver : Nat) (yes no : State → State) : State :=
  s.crestLoad binding 8 fun c s =>
    let c := toWord c
    if !isObject c then no s
    else s.crestLoad (c - 1) 16 fun h s =>
      if hdrKind h ≠ kindClass then no s
      else s.crestLoad (c + 15) 8 fun w s =>
        if isSmall (toWord w) && bits ((toWord w).sshiftRight 1) 15 0 = cver then yes s else no s

/-- The shape class of axis lengths (R346). -/
def shapeClass (ds : List Nat) : Nat :=
  (ds.zipIdx.map fun (d, k) => (if d % 32 = 0 then 2 ^ (2 * k) else 0) + (if d ≤ 512 then 2 ^ (2 * k + 1) else 0)).sum

/-- Does one argument match its 8 bytes of the signature (R346)? -/
def State.argMatches (s : State) (tensor : Bool) (sig : Nat) (v : Word) (yes no : State → State) : State :=
  if !tensor then (if isSmall v || isImmediate v then yes s else no s)
  else if !isObject v then no s
  else s.crestLoad (v - 1) 16 fun h s =>
    if hdrKind h ≠ kindTensor || hdrLayout h ≠ bitsN sig 31 0 || hdrHold h = 0xFFFF then no s
    else s.crestLoads (v + 31) [(0, 1), (1, 1), (16, 4), (20, 4), (24, 4), (28, 4)] [] fun r s =>
      if r.getD 0 0 = bitsN sig 39 32 && r.getD 1 0 = bitsN sig 47 40 && shapeClass (r.drop 2) = bitsN sig 55 48 then yes s
      else no s

/-- All arguments match. -/
def State.argsMatch (s : State) : List (Bool × Nat × Word) → (State → State) → (State → State) → State
  | [], yes, _ => yes s
  | (tensor, sig, v) :: rest, yes, no => s.argMatches tensor sig v (fun s => s.argsMatch rest yes no) no

/-- The signature guard of TCALL: f[b] is the kernel, c its number of arguments (R346). A record with n outside 1 to 6 matches
nothing (DEDUCED, log entry 39). -/
def State.signatureHit (s : State) (sig : Word) (b c : Nat) (hit : Hit → State → State) (miss : State → State) : State :=
  s.crestLoads sig ((0, 2) :: (2, 1) :: (3, 1) :: (4, 4) :: (56, 8) :: (List.range 6).map fun i => (8 + 8 * i, 8)) [] fun v s =>
    let n := v.getD 1 0
    let tmask := v.getD 2 0
    s.loadReg b fun kernel s =>
      if kernel.toNat ≠ v.getD 4 0 || c ≠ n || n = 0 || 6 < n then miss s
      else s.loadRegs ((List.range n).map fun i => b + 1 + i) fun args s =>
        s.argsMatch (args.zipIdx.map fun (x, i) => (tmask / 2 ^ i % 2 = 1, v.getD (5 + i) 0, x))
          (hit (.call ⟨v.getD 0 0 % 2 ^ 12, v.getD 3 0, tmask, args⟩)) miss

/-- The item of a list or tuple that f[c] names (R338, kind 4). -/
def State.itemHit (s : State) (recv : Word) (h c : Nat) (set : Bool) (hit : Hit → State → State) (miss : State → State) :
    State :=
  if !(hdrKind h = kindList || (hdrKind h = kindTuple && !set)) || (set && hdrFrozen h) then miss s
  else s.loadReg c fun w s =>
    let i := smallVal w
    if !isSmall w || i < 0 then miss s
    else if hdrKind h = kindTuple then
      if i < hdrLength h then hit (.place (recv + 15 + toWord (8 * i.toNat))) s else miss s
    else s.crestLoad (recv + 15) 8 fun n s =>
      if !isSmall (toWord n) || smallVal (toWord n) ≤ i then miss s
      else s.crestLoad (recv + 23) 8 fun store s => hit (.place (toWord store + toWord (8 * i.toNat))) s

/-- The conditions of a mono entry for an opcode (R338). -/
def State.entryHit (s : State) (op b c e : Nat) (hit : Hit → State → State) (miss : State → State) : State :=
  let target := icTarget e
  let set := op = 0x06 || op = 0x08 || op = 0x0A
  let receiver := fun (k : Word → Nat → State → State) (s : State) => s.loadReg b fun v s =>
    if !isObject v then miss s
    else s.crestLoad (v - 1) 16 fun h s => if hdrLayout h ≠ icLayout e then miss s else k v h s
  match icKind e with
  | 1 =>
    if !(op = 0x07 || op = 0x08) then miss s
    else receiver (fun v h s =>
      let i := bits target 15 0
      if hdrLength h ≤ i || (set && hdrFrozen h) then miss s else hit (.place (v + 15 + toWord (8 * i))) s) s
  | 2 =>
    if op ≠ 0x07 then miss s
    else receiver (fun _ _ s => s.versionHolds target (icVersion e)
      (fun s => s.crestLoad (target + 8) 8 fun d s => hit (.value (toWord d)) s) miss) s
  | 3 =>
    if !(op = 0x05 || op = 0x06) then miss s
    else s.versionHolds target (icVersion e) (hit (.place (target + 8))) miss
  | 4 =>
    if !(op = 0x09 || op = 0x0A) then miss s
    else receiver (fun v h s => s.itemHit v h c set hit miss) s
  | 5 =>
    if op ≠ 0x21 then miss s
    else s.loadReg b fun v s => s.crestLoad target 8 fun d s =>
      if v.toNat ≠ d then miss s
      else s.versionHolds target (icVersion e)
        (fun s => s.crestLoad (target + 8) 8 fun d s => s.crestLoad (s.c.rb + 8) 8 fun aptr s =>
          s.crestLoad (s.c.rb + 16) 8 fun alim s =>
            if alim < aptr + roundUp (16 + 8 * bitsN d 47 32) 16 then miss s
            else hit (.fresh (bitsN d 31 0) (bitsN d 47 32)) s) miss
  | 6 => if op ≠ 0x1C then miss s else s.signatureHit target b c hit miss
  | _ => miss s

/-- The sub-entries of a poly record in order (R337). -/
def State.polyHit (s : State) (op b c : Nat) (record : Word) (hit : Hit → State → State) (miss : State → State) :
    List Nat → State
  | [] => miss s
  | i :: rest => s.crestLoad (record + toWord (16 * i)) 16 fun e s =>
    if icState e ≠ 1 then s.polyHit op b c record hit miss rest
    else s.entryHit op b c e hit fun s => s.polyHit op b c record hit miss rest

/-- The guard of an entry by its state (R337); a miss leaves by GUARD with the entry's address in x1. -/
def State.icGuard (s : State) (op b c : Nat) (ea : Word) (hit : Hit → State → State) : State :=
  let miss := fun (s : State) => s.guardExit ea 0
  s.crestLoad ea 16 fun e s =>
    match icState e with
    | 1 => s.entryHit op b c e hit miss
    | 2 => s.polyHit op b c (icTarget e) hit miss [0, 1, 2, 3]
    | _ => miss s

end Sys2Proof.Machine
end

