-- ==== Sys2Proof/Machine/Tsupix.lean ====
section
/-! DEFINITION. The Tsupix opcodes, TCALL's push, and the instructions that enter bytecode mode (R328 to R334, R339, R343,
R344, R347). -/

namespace Sys2Proof.Machine

/-! ### Moves and constants -/

/-- NOP. -/
def execTsupixNop (s : State) : Out := .next (s.onBytecode {} fun _ _ s => s.bcNext)

/-- MOVE. -/
def execTsupixMove (b a : BitVec 8) (s : State) : Out :=
  .next (s.onBytecode { regs := [a.toNat, b.toNat] } fun core _ s =>
    s.loadReg b.toNat fun v s => s.putReg core a.toNat v)

/-- LOADK. -/
def execTsupixLoadk (k : BitVec 16) (a : BitVec 8) (s : State) : Out :=
  .next (s.onBytecode { regs := [a.toNat], const := some k.toNat } fun core d s =>
    s.crestLoad (d.pool + toWord (8 * k.toNat)) 8 fun v s => s.putReg core a.toNat (toWord v))

/-- LOADI. -/
def execTsupixLoadi (k : BitVec 16) (a : BitVec 8) (s : State) : Out :=
  .next (s.onBytecode { regs := [a.toNat] } fun core _ s => s.putReg core a.toNat (immS k <<< 1))

/-- DROP. -/
def execTsupixDrop (a : BitVec 8) (s : State) : Out :=
  .next (s.onBytecode { regs := [a.toNat] } fun core _ s => s.putReg core a.toNat txNone)

/-! ### Attributes, items and globals (R338) -/

/-- An instruction that reads through its inline cache. -/
def State.icRead (s : State) (x : BcNames) (op a b c : Nat) (ic : BitVec 16) : State :=
  s.onBytecode { x with ic := some ic.toNat } fun core d s =>
    let ea := d.ictab + toWord (16 * ic.toNat)
    s.icGuard op b c ea fun hit s =>
      match hit with
      | .place va => s.crestLoad va 8 fun v s => s.putReg core a (toWord v)
      | .value v => s.putReg core a v
      | _ => s.guardExit ea 0

/-- An instruction that writes f[a] through its inline cache: a counted write of the slot, item or datum. -/
def State.icWrite (s : State) (x : BcNames) (op a b c : Nat) (ic : BitVec 16) : State :=
  s.onBytecode { x with ic := some ic.toNat } fun core d s =>
    let ea := d.ictab + toWord (16 * ic.toNat)
    s.icGuard op b c ea fun hit s =>
      match hit with
      | .place va => s.loadReg a fun v s => s.commit core { writes := [(va, v, false)] } State.bcNext
      | _ => s.guardExit ea 0

/-- GETGLOBAL. -/
def execTsupixGetglobal (a x y : BitVec 8) (i : BitVec 16) (s : State) : Out :=
  .next (s.icRead { regs := [a.toNat], const := some (x.toNat + 256 * y.toNat) } 0x05 a.toNat x.toNat y.toNat i)

/-- SETGLOBAL. -/
def execTsupixSetglobal (a x y : BitVec 8) (i : BitVec 16) (s : State) : Out :=
  .next (s.icWrite { regs := [a.toNat], const := some (x.toNat + 256 * y.toNat) } 0x06 a.toNat x.toNat y.toNat i)

/-- GETATTR. -/
def execTsupixGetattr (a x y : BitVec 8) (i : BitVec 16) (s : State) : Out :=
  .next (s.icRead { regs := [a.toNat, x.toNat], const := some y.toNat } 0x07 a.toNat x.toNat y.toNat i)

/-- SETATTR. -/
def execTsupixSetattr (a x y : BitVec 8) (i : BitVec 16) (s : State) : Out :=
  .next (s.icWrite { regs := [a.toNat, x.toNat], const := some y.toNat } 0x08 a.toNat x.toNat y.toNat i)

/-- GETITEM. -/
def execTsupixGetitem (a x y : BitVec 8) (i : BitVec 16) (s : State) : Out :=
  .next (s.icRead { regs := [a.toNat, x.toNat, y.toNat] } 0x09 a.toNat x.toNat y.toNat i)

/-- SETITEM. -/
def execTsupixSetitem (a x y : BitVec 8) (i : BitVec 16) (s : State) : Out :=
  .next (s.icWrite { regs := [a.toNat, x.toNat, y.toNat] } 0x0A a.toNat x.toNat y.toNat i)

/-! ### Arithmetic and comparison -/

/-- Two small integers to a value; anything else, and no result, leaves by GUARD (R326, R328). -/
def State.bcBinary (s : State) (a b c : BitVec 8) (f : Word → Word → Option Word) : State :=
  s.onBytecode { regs := [a.toNat, b.toNat, c.toNat] } fun core _ s =>
    s.loadReg b.toNat fun x s => s.loadReg c.toNat fun y s =>
      match f x y with
      | some v => s.putReg core a.toNat v
      | none => s.guardExit 0 0

/-- A small-integer result that fits. -/
def fitted (v : Int) : Option Word := if smallFits v then some (smallWord v) else none

/-- Two small integers to one. -/
def smallOp (f : Int → Int → Option Int) (x y : Word) : Option Word :=
  if isSmall x && isSmall y then (f (smallVal x) (smallVal y)).bind fitted else none

/-- Two small integers to a Boolean. -/
def smallCmp (f : Int → Int → Bool) (x y : Word) : Option Word :=
  if isSmall x && isSmall y then some (txBool (f (smallVal x) (smallVal y))) else none

/-- ADD. -/
def execTsupixAdd (c b a : BitVec 8) (s : State) : Out := .next (s.bcBinary a b c (smallOp fun x y => some (x + y)))
/-- SUB. -/
def execTsupixSub (c b a : BitVec 8) (s : State) : Out := .next (s.bcBinary a b c (smallOp fun x y => some (x - y)))
/-- MUL. -/
def execTsupixMul (c b a : BitVec 8) (s : State) : Out := .next (s.bcBinary a b c (smallOp fun x y => some (x * y)))
/-- FLOORDIV. -/
def execTsupixFloordiv (c b a : BitVec 8) (s : State) : Out :=
  .next (s.bcBinary a b c (smallOp fun x y => if y = 0 then none else some (Int.fdiv x y)))
/-- MOD: the result takes the sign of the divisor or is 0. -/
def execTsupixMod (c b a : BitVec 8) (s : State) : Out :=
  .next (s.bcBinary a b c (smallOp fun x y => if y = 0 then none else some (x - y * Int.fdiv x y)))
/-- LT. -/
def execTsupixLt (c b a : BitVec 8) (s : State) : Out := .next (s.bcBinary a b c (smallCmp fun x y => decide (x < y)))
/-- LE. -/
def execTsupixLe (c b a : BitVec 8) (s : State) : Out := .next (s.bcBinary a b c (smallCmp fun x y => decide (x ≤ y)))
/-- EQ: both small integers, or both immediates. -/
def execTsupixEq (c b a : BitVec 8) (s : State) : Out :=
  .next (s.bcBinary a b c fun x y =>
    if (isSmall x && isSmall y) || (isImmediate x && isImmediate y) then some (txBool (x = y)) else none)

/-- TRUEDIV has no fast path: its operands are checked and it leaves by GUARD (R328). -/
def execTsupixTruediv (c b a : BitVec 8) (s : State) : Out :=
  .next (s.onBytecode { regs := [a.toNat, b.toNat, c.toNat] } fun _ _ s => s.guardExit 0 0)
/-- MATMUL has no fast path. -/
def execTsupixMatmul (c b a : BitVec 8) (s : State) : Out :=
  .next (s.onBytecode { regs := [a.toNat, b.toNat, c.toNat] } fun _ _ s => s.guardExit 0 0)

/-- One operand to a value, or GUARD. -/
def State.bcUnary (s : State) (a b : BitVec 8) (f : Word → Option Word) : State :=
  s.onBytecode { regs := [a.toNat, b.toNat] } fun core _ s => s.loadReg b.toNat fun x s =>
    match f x with
    | some v => s.putReg core a.toNat v
    | none => s.guardExit 0 0

/-- NEG. -/
def execTsupixNeg (b a : BitVec 8) (s : State) : Out :=
  .next (s.bcUnary a b fun x => if isSmall x then fitted (-smallVal x) else none)
/-- NOT. -/
def execTsupixNot (b a : BitVec 8) (s : State) : Out :=
  .next (s.bcUnary a b fun x => (truth x).map fun t => txBool (!t))

/-! ### Jumps and loops (R329) -/

/-- JMP. -/
def execTsupixJmp (j : BitVec 24) (s : State) : Out :=
  .next (let off := j.signExtend 64
    s.onBytecode { jump := some off } fun _ _ s => s.bcJump (s.c.bpc + off))

/-- A conditional jump on the truth of f[a]. -/
def State.bcBranch (s : State) (k : BitVec 16) (a : BitVec 8) (on : Bool) : State :=
  s.onBytecode { regs := [a.toNat], jump := some (immS k) } fun _ _ s => s.loadReg a.toNat fun v s =>
    match truth v with
    | none => s.guardExit 0 0
    | some t => if t = on then s.bcJump (s.c.bpc + immS k) else s.bcNext

/-- JMPIF. -/
def execTsupixJmpif (k : BitVec 16) (a : BitVec 8) (s : State) : Out := .next (s.bcBranch k a true)
/-- JMPIFNOT. -/
def execTsupixJmpifnot (k : BitVec 16) (a : BitVec 8) (s : State) : Out := .next (s.bcBranch k a false)

/-- FORITER. -/
def execTsupixForiter (k : BitVec 16) (a : BitVec 8) (s : State) : Out :=
  .next (let n := a.toNat
    s.onBytecode { regs := [n, n + 1, n + 2], jump := some (immS k) } fun core _ s =>
      s.loadReg n fun x s => s.loadReg (n + 1) fun y s =>
        if !isSmall x || !isSmall y then s.guardExit 0 0
        else if smallVal x < smallVal y then
          s.commit core { writes := [(s.c.frame (n + 2), x, false), (s.c.frame n, smallWord (smallVal x + 1), false)] }
            State.bcNext
        else s.bcJump (s.c.bpc + immS k))

/-! ### CALL, RETURN and entering (R330, R331, R343, R344) -/

/-- The frame registers of a run of n from r on. -/
def runRegs (r n : Nat) : List Nat := (List.range n).map fun i => r + i

/-- CALL. -/
def execTsupixCall (a x y : BitVec 8) (i : BitVec 16) (s : State) : Out :=
  .next (let b := x.toNat
    let n := y.toNat
    s.onBytecode { regs := a.toNat :: runRegs b (n + 1), ic := some i.toNat } fun core d s =>
      let ea := d.ictab + toWord (16 * i.toNat)
      s.loadReg b fun f s =>
        if !isObject f then s.guardExit ea 0
        else s.crestLoad (f - 1) 16 fun h s =>
          if hdrKind h ≠ kindFunction then s.guardExit ea 0
          else s.crestLoad (f + 15) 8 fun cd s => s.readDesc (toWord cd) fun d' s =>
            let nf := s.c.fb.toNat + 8 * d.nframe + 32
            if d'.nparam ≠ n || s.c.fl.toNat < nf + 8 * d'.nframe then s.guardExit ea 0
            else s.loadRegs (runRegs (b + 1) n) fun args s =>
              let c := s.c
              let at_ := fun i => toWord (nf + 8 * i)
              let plan : Plan :=
                { stores := [(toWord (nf - 32), c.fb), (toWord (nf - 24), c.bpc + 6), (toWord (nf - 16), c.cd),
                             (toWord (nf - 8), toWord a.toNat)]
                  writes := (List.range d'.nframe).map fun i => (at_ i, args.getD i txNone, true) }
              s.commit core plan fun s => s.mod fun c =>
                ((c.setXn 18 (toWord nf)).setXn 20 (toWord cd)).setXn 19 (toWord d'.code))

/-- RETURN. -/
def execTsupixReturn (a : BitVec 8) (s : State) : Out :=
  .next (s.onBytecode { regs := [a.toNat] } fun core d s =>
    s.crestLoads (s.c.fb - 32) [(0, 8), (8, 8), (16, 8), (24, 8)] [] fun h s => s.loadReg a.toNat fun r s =>
      let caller := h.getD 0 0
      let frees := (List.range d.nframe).map s.c.frame
      if caller = 0 then
        s.commit core { raises := [r], frees := frees } fun s => s.mod fun c =>
          { c.setXn 1 r with pc := toWord (h.getD 1 0) &&& ~~~3, bytecode := false }
      else
        s.commit core { writes := [(toWord (caller + 8 * (h.getD 3 0 % 256)), r, false)], frees := frees } fun s =>
          s.mod fun c => ((c.setXn 18 (toWord caller)).setXn 19 (toWord (h.getD 1 0))).setXn 20 (toWord (h.getD 2 0)))

/-- tx.enter. -/
def execTxEnter (a b : BitVec 5) (s : State) : Out :=
  .next (s.onBridge fun core s =>
    let f := s.c.getX a
    let fb := s.c.getX b
    s.needAligned fb 8 fun s =>
      if !isObject f then s.trap Code.txill 9
      else s.crestLoad (f - 1) 16 fun h s =>
        if hdrKind h ≠ kindFunction then s.trap Code.txill 9
        else s.crestLoad (f + 15) 8 fun cd s => s.readDesc (toWord cd) fun d s =>
          if s.c.fl.toNat < fb.toNat + 8 * d.nframe then s.trap Code.txill 10
          else
            let plan : Plan :=
              { stores := [(fb - 32, 0), (fb - 24, s.c.pc + 4), (fb - 16, s.c.cd), (fb - 8, 0)]
                writes := ((List.range d.nframe).drop d.nparam).map fun i => (fb + toWord (8 * i), txNone, true) }
            s.commit core plan fun s => s.mod fun c =>
              { ((c.setXn 18 fb).setXn 20 (toWord cd)).setXn 19 (toWord d.code) with bytecode := true })

/-- tx.resume. -/
def execTxResume (a : BitVec 5) (s : State) : Out :=
  .next (s.onBridge fun _ s =>
    let v := s.c.getX a
    if bit v 0 then s.mod fun c => c.goto v else s.trap Code.align v)

/-- tx.resume.skip: past the instruction at the address; an unassigned opcode leaves by TXILL with detail 2 there. -/
def execTxResumeSkip (a : BitVec 5) (s : State) : Out :=
  .next (s.onBridge fun _ s =>
    let v := s.c.getX a
    if !bit v 0 then s.trap Code.align v
    else
      let at_ := v - 1
      s.crestLoad at_ 1 fun op s =>
        if 0x27 ≤ op then s.txillBare 2 at_ else s.mod fun c => c.goto (v + toWord (bcLength op)))

/-! ### Allocation (R332, R339) -/

/-- NEWTUPLE. -/
def execTsupixNewtuple (c b a : BitVec 8) (s : State) : Out :=
  .next (let n := c.toNat
    s.onBytecode { regs := a.toNat :: b.toNat :: runRegs b.toNat n } fun core _ s =>
      let size := roundUp (16 + 8 * n) 16
      s.allocate size 0 fun o s => s.crestLoad (s.c.rb + 0x38) 4 fun layout s =>
        s.loadRegs (runRegs b.toNat n) fun vs s =>
          s.commit core (newPlan s.c o size layout kindTuple n vs a.toNat []) State.bcNext)

/-- NEWLIST. -/
def execTsupixNewlist (c b a : BitVec 8) (s : State) : Out :=
  .next (let n := c.toNat
    s.onBytecode { regs := a.toNat :: b.toNat :: runRegs b.toNat n } fun core _ s =>
      let m := roundUp (max n 4) 2
      let size := 48 + 8 * m
      s.allocate size 0 fun o s => s.crestLoad (s.c.rb + 0x3C) 4 fun layout s =>
        s.loadRegs (runRegs b.toNat n) fun vs s =>
          let raw := [toWord (2 * n), o + 48, toWord (2 * m)]
          let p := newPlan s.c o size layout kindList 3 [] a.toNat raw
          let items := (List.range m).map fun i => (o + toWord (48 + 8 * i), vs.getD i txNone, true)
          s.commit core { p with writes := items ++ p.writes } State.bcNext)

/-- NEWDICT has no fast path. -/
def execTsupixNewdict (a : BitVec 8) (s : State) : Out :=
  .next (s.onBytecode { regs := [a.toNat] } fun _ _ s => s.guardExit 0 0)

/-- NEWOBJ. -/
def execTsupixNewobj (a x y : BitVec 8) (i : BitVec 16) (s : State) : Out :=
  .next (s.onBytecode { regs := [a.toNat, x.toNat], ic := some i.toNat } fun core d s =>
    let ea := d.ictab + toWord (16 * i.toNat)
    s.icGuard 0x21 x.toNat y.toNat ea fun hit s =>
      match hit with
      | .fresh layout n =>
        let size := roundUp (16 + 8 * n) 16
        s.allocate size ea fun o s =>
          s.commit core (newPlan s.c o size layout kindObject n (List.replicate n txNone) a.toNat []) State.bcNext
      | _ => s.guardExit ea 0)

/-! ### TCALL and TSYNC (R333, R347) -/

/-- The work item of a TCALL. -/
def workItem (c : Call) (core ctx : Nat) (bpc : Word) : Vec :=
  BitVec.ofNat 512 (c.kid + c.args.length * 2 ^ 32 + c.tmask * 2 ^ 40 + (core % 32 + ctx % 2 * 2 ^ 7) * 2 ^ 48 +
    ((List.range 6).map fun i => (c.args.getD i txNone).toNat * 2 ^ (64 * (i + 1))).sum + bpc.toNat * 2 ^ 448)

/-- The tensor arguments. -/
def Call.tensors (c : Call) : List Word := (c.args.zipIdx.filter fun (_, i) => c.tmask / 2 ^ i % 2 = 1).map Prod.fst

/-- Push a work item as q.push does, PC admitting the core: the ticket, or the refusal code. -/
def State.pushCall (s : State) (n : Nat) (item : Vec) : State × Except Nat (BitVec 32) :=
  if s.mayPush s.cur n then s.pushItem n item else (s, .error Code.prot)

/-- A matched TCALL: f[a], its old value and the headers of the tensors are checked, the holds raised, the item pushed; a refusal
lowers the holds again and leaves by GUARD with the code. A home that refuses after the push or in the lowerings makes a late
fault (R325). -/
def State.tcall (s : State) (core : Nat) (a : Nat) (ea : Word) (c : Call) : State :=
  s.afterRelease fun s => s.checkPlan { raises := c.tensors, writes := [(s.c.frame a, 0, false)] } fun _ s =>
    s.perform false core (c.tensors.map BcOp.hold) fun s =>
      match s.pushCall c.queue (workItem c core (ctxNo s.cur) s.c.bpc) with
      | (s, .ok ticket) =>
        s.perform true core [.swap (s.c.frame a) (toWord (2 * ticket.toNat)), .settle] State.bcNext
      | (s, .error code) =>
        s.perform true core (c.tensors.reverse.map BcOp.lower) fun s => s.guardExit ea (toWord code)

/-- TCALL. -/
def execTsupixTcall (a x y : BitVec 8) (i : BitVec 16) (s : State) : Out :=
  .next (s.onBytecode { regs := a.toNat :: runRegs x.toNat (y.toNat + 1), ic := some i.toNat } fun core d s =>
    let ea := d.ictab + toWord (16 * i.toNat)
    s.icGuard 0x1C x.toNat y.toNat ea fun hit s =>
      match hit with
      | .call c => s.tcall core a.toNat ea c
      | _ => s.guardExit ea 0)

/-- TSYNC: parks until the tensor's hold reads 0. -/
def execTsupixTsync (a : BitVec 8) (s : State) : Out :=
  .next (s.onBytecode { regs := [a.toNat] } fun _ _ s => s.loadReg a.toNat fun v s =>
    if !isObject v then s.guardExit 0 0
    else s.crestLoad (v - 1) 16 fun h s =>
      if hdrKind h ≠ kindTensor then s.guardExit 0 0
      else if hdrHold h = 0 then s.bcNext else s.park (.tsync v))

/-! ### Handlers, RAISE and NATIVE (R325, R334) -/

/-- RAISE has no fast path. -/
def execTsupixRaise (a : BitVec 8) (s : State) : Out :=
  .next (s.onBytecode { regs := [a.toNat] } fun _ _ s => s.guardExit 0 0)

/-- TRY. -/
def execTsupixTry (j : BitVec 24) (s : State) : Out :=
  .next (let off := j.signExtend 64
    s.onBytecode { jump := some off } fun core _ s => s.crestLoad (s.c.rb + 0x30) 8 fun hlim s =>
      let c := s.c
      if hlim < c.hs.toNat + 32 then s.guardExit 0 0
      else s.commit core { stores := [(c.hs, c.bpc + off), (c.hs + 8, c.fb), (c.hs + 16, c.cd), (c.hs + 24, 0)] } fun s =>
        (s.mod fun c => c.setXn 22 (c.hs + 32)).bcNext)

/-- POPTRY. -/
def execTsupixPoptry (s : State) : Out :=
  .next (s.onBytecode {} fun _ _ s => s.crestLoad (s.c.rb + 0x28) 8 fun hbase s =>
    if s.c.hs.toNat ≤ hbase then s.txill 8 else (s.mod fun c => c.setXn 22 (c.hs - 32)).bcNext)

/-- NATIVE: leaves to the entry of the native table. -/
def execTsupixNative (k : BitVec 16) (a : BitVec 8) (s : State) : Out :=
  .next (s.onBytecode { regs := [a.toNat] } fun _ _ s => s.crestLoad (s.c.rb + 0x20) 4 fun ncnt s =>
    if ncnt ≤ k.toNat then s.txill 7
    else s.crestLoad (s.c.rb + 0x18) 8 fun ntab s => s.crestLoad (toWord ntab + toWord (8 * k.toNat)) 8 fun entry s =>
      let c := s.c
      s.leave 1 0 (k.setWidth 64) c.bpc (c.frame a.toNat) 0 0 0 (toWord entry))

/-- TSUPIX_UNASSIGNED_OPCODE: TXILL with detail 2 (R327). -/
def execTsupixUnassignedOpcode (_op : BitVec 8) (s : State) : Out :=
  .next (match s.cur with
    | .crest _ _ => s.txillBare 2 s.c.bpc
    | .facet _ _ _ => s.trapWord Code.feature)

end Sys2Proof.Machine
end

