-- ==== Sys2Proof/Machine/Wake.lean ====
section
/-! DEFINITION. PARK_WAKE: a parked context becomes ready once its condition holds, and runs its instruction again (R32,
R156, R396). A context that a unit serves (a mutex, a semaphore, a queue, a pool) is completed by the unit itself. -/

namespace Sys2Proof.Machine

/-- Does TSYNC run again: the hold of its tensor reads 0 in the context's own space, or its header is not to be seen without an
access that may fault or that another device answers (R333, R335)? -/
def State.holdFree (s : State) (a : Agent) (v : Word) : Bool :=
  match s.check a (s.ctx a).spc (v - 1) 16 0 (s.ctx a).kernel with
  | .ok (.loc l) => hdrHold (s.mem.read l 16) = 0
  | _ => true

/-- The condition of a park that the context itself looks at again. -/
def State.parkOver (s : State) (a : Agent) (why : Park) : Bool :=
  match why, a with
  | .mailbox, _ => !(s.entries a).isEmpty
  | .barrier ch p, .facet t _ _ => phaseComplete ((s.tile t.val).channel ch).count p
  | .arrive ch, .facet t f _ =>
    let x := (s.tile t.val).channel ch
    !x.mustWait f.val || !x.mayArrive.getLsbD f.val
  | .fence k, _ => s.tokenDone a (BitVec.ofNat 2 k)
  | .bead k, .facet t f _ => !s.beadLive t f k
  | .beads, .facet t f _ => s.beadMask t f = 0
  | .matrix id, .facet t _ _ => !((s.mm t.val).queue.any fun e => e.id = id)
  | .matrixWait id, .facet t _ _ => !((s.mm t.val).queue.any fun e => e.id ≤ id && e.op ≠ .qfence)
  | .row r, .facet t _ _ => !(s.mm t.val).rowBusy r
  | .copyFull q, _ => !s.placeFull (ownerOf a) q
  | .order, _ => s.allPerformed a
  | .quiesce, .facet t f _ => !(s.active (.facet t f) 0) && !(s.active (.facet t f) 1)
  | .tsync v, _ => s.holdFree a v
  | _, _ => false

/-- Wake a context. mm.wait waits for the entries before it only, so it is complete (R202). -/
def State.wake (s : State) (a : Agent) : State :=
  match (s.ctx a).run, a with
  | .parked .clasp, .facet t _ _ => s.tryClasp t
  | .parked .task, .facet _ _ _ => match s.gangAt a with
    | some g => s.wakePool g.pool
    | none => s
  | .parked (.resolved code va), _ =>
    if (s.ctx a).frozen then s else (s.modCtx a fun c => { c with run := .ready }).trapAt a code.toNat va (s.repAt a)
  | .parked (.matrixWait id), _ => if s.parkOver a (.matrixWait id) then s.finish a fun c => c else s
  | .parked why, _ => if s.parkOver a why then s.modCtx a fun c => { c with run := .ready } else s
  | _, _ => s

/-- PARK_WAKE. -/
def execParkWake (a : Agent) (s : State) : Out := .next (s.wake a)

end Sys2Proof.Machine
end

