-- ==== Sys2Proof/Machine/Dispatch.lean ====
section
/-! DEFINITION. One arm for every instruction and step: its meaning. -/

namespace Sys2Proof.Machine

/-- What an instruction, or a step of the part, does. -/
def exec (i : Instr) (s : State) : Host.Outcome State Fault Refusal :=
  match i with
  | .fwcallUnknown n => Sys2Proof.Machine.execFwcallUnknown n s
  | .trap im => Sys2Proof.Machine.execTrap im s
  | .nop h => Sys2Proof.Machine.execNop h s
  | .long h => Sys2Proof.Machine.execLong h s
  | .rep c d a b => Sys2Proof.Machine.execRep c d a b s
  | .add d a b => Sys2Proof.Machine.execAdd d a b s
  | .sub d a b => Sys2Proof.Machine.execSub d a b s
  | .and d a b => Sys2Proof.Machine.execAnd d a b s
  | .or d a b => Sys2Proof.Machine.execOr d a b s
  | .xor d a b => Sys2Proof.Machine.execXor d a b s
  | .andn d a b => Sys2Proof.Machine.execAndn d a b s
  | .orn d a b => Sys2Proof.Machine.execOrn d a b s
  | .sll d a b => Sys2Proof.Machine.execSll d a b s
  | .srl d a b => Sys2Proof.Machine.execSrl d a b s
  | .sra d a b => Sys2Proof.Machine.execSra d a b s
  | .rol d a b => Sys2Proof.Machine.execRol d a b s
  | .slt d a b => Sys2Proof.Machine.execSlt d a b s
  | .sltu d a b => Sys2Proof.Machine.execSltu d a b s
  | .min d a b => Sys2Proof.Machine.execMin d a b s
  | .max d a b => Sys2Proof.Machine.execMax d a b s
  | .minu d a b => Sys2Proof.Machine.execMinu d a b s
  | .maxu d a b => Sys2Proof.Machine.execMaxu d a b s
  | .lea d a b sz => Sys2Proof.Machine.execLea d a b sz s
  | .clz d a => Sys2Proof.Machine.execClz d a s
  | .ctz d a => Sys2Proof.Machine.execCtz d a s
  | .popc d a => Sys2Proof.Machine.execPopc d a s
  | .bswap d a => Sys2Proof.Machine.execBswap d a s
  | .sextB d a => Sys2Proof.Machine.execSextB d a s
  | .sextH d a => Sys2Proof.Machine.execSextH d a s
  | .sextW d a => Sys2Proof.Machine.execSextW d a s
  | .zextW d a => Sys2Proof.Machine.execZextW d a s
  | .addi d a im => Sys2Proof.Machine.execAddi d a im s
  | .andi d a im => Sys2Proof.Machine.execAndi d a im s
  | .ori d a im => Sys2Proof.Machine.execOri d a im s
  | .xori d a im => Sys2Proof.Machine.execXori d a im s
  | .slti d a im => Sys2Proof.Machine.execSlti d a im s
  | .sltiu d a im => Sys2Proof.Machine.execSltiu d a im s
  | .lih d a im => Sys2Proof.Machine.execLih d a im s
  | .slli d a h => Sys2Proof.Machine.execSlli d a h s
  | .srli d a h => Sys2Proof.Machine.execSrli d a h s
  | .srai d a h => Sys2Proof.Machine.execSrai d a h s
  | .roli d a h => Sys2Proof.Machine.execRoli d a h s
  | .mul d a b => Sys2Proof.Machine.execMul d a b s
  | .mulh d a b => Sys2Proof.Machine.execMulh d a b s
  | .mulhu d a b => Sys2Proof.Machine.execMulhu d a b s
  | .mulhsu d a b => Sys2Proof.Machine.execMulhsu d a b s
  | .div d a b => Sys2Proof.Machine.execDiv d a b s
  | .divu d a b => Sys2Proof.Machine.execDivu d a b s
  | .rem d a b => Sys2Proof.Machine.execRem d a b s
  | .remu d a b => Sys2Proof.Machine.execRemu d a b s
  | .bEq a b im => Sys2Proof.Machine.execBEq a b im s
  | .bNe a b im => Sys2Proof.Machine.execBNe a b im s
  | .bLt a b im => Sys2Proof.Machine.execBLt a b im s
  | .bGe a b im => Sys2Proof.Machine.execBGe a b im s
  | .bLtu a b im => Sys2Proof.Machine.execBLtu a b im s
  | .bGeu a b im => Sys2Proof.Machine.execBGeu a b im s
  | .bKany a b im => Sys2Proof.Machine.execBKany a b im s
  | .bKall a b im => Sys2Proof.Machine.execBKall a b im s
  | .bKnone a b im => Sys2Proof.Machine.execBKnone a b im s
  | .j im => Sys2Proof.Machine.execJ im s
  | .jl im => Sys2Proof.Machine.execJl im s
  | .jr a => Sys2Proof.Machine.execJr a s
  | .jlr d a => Sys2Proof.Machine.execJlr d a s
  | .ld d a sz im => Sys2Proof.Machine.execLd d a sz im s
  | .st d a sz im => Sys2Proof.Machine.execSt d a sz im s
  | .ldx d a b sz => Sys2Proof.Machine.execLdx d a b sz s
  | .stx d a b sz => Sys2Proof.Machine.execStx d a b sz s
  | .ldAcq d a sz => Sys2Proof.Machine.execLdAcq d a sz s
  | .stRel d a sz => Sys2Proof.Machine.execStRel d a sz s
  | .raddr d a b => Sys2Proof.Machine.execRaddr d a b s
  | .amoAdd d a b o w => Sys2Proof.Machine.execAmoAdd d a b o w s
  | .amoSwap d a b o w => Sys2Proof.Machine.execAmoSwap d a b o w s
  | .amoCas d a b o w => Sys2Proof.Machine.execAmoCas d a b o w s
  | .amoMin d a b o w => Sys2Proof.Machine.execAmoMin d a b o w s
  | .amoMax d a b o w => Sys2Proof.Machine.execAmoMax d a b o w s
  | .amoMinu d a b o w => Sys2Proof.Machine.execAmoMinu d a b o w s
  | .amoMaxu d a b o w => Sys2Proof.Machine.execAmoMaxu d a b o w s
  | .amoAnd d a b o w => Sys2Proof.Machine.execAmoAnd d a b o w s
  | .amoOr d a b o w => Sys2Proof.Machine.execAmoOr d a b o w s
  | .amoXor d a b o w => Sys2Proof.Machine.execAmoXor d a b o w s
  | .fenceIssue t k => Sys2Proof.Machine.execFenceIssue t k s
  | .fenceWait t => Sys2Proof.Machine.execFenceWait t s
  | .fenceTest d t => Sys2Proof.Machine.execFenceTest d t s
  | .mtxLock b => Sys2Proof.Machine.execMtxLock b s
  | .mtxTry d b => Sys2Proof.Machine.execMtxTry d b s
  | .mtxUnlock b => Sys2Proof.Machine.execMtxUnlock b s
  | .semP b => Sys2Proof.Machine.execSemP b s
  | .semV b => Sys2Proof.Machine.execSemV b s
  | .semTry d b => Sys2Proof.Machine.execSemTry d b s
  | .semRd d b => Sys2Proof.Machine.execSemRd d b s
  | .beadStart d a b => Sys2Proof.Machine.execBeadStart d a b s
  | .beadWait a => Sys2Proof.Machine.execBeadWait a s
  | .beadLive d => Sys2Proof.Machine.execBeadLive d s
  | .srr d n => Sys2Proof.Machine.execSrr d n s
  | .srw d a n => Sys2Proof.Machine.execSrw d a n s
  | .srs d a n => Sys2Proof.Machine.execSrs d a n s
  | .src d a n => Sys2Proof.Machine.execSrc d a n s
  | .fadd d a b y m t => Sys2Proof.Machine.execFadd d a b y m t s
  | .fsub d a b y m t => Sys2Proof.Machine.execFsub d a b y m t s
  | .fmul d a b y m t => Sys2Proof.Machine.execFmul d a b y m t s
  | .fdiv d a b y m t => Sys2Proof.Machine.execFdiv d a b y m t s
  | .fsqrt d a y m t => Sys2Proof.Machine.execFsqrt d a y m t s
  | .fmadd d a b y m t => Sys2Proof.Machine.execFmadd d a b y m t s
  | .fmin d a b t => Sys2Proof.Machine.execFmin d a b t s
  | .fmax d a b t => Sys2Proof.Machine.execFmax d a b t s
  | .fneg d a t => Sys2Proof.Machine.execFneg d a t s
  | .fabs d a t => Sys2Proof.Machine.execFabs d a t s
  | .feq d a b t => Sys2Proof.Machine.execFeq d a b t s
  | .flt d a b t => Sys2Proof.Machine.execFlt d a b t s
  | .fle d a b t => Sys2Proof.Machine.execFle d a b t s
  | .fclass d a t => Sys2Proof.Machine.execFclass d a t s
  | .cvt d a g sz m f y => Sys2Proof.Machine.execCvt d a g sz m f y s
  | .vadd d a b k z w => Sys2Proof.Machine.execVadd d a b k z w s
  | .vsub d a b k z w => Sys2Proof.Machine.execVsub d a b k z w s
  | .vmul d a b k z w => Sys2Proof.Machine.execVmul d a b k z w s
  | .vmulh d a b k z w => Sys2Proof.Machine.execVmulh d a b k z w s
  | .vand d a b k z w => Sys2Proof.Machine.execVand d a b k z w s
  | .vor d a b k z w => Sys2Proof.Machine.execVor d a b k z w s
  | .vxor d a b k z w => Sys2Proof.Machine.execVxor d a b k z w s
  | .vsll d a b k z w => Sys2Proof.Machine.execVsll d a b k z w s
  | .vsrl d a b k z w => Sys2Proof.Machine.execVsrl d a b k z w s
  | .vsra d a b k z w => Sys2Proof.Machine.execVsra d a b k z w s
  | .vmin d a b k z w => Sys2Proof.Machine.execVmin d a b k z w s
  | .vmax d a b k z w => Sys2Proof.Machine.execVmax d a b k z w s
  | .vminu d a b k z w => Sys2Proof.Machine.execVminu d a b k z w s
  | .vmaxu d a b k z w => Sys2Proof.Machine.execVmaxu d a b k z w s
  | .vabs d a k z w => Sys2Proof.Machine.execVabs d a k z w s
  | .vmerge d a b k w => Sys2Proof.Machine.execVmerge d a b k w s
  | .vcmpEq d a b k z w => Sys2Proof.Machine.execVcmpEq d a b k z w s
  | .vcmpNe d a b k z w => Sys2Proof.Machine.execVcmpNe d a b k z w s
  | .vcmpLt d a b k z w => Sys2Proof.Machine.execVcmpLt d a b k z w s
  | .vcmpLtu d a b k z w => Sys2Proof.Machine.execVcmpLtu d a b k z w s
  | .vcmpLe d a b k z w => Sys2Proof.Machine.execVcmpLe d a b k z w s
  | .vcmpLeu d a b k z w => Sys2Proof.Machine.execVcmpLeu d a b k z w s
  | .vfadd d a b k z t r => Sys2Proof.Machine.execVfadd d a b k z t r s
  | .vfsub d a b k z t r => Sys2Proof.Machine.execVfsub d a b k z t r s
  | .vfmul d a b k z t r => Sys2Proof.Machine.execVfmul d a b k z t r s
  | .vfma d a b k z t r => Sys2Proof.Machine.execVfma d a b k z t r s
  | .vfdiv d a b k z t r => Sys2Proof.Machine.execVfdiv d a b k z t r s
  | .vfsqrt d a k z t r => Sys2Proof.Machine.execVfsqrt d a k z t r s
  | .vfmin d a b k z t => Sys2Proof.Machine.execVfmin d a b k z t s
  | .vfmax d a b k z t => Sys2Proof.Machine.execVfmax d a b k z t s
  | .vfneg d a k z t => Sys2Proof.Machine.execVfneg d a k z t s
  | .vfabs d a k z t => Sys2Proof.Machine.execVfabs d a k z t s
  | .vfcmpEq d a b k z t => Sys2Proof.Machine.execVfcmpEq d a b k z t s
  | .vfcmpLt d a b k z t => Sys2Proof.Machine.execVfcmpLt d a b k z t s
  | .vfcmpLe d a b k z t => Sys2Proof.Machine.execVfcmpLe d a b k z t s
  | .vfcmpUn d a b k z t => Sys2Proof.Machine.execVfcmpUn d a b k z t s
  | .vld d a k z w => Sys2Proof.Machine.execVld d a k z w s
  | .vst d a k w => Sys2Proof.Machine.execVst d a k w s
  | .vlds d a b k z w => Sys2Proof.Machine.execVlds d a b k z w s
  | .vsts d a b k w => Sys2Proof.Machine.execVsts d a b k w s
  | .vldx d a b k z w => Sys2Proof.Machine.execVldx d a b k z w s
  | .vstx d a b k w => Sys2Proof.Machine.execVstx d a b k w s
  | .vldb d a k z w => Sys2Proof.Machine.execVldb d a k z w s
  | .vperm d a b k z w => Sys2Proof.Machine.execVperm d a b k z w s
  | .vslide d a b k z w => Sys2Proof.Machine.execVslide d a b k z w s
  | .vbcast d a k z w => Sys2Proof.Machine.execVbcast d a k z w s
  | .vext d a b w => Sys2Proof.Machine.execVext d a b w s
  | .vins d a b w => Sys2Proof.Machine.execVins d a b w s
  | .vidx d k z w => Sys2Proof.Machine.execVidx d k z w s
  | .vredAdd d a k w => Sys2Proof.Machine.execVredAdd d a k w s
  | .vredMin d a k w => Sys2Proof.Machine.execVredMin d a k w s
  | .vredMax d a k w => Sys2Proof.Machine.execVredMax d a k w s
  | .vscanAdd d a k z w => Sys2Proof.Machine.execVscanAdd d a k z w s
  | .vredFadd d a k t => Sys2Proof.Machine.execVredFadd d a k t s
  | .vredFmin d a k t => Sys2Proof.Machine.execVredFmin d a k t s
  | .vredFmax d a k t => Sys2Proof.Machine.execVredFmax d a k t s
  | .vscanFadd d a k z t => Sys2Proof.Machine.execVscanFadd d a k z t s
  | .kand d a b => Sys2Proof.Machine.execKand d a b s
  | .kor d a b => Sys2Proof.Machine.execKor d a b s
  | .kxor d a b => Sys2Proof.Machine.execKxor d a b s
  | .knot d a => Sys2Proof.Machine.execKnot d a s
  | .kmov d a => Sys2Proof.Machine.execKmov d a s
  | .kpopc d a => Sys2Proof.Machine.execKpopc d a s
  | .kfirst d a => Sys2Proof.Machine.execKfirst d a s
  | .kset d a => Sys2Proof.Machine.execKset d a s
  | .vcvt d a f t k z g m => Sys2Proof.Machine.execVcvt d a f t k z g m s
  | .vpack d a b k z t w => Sys2Proof.Machine.execVpack d a b k z t w s
  | .vunpack d a h k z u w => Sys2Proof.Machine.execVunpack d a h k z u w s
  | .mmLoadw a b t => Sys2Proof.Machine.execMmLoadw a b t s
  | .mmStream a b t => Sys2Proof.Machine.execMmStream a b t s
  | .mmDrain a b t => Sys2Proof.Machine.execMmDrain a b t s
  | .mmZero a => Sys2Proof.Machine.execMmZero a s
  | .mmRdrow d a => Sys2Proof.Machine.execMmRdrow d a s
  | .mmSeq a => Sys2Proof.Machine.execMmSeq a s
  | .bzLocate d => Sys2Proof.Machine.execBzLocate d s
  | .bzFix d a => Sys2Proof.Machine.execBzFix d a s
  | .bzRetry d => Sys2Proof.Machine.execBzRetry d s
  | .bzClear a => Sys2Proof.Machine.execBzClear a s
  | .bzInject a b => Sys2Proof.Machine.execBzInject a b s
  | .bzStat d a => Sys2Proof.Machine.execBzStat d a s
  | .ttLoad a t => Sys2Proof.Machine.execTtLoad a t s
  | .ttSlice t => Sys2Proof.Machine.execTtSlice t s
  | .ttRd d n t => Sys2Proof.Machine.execTtRd d n t s
  | .ttInval t => Sys2Proof.Machine.execTtInval t s
  | .cpyPush a => Sys2Proof.Machine.execCpyPush a s
  | .cpyTry d a => Sys2Proof.Machine.execCpyTry d a s
  | .cpyQuiesce a => Sys2Proof.Machine.execCpyQuiesce a s
  | .msgSend a b => Sys2Proof.Machine.execMsgSend a b s
  | .msgSendRel a b => Sys2Proof.Machine.execMsgSendRel a b s
  | .msgMcast a b => Sys2Proof.Machine.execMsgMcast a b s
  | .msgMcastRel a b => Sys2Proof.Machine.execMsgMcastRel a b s
  | .mboxPop d => Sys2Proof.Machine.execMboxPop d s
  | .mboxCnt d => Sys2Proof.Machine.execMboxCnt d s
  | .tagLook d a b => Sys2Proof.Machine.execTagLook d a b s
  | .tagSet a b => Sys2Proof.Machine.execTagSet a b s
  | .tagClr d a => Sys2Proof.Machine.execTagClr d a s
  | .tagFlush d a => Sys2Proof.Machine.execTagFlush d a s
  | .qPush d a b => Sys2Proof.Machine.execQPush d a b s
  | .qTry d a b => Sys2Proof.Machine.execQTry d a b s
  | .qDeq d a b => Sys2Proof.Machine.execQDeq d a b s
  | .qTdeq d a b => Sys2Proof.Machine.execQTdeq d a b s
  | .qStat d b => Sys2Proof.Machine.execQStat d b s
  | .qReset a b => Sys2Proof.Machine.execQReset a b s
  | .taskNext d a => Sys2Proof.Machine.execTaskNext d a s
  | .taskDone a => Sys2Proof.Machine.execTaskDone a s
  | .taskFail a b => Sys2Proof.Machine.execTaskFail a b s
  | .taskRearm a => Sys2Proof.Machine.execTaskRearm a s
  | .taskSpawn a b => Sys2Proof.Machine.execTaskSpawn a b s
  | .gangLaunch d a => Sys2Proof.Machine.execGangLaunch d a s
  | .cnPut a b p => Sys2Proof.Machine.execCnPut a b p s
  | .cnTake d p => Sys2Proof.Machine.execCnTake d p s
  | .cnTtake d p => Sys2Proof.Machine.execCnTtake d p s
  | .cnStat d b p => Sys2Proof.Machine.execCnStat d b p s
  | .cnOpen a p => Sys2Proof.Machine.execCnOpen a p s
  | .cnClose p => Sys2Proof.Machine.execCnClose p s
  | .barArrive d b => Sys2Proof.Machine.execBarArrive d b s
  | .barWait a b => Sys2Proof.Machine.execBarWait a b s
  | .barTest d a b => Sys2Proof.Machine.execBarTest d a b s
  | .barCfg a b => Sys2Proof.Machine.execBarCfg a b s
  | .txEnter a b => Sys2Proof.Machine.execTxEnter a b s
  | .txResume a => Sys2Proof.Machine.execTxResume a s
  | .txResumeSkip a => Sys2Proof.Machine.execTxResumeSkip a s
  | .icGet d a => Sys2Proof.Machine.execIcGet d a s
  | .icSet a b => Sys2Proof.Machine.execIcSet a b s
  | .icClr a => Sys2Proof.Machine.execIcClr a s
  | .holdAdd d a b => Sys2Proof.Machine.execHoldAdd d a b s
  | .txRelq d => Sys2Proof.Machine.execTxRelq d s
  | .txRelqRel a => Sys2Proof.Machine.execTxRelqRel a s
  | .txRelqStat d => Sys2Proof.Machine.execTxRelqStat d s
  | .txRelqCfg a => Sys2Proof.Machine.execTxRelqCfg a s
  | .txClsver d a => Sys2Proof.Machine.execTxClsver d a s
  | .tsupixMove b a => Sys2Proof.Machine.execTsupixMove b a s
  | .tsupixLoadk k a => Sys2Proof.Machine.execTsupixLoadk k a s
  | .tsupixLoadi k a => Sys2Proof.Machine.execTsupixLoadi k a s
  | .tsupixDrop a => Sys2Proof.Machine.execTsupixDrop a s
  | .tsupixGetglobal a x y im => Sys2Proof.Machine.execTsupixGetglobal a x y im s
  | .tsupixSetglobal a x y im => Sys2Proof.Machine.execTsupixSetglobal a x y im s
  | .tsupixGetattr a x y im => Sys2Proof.Machine.execTsupixGetattr a x y im s
  | .tsupixSetattr a x y im => Sys2Proof.Machine.execTsupixSetattr a x y im s
  | .tsupixGetitem a x y im => Sys2Proof.Machine.execTsupixGetitem a x y im s
  | .tsupixSetitem a x y im => Sys2Proof.Machine.execTsupixSetitem a x y im s
  | .tsupixAdd c b a => Sys2Proof.Machine.execTsupixAdd c b a s
  | .tsupixSub c b a => Sys2Proof.Machine.execTsupixSub c b a s
  | .tsupixMul c b a => Sys2Proof.Machine.execTsupixMul c b a s
  | .tsupixTruediv c b a => Sys2Proof.Machine.execTsupixTruediv c b a s
  | .tsupixFloordiv c b a => Sys2Proof.Machine.execTsupixFloordiv c b a s
  | .tsupixMod c b a => Sys2Proof.Machine.execTsupixMod c b a s
  | .tsupixMatmul c b a => Sys2Proof.Machine.execTsupixMatmul c b a s
  | .tsupixNeg b a => Sys2Proof.Machine.execTsupixNeg b a s
  | .tsupixLt c b a => Sys2Proof.Machine.execTsupixLt c b a s
  | .tsupixLe c b a => Sys2Proof.Machine.execTsupixLe c b a s
  | .tsupixEq c b a => Sys2Proof.Machine.execTsupixEq c b a s
  | .tsupixNot b a => Sys2Proof.Machine.execTsupixNot b a s
  | .tsupixJmp j => Sys2Proof.Machine.execTsupixJmp j s
  | .tsupixJmpif k a => Sys2Proof.Machine.execTsupixJmpif k a s
  | .tsupixJmpifnot k a => Sys2Proof.Machine.execTsupixJmpifnot k a s
  | .tsupixForiter k a => Sys2Proof.Machine.execTsupixForiter k a s
  | .tsupixCall a x y im => Sys2Proof.Machine.execTsupixCall a x y im s
  | .tsupixTcall a x y im => Sys2Proof.Machine.execTsupixTcall a x y im s
  | .tsupixReturn a => Sys2Proof.Machine.execTsupixReturn a s
  | .tsupixNewtuple c b a => Sys2Proof.Machine.execTsupixNewtuple c b a s
  | .tsupixNewlist c b a => Sys2Proof.Machine.execTsupixNewlist c b a s
  | .tsupixNewdict a => Sys2Proof.Machine.execTsupixNewdict a s
  | .tsupixNewobj a x y im => Sys2Proof.Machine.execTsupixNewobj a x y im s
  | .tsupixTsync a => Sys2Proof.Machine.execTsupixTsync a s
  | .tsupixRaise a => Sys2Proof.Machine.execTsupixRaise a s
  | .tsupixTry j => Sys2Proof.Machine.execTsupixTry j s
  | .tsupixNative k a => Sys2Proof.Machine.execTsupixNative k a s
  | .lateFault a => Sys2Proof.Machine.execLateFault a s
  | .userInterruptDelivery a => Sys2Proof.Machine.execUserInterruptDelivery a s
  | .parkWake a => Sys2Proof.Machine.execParkWake a s
  | .busyEnd a => Sys2Proof.Machine.execBusyEnd a s
  | .remoteValueReturn a => Sys2Proof.Machine.execRemoteValueReturn a s
  | .homeAccess id reply => Sys2Proof.Machine.execHomeAccess id reply s
  | .heartbeatMiss t f => Sys2Proof.Machine.execHeartbeatMiss t f s
  | .hbmiss t f => Sys2Proof.Machine.execHbmiss t f s
  | .preemption t => Sys2Proof.Machine.execPreemption t s
  | .matrixEntryStart t => Sys2Proof.Machine.execMatrixEntryStart t s
  | .barrierPhaseComplete slot ch => Sys2Proof.Machine.execBarrierPhaseComplete slot ch s
  | .copy o q => Sys2Proof.Machine.execCopy o q s
  | .gather o q => Sys2Proof.Machine.execGather o q s
  | .scatter o q => Sys2Proof.Machine.execScatter o q s
  | .fill o q => Sys2Proof.Machine.execFill o q s
  | .mcast o q => Sys2Proof.Machine.execMcast o q s
  | .qfence o q => Sys2Proof.Machine.execQfence o q s
  | .reduceAdd o q => Sys2Proof.Machine.execReduceAdd o q s
  | .port o q reply => Sys2Proof.Machine.execPort o q reply s
  | .tlbinv o q => Sys2Proof.Machine.execTlbinv o q s
  | .completion o q => Sys2Proof.Machine.execCompletion o q s
  | .semaphoreV o q => Sys2Proof.Machine.execSemaphoreV o q s
  | .messageDelivery id => Sys2Proof.Machine.execMessageDelivery id s
  | .holdrel id => Sys2Proof.Machine.execHoldrel id s
  | .tresume id => Sys2Proof.Machine.execTresume id s
  | .translationWalk a => Sys2Proof.Machine.execTranslationWalk a s
  | .launchCheck u ticket => Sys2Proof.Machine.execLaunchCheck u ticket s
  | .gangBind u ticket slot x0 y0 => Sys2Proof.Machine.execGangBind u ticket slot x0 y0 s
  | .gangEnd slot => Sys2Proof.Machine.execGangEnd slot s
  | .dispatchMessage u => Sys2Proof.Machine.execDispatchMessage u s
  | .quantumStart slot => Sys2Proof.Machine.execQuantumStart slot s
  | .taskDecrement u => Sys2Proof.Machine.execTaskDecrement u s
  | .roundBoundary p => Sys2Proof.Machine.execRoundBoundary p s
  | .cairnSteal p => Sys2Proof.Machine.execCairnSteal p s
  | .kernelCrash cause => Sys2Proof.Machine.execKernelCrash cause s
  | .liveUpdate signatureOk level => Sys2Proof.Machine.execLiveUpdate signatureOk level s
  | .signetAlarm cause agent => Sys2Proof.Machine.execSignetAlarm cause agent s
  | .coldStart bad routersOk => Sys2Proof.Machine.execColdStart bad routersOk s
  | .clockStep mhz => Sys2Proof.Machine.execClockStep mhz s
  | .rtail v => Sys2Proof.Machine.execRtail v s
  | .rfix v => Sys2Proof.Machine.execRfix v s
  | .registerWrite off v => Sys2Proof.Machine.execRegisterWrite off v s
  | .bar2Access addr n write => Sys2Proof.Machine.execBar2Access addr n write s
  | .packetReceive port p => Sys2Proof.Machine.execPacketReceive port p s
  | .lsGapTimeout port ids => Sys2Proof.Machine.execLsGapTimeout port ids s
  | .linkFailure port lanesLeft => Sys2Proof.Machine.execLinkFailure port lanesLeft s
  | .routingEntryWrite port dest v => Sys2Proof.Machine.execRoutingEntryWrite port dest v s
  | .keyEntryWrite port ingress im v => Sys2Proof.Machine.execKeyEntryWrite port ingress im v s
  | .domainTableWrite n v => Sys2Proof.Machine.execDomainTableWrite n v s
  | .codewin addr => Sys2Proof.Machine.execCodewin addr s
  | .tsupixUnassignedOpcode op => Sys2Proof.Machine.execTsupixUnassignedOpcode op s
  | .mboxinUnknownCommand cmd => Sys2Proof.Machine.execMboxinUnknownCommand cmd s
  | .crcBurst port lane => Sys2Proof.Machine.execCrcBurst port lane s
  | .portRecovery port => Sys2Proof.Machine.execPortRecovery port s
  | .runoff => Sys2Proof.Machine.execRunoff s
  | .kret => Sys2Proof.Machine.execKret s
  | .uiret => Sys2Proof.Machine.execUiret s
  | .halt => Sys2Proof.Machine.execHalt s
  | .wfi => Sys2Proof.Machine.execWfi s
  | .fwcallFirmwareLevel => Sys2Proof.Machine.execFwcallFirmwareLevel s
  | .fwcallRegionTeardown => Sys2Proof.Machine.execFwcallRegionTeardown s
  | .fwcallFaultDomainTeardown => Sys2Proof.Machine.execFwcallFaultDomainTeardown s
  | .fwcallPanic => Sys2Proof.Machine.execFwcallPanic s
  | .fwcallThaw => Sys2Proof.Machine.execFwcallThaw s
  | .fwcallRegisterNoticeContext => Sys2Proof.Machine.execFwcallRegisterNoticeContext s
  | .fwcallSetReceiveWindow => Sys2Proof.Machine.execFwcallSetReceiveWindow s
  | .fwcallReadDomainEntry => Sys2Proof.Machine.execFwcallReadDomainEntry s
  | .future => Sys2Proof.Machine.execFuture s
  | .beadEnd => Sys2Proof.Machine.execBeadEnd s
  | .hbeat => Sys2Proof.Machine.execHbeat s
  | .mmSwap => Sys2Proof.Machine.execMmSwap s
  | .mmWait => Sys2Proof.Machine.execMmWait s
  | .mmSave => Sys2Proof.Machine.execMmSave s
  | .mmRest => Sys2Proof.Machine.execMmRest s
  | .mmSync => Sys2Proof.Machine.execMmSync s
  | .mboxWait => Sys2Proof.Machine.execMboxWait s
  | .gangExit => Sys2Proof.Machine.execGangExit s
  | .tsupixNop => Sys2Proof.Machine.execTsupixNop s
  | .tsupixPoptry => Sys2Proof.Machine.execTsupixPoptry s
  | .freeze => Sys2Proof.Machine.execFreeze s
  | .thaw => Sys2Proof.Machine.execThaw s
  | .faultRecordReoffer => Sys2Proof.Machine.execFaultRecordReoffer s
  | .takeover => Sys2Proof.Machine.execTakeover s
  | .levels => Sys2Proof.Machine.execLevels s
  | .status => Sys2Proof.Machine.execStatus s
  | .alarmlog => Sys2Proof.Machine.execAlarmlog s
  | .crash => Sys2Proof.Machine.execCrash s
  | .dibread => Sys2Proof.Machine.execDibread s
  | .mboxoutRead => Sys2Proof.Machine.execMboxoutRead s
  | .kernelCrashNotice => Sys2Proof.Machine.execKernelCrashNotice s
  | .signetAlarmNotice => Sys2Proof.Machine.execSignetAlarmNotice s
  | .mapfail => Sys2Proof.Machine.execMapfail s
  | .bringUpComplete => Sys2Proof.Machine.execBringUpComplete s
  | .frozenNotice => Sys2Proof.Machine.execFrozenNotice s
  | .ringHostToDevice => Sys2Proof.Machine.execRingHostToDevice s
  | .ringDeviceToHost => Sys2Proof.Machine.execRingDeviceToHost s
  | .ringMessage => Sys2Proof.Machine.execRingMessage s
  | .illegal => Sys2Proof.Machine.execIllegal s
  | .warmReboot => Sys2Proof.Machine.execWarmReboot s

end Sys2Proof.Machine
end

