-- ==== Sys2Proof/Machine/Issue.lean ====
section
/-! DEFINITION. Issuing an instruction of a context: whose turn it is, what its boundary takes first, fetch, the checks of
R91, and the meaning (R23, R83, R91, R174, R176, R185, R203, R316, R360, R368). -/

namespace Sys2Proof.Machine

/-! ### Whose turn it is (R23, R183, R185) -/

/-- May a context issue: ready, not frozen, and on a tile that is being pre-empted only at kernel privilege or to take the
late fault that is due (R183 step 2). -/
def State.mayIssue (s : State) (a : Agent) : Bool :=
  (s.ctx a).canIssue && ((s.ctx a).kernel || !s.preempting a || s.lateDue a)

/-- The contexts of a facet in the order in which it looks at them: after the one that issued last (R23). -/
def roundFrom (t : Fin 900) (f : Fin 4) (last : Nat) : List Agent :=
  (List.range 11).map fun i => .facet t f ⟨(last + 1 + i) % 11, Nat.mod_lt _ (by omega)⟩

/-- The context that a facet or crest core issues next. A crest core's two contexts may issue in any order (R25). -/
def State.turn (s : State) : Owner → Option Agent
  | .facet t f => (roundFrom t f (s.facet t f).lastCtx).find? s.mayIssue
  | .crest k => [Agent.crest k 0, Agent.crest k 1].find? s.mayIssue

/-- May this context issue now? -/
def State.hasTurn (s : State) (a : Agent) : Bool :=
  match a with
  | .facet t f _ => s.turn (.facet t f) = some a
  | .crest _ _ => s.mayIssue a

/-- Make a context the one in issue; its facet has issued it last. -/
def State.select (s : State) (a : Agent) : State :=
  let s := { s with cur := a }
  match a with
  | .facet t f k => s.modFacet t f fun x => { x with lastCtx := k.val }
  | .crest _ _ => s

/-! ### The boundary (R174, R176) -/

/-- What a boundary takes before the next instruction: the oldest late fault, else a deliverable user-level interrupt. -/
def State.boundary (s : State) (a : Agent) : Option State :=
  if s.lateDue a then some (s.takeLate a)
  else if (s.ctx a).deliverable && !s.preempting a then some (s.deliverUser a)
  else none

/-! ### Fetch and the checks of R91 -/

/-- Latch the word of the group in issue. -/
def State.latchFirst (s : State) (w : Insn) : State := { s with latch := ⟨w, w, 4, none⟩ }

/-- Run a word that has been fetched. -/
def State.runWord (s : State) (w : Insn) : Out :=
  let s := s.latchFirst w
  if lacksFeature s.cur w then .next (s.trapWord Code.feature) else exec (decode w) s

/-- A fetch that fails: CODEWIN on a facet, the code of its refusal on a crest core, with the address (R83, R360). -/
def State.fetchTrap (s : State) (code : Nat) : Out :=
  let s := s.latchFirst 0
  match s.cur with
  | .facet _ _ _ => execCodewin s.c.pc s
  | .crest _ _ => .next ((s.fetchAlarm s.c.pc).trap code s.c.pc)

/-- Fetch and run a Lanivo instruction of the context in issue. -/
def State.runLanivo (s : State) : Out :=
  match s.fetch s.c.pc with
  | (s, .waits) => .next s
  | (s, .fault code) => s.fetchTrap code
  | (s, .word w) => s.runWord w

/-- Latch a bytecode instruction. -/
def State.latchBytecode (s : State) (v : BitVec 48) (len : Nat) : State :=
  { s with latch := ⟨v.setWidth 32, v.setWidth 32, len, none⟩ }

/-- Fetch and run a bytecode instruction of the crest context in issue. -/
noncomputable def State.runBytecode (s : State) : Out :=
  match (s.latchFirst 0).bytecodeFetch with
  | .error s => .next s
  | .ok (v, len, s) => exec (decodeBytecode v) (s.latchBytecode v len)

/-- Fetch and run an instruction of the context in issue. -/
noncomputable def State.runNext (s : State) : Out := if s.c.bytecode then s.runBytecode else s.runLanivo

/-- A context issues, if it may. -/
noncomputable def State.issue (s : State) (a : Agent) : Out :=
  if !s.hasTurn a then .next s
  else match (s.select a).boundary a with
    | some s => .next s
    | none => (s.select a).runNext

end Sys2Proof.Machine
end

