-- ==== Sys2Proof/Machine/Agenda.lean ====
section
/-! DEFINITION. What moves next: the agenda where it says, else a step of the part itself that is due, else the next ready
context, else time (R10, R23, R43, R49; DESIGN CHOICE, log entry 1). -/

namespace Sys2Proof.Machine

/-! ### What other devices and the fabric answer (R63, R377) -/

/-- Perform the oldest element of an access. -/
def State.nextAccess (s : State) (x : Access) : Out :=
  if x.foreign.isSome then execHomeAccess x.id s.freeReply s.spendReply else execHomeAccess x.id .own s

/-- Perform the port request at the head of a queue, with the fabric's answer. -/
def State.nextPort (s : State) (o : Owner) (q : Fin 2) : Out :=
  if (s.headReq o q fun r => r.kind = 8).isSome then
    execPort o q (BitVec.ofNat 8 (portReplies.getD (s.freeWord.toNat % 5) 0)) s.spend
  else .next s

/-! ### The steps that may be due -/

/-- A step of the part, as what it does to a state. -/
abbrev Move := State → Out

/-- The network: accesses in pair order, values that return, messages (R43, R46, R254). -/
def State.netMoves (s : State) : List Move :=
  (s.net.filter fun x => homeEnabled s.net x.id && !s.messageAhead x).map (fun x t => t.nextAccess x) ++
    (s.net.filter fun x => x.kind ≠ .store && x.todo.isEmpty).map (fun x => execRemoteValueReturn x.agent) ++
    s.msgs.flatMap fun m => [execMessageDelivery m.id, execHoldrel m.id, execTresume m.id]

/-- A context that is busy or parked. -/
def ctxMoves (a : Agent) (c : Ctx) : List Move :=
  match c.run with
  | .busy _ => [execBusyEnd a]
  | .ringBusy => [execBusyEnd a]
  | .parked _ =>
    execTranslationWalk a :: (if c.late.isEmpty || c.frozen then [] else [execLateFault a]) ++
      [execUserInterruptDelivery a, execParkWake a]
  | _ => []

/-- The contexts. -/
def State.ctxsMoves (s : State) : List Move :=
  s.ctxs.cells.flatMap fun (n, c) => match agentOf n with
    | some a => ctxMoves a c
    | none => []

/-- The facets and tiles: heartbeats, pre-emption, the matrix queue. -/
def State.tileMoves (s : State) : List Move :=
  (s.facets.cells.flatMap fun (n, _) =>
    if h : n < 3600 then
      [execHeartbeatMiss ⟨n / 4, by omega⟩ ⟨n % 4, by omega⟩, execHbmiss ⟨n / 4, by omega⟩ ⟨n % 4, by omega⟩]
    else []) ++
  (s.tiles.cells.flatMap fun (n, t) => if h : n < 900 then (if t.preempt then [execPreemption ⟨n, h⟩] else []) else []) ++
  s.mms.cells.flatMap fun (n, m) =>
    if h : n < 900 then (if m.queue.isEmpty then [] else [execMatrixEntryStart ⟨n, h⟩]) else []

/-- A copy queue. -/
def queueMoves (o : Owner) (q : Fin 2) : List Move :=
  [execCopy o q, execGather o q, execScatter o q, execFill o q, execMcast o q, execQfence o q, execReduceAdd o q,
   fun s => s.nextPort o q, execTlbinv o q, execSemaphoreV o q, execCompletion o q]

/-- The copy queues that hold requests. -/
def State.copyMoves (s : State) : List Move :=
  s.nis.cells.flatMap fun (n, x) => match ownerOfKey n with
    | some o => ([0, 1] : List (Fin 2)).flatMap fun q => if (x.cq[q.val]'q.isLt).isEmpty then [] else queueMoves o q
    | none => []

/-- The first slot and origin that pass a test. -/
def firstPlace (slots : List (Fin 256)) (fits : Nat → Nat → Nat → Bool) : Option (Fin 256 × Fin 30 × Fin 30) :=
  slots.head?.bind fun slot =>
    ((List.finRange 30).flatMap fun y => (List.finRange 30).map fun x => (x, y)).findSome? fun (x0, y0) =>
      if fits slot.val x0.val y0.val then some (slot, x0, y0) else none

/-- The free gang slots. -/
def State.freeSlots (s : State) : List (Fin 256) := (List.finRange 256).filter fun i => (s.gangs.find i.val).isNone

/-- Bind a launch, or restore a saved gang, at the first place where it may go. -/
def State.bindMove (u : Fin 4) (ticket : BitVec 32) (t : State) : Out :=
  let place := match t.launch u ticket with
    | some x => firstPlace t.freeSlots (t.bindable x)
    | none => match t.savedGang u ticket with
      | some (old, g) => firstPlace ((List.finRange 256).filter fun i => i.val = old) (t.restorable old g)
      | none => none
  match place with
  | some (slot, x0, y0) => execGangBind u ticket slot x0 y0 t
  | none => .next t

/-- Put a launch behind those of its priority and above (R269). -/
def insertLaunch (x : Launch) : List Launch → List Launch
  | [] => [x]
  | y :: rest => if y.terms.prio < x.terms.prio then x :: y :: rest else y :: insertLaunch x rest

/-- Launches in falling priority, those of one priority in order. -/
def byPriority (ls : List Launch) : List Launch := ls.foldl (fun acc x => insertLaunch x acc) []

/-- A dispatch unit: its checks, then what it may bind, then its messages. -/
def State.dispatchMoves (s : State) (u : Fin 4) : List Move :=
  (s.launches u).map (fun x => execLaunchCheck u x.ticket) ++
    (byPriority (s.launches u)).map (fun x => State.bindMove u x.ticket) ++
    (s.gangs.cells.filter fun (_, g) => g.phase = .saved && g.unit_ = u.val).map (fun (_, g) => State.bindMove u g.ticket) ++
    [execDispatchMessage u]

/-- Gangs, pools, task units. -/
def State.unitMoves (s : State) : List Move :=
  (s.gangs.cells.flatMap fun (n, _) =>
    if h : n < 256 then
      ((List.finRange 16).map fun ch => execBarrierPhaseComplete ⟨n, h⟩ ch) ++ [execGangEnd ⟨n, h⟩, execQuantumStart ⟨n, h⟩]
    else []) ++
  (s.pools.cells.flatMap fun (n, _) =>
    if h : n < 64 then [execRoundBoundary ⟨n, h⟩, execCairnSteal ⟨n, h⟩] else []) ++
  ([0, 1, 2, 3] : List (Fin 4)).flatMap fun u =>
    (if (s.decrements u).isEmpty then [] else [execTaskDecrement u]) ++ s.dispatchMoves u

/-- The management complexes and the host's ring. -/
def managementMoves : List Move :=
  [execFaultRecordReoffer, execKernelCrashNotice, execSignetAlarmNotice, execMapfail, execBringUpComplete, execFrozenNotice,
   execLevels, execStatus, execAlarmlog, execCrash, execDibread,
   fun s => execMboxinUnknownCommand (BitVec.ofNat 8 s.mgmt.command) s, execRingHostToDevice, execRingDeviceToHost,
   execRingMessage]

/-- Every step that may be due. -/
def State.moves (s : State) : List Move :=
  s.netMoves ++ s.ctxsMoves ++ s.tileMoves ++ s.copyMoves ++ s.unitMoves ++ managementMoves

/-- A step that is due: one that changes the state. -/
def State.nextMove (s : State) : Option State :=
  s.moves.findSome? fun m => match m s with
    | .next t => if t = s then none else some t
    | _ => none

/-! ### The next context (R23) -/

/-- The facets and crest cores in the order in which they take turns: after that of the context in issue. -/
def State.owners (s : State) : List Owner :=
  let ns := (s.ctxs.cells.map fun (n, _) => if n < 39600 then n / 11 else 3600 + (n - 39600) / 2).eraseDups
  let me := ownerKey (ownerOf s.cur)
  ((ns.filter fun n => me < n) ++ ns.filter fun n => n ≤ me).filterMap ownerOfKey

/-- The context that issues next. A crest core's contexts alternate where both are ready. -/
def State.nextIssuer (s : State) : Option Agent :=
  s.owners.findSome? fun o => match o with
    | .facet _ _ => s.turn o
    | .crest k =>
      let last := if s.cur = .crest k 0 then [Agent.crest k 1, .crest k 0] else [.crest k 0, .crest k 1]
      last.find? s.mayIssue

/-! ### Time (R162, R166) -/

/-- Tile cycles pass: the clock advances and the timers of running facets count down. -/
def State.tick (s : State) (n : Nat) : State :=
  { s with
    now := s.now + n
    facets := ⟨s.facets.cells.map fun (k, x) =>
      (k, if h : k < 3600 then
            (if x.hbInterval ≠ 0 && s.heartRuns ⟨k / 4, by omega⟩ ⟨k % 4, by omega⟩ then
               { x with hbLeft := BitVec.ofNat 32 (x.hbLeft.toNat - n) }
             else x)
          else x)⟩ }

/-- How long until something is due where nothing moves: the end of a busy operation or a round of a pool, else a cycle. -/
def State.idleTime (s : State) : Nat :=
  let ends := s.ctxs.cells.filterMap fun (_, c) => match c.run with
    | .busy t => some t
    | _ => none
  let rounds := s.pools.cells.map fun (_, p) => p.opened + p.period * (p.round + 1)
  match (ends ++ rounds).filter fun t => s.now < t with
  | [] => 1
  | t :: ts => ts.foldl min t - s.now

/-- A soft error strikes a granule of 8 bytes (R24, R367). -/
def State.strike (s : State) (granule : Nat) (uncorrectable : Bool) : State :=
  { s with softErrors := s.softErrors ++ [(granule, uncorrectable)] }

/-- One cycle passes after what a step did. -/
def tickOut : Out → Out
  | .next s => .next (s.tick 1)
  | .fault r => .fault r
  | .refused r => .refused r

/-- Does an event strike within the cycle of the step after it? The Signet's alarms do: several may fall in one cycle (R370). -/
def instant : Instr → Bool
  | .signetAlarm _ _ => true
  | _ => false

/-- What the agenda says. -/
noncomputable def State.act (s : State) : Choice → Out
  | .issue a => tickOut (s.issue a)
  | .event i => if instant i then exec i s else tickOut (exec i s)
  | .pass n => .next (s.tick n)
  | .softError g u => .next (s.strike g u)
  | .meet g => .next ((s.takeSoftError (g * 8) 8).1.tick 1)
  | .vacate slot image => .next ((s.vacate slot image).tick 1)
  | .readRegister off => .next ((s.readRegister off).tick 1)
  | .hostWrite a bs => .next ((s.hostWrite a bs).tick 1)
  | .fabricId v => .next ({ s with mgmt := { s.mgmt with fabricId := v } }.tick 1)
  | .copyPieces o q n => .next ((s.copyPieces o q n).tick 1)
  | .silence k lines => .next ({ s with silent := s.silent ++ lines.map fun l => (k.val, l) }.tick 1)
  | .remoteNotice reporter port => .next ((s.noticeFrom reporter port.toNat).tick 1)

/-- What the part does by itself. -/
noncomputable def State.proceed (s : State) : Out :=
  match s.nextMove with
  | some t => .next (t.tick 1)
  | none => match s.nextIssuer with
    | some a => tickOut (s.issue a)
    | none => .next (s.tick s.idleTime)

/-! ### Placing an instruction -/

/-- Where the byte at an address that a context fetches from lies. -/
def State.fetchLoc (s : State) (a : Agent) (va : Word) : Option Nat :=
  match a with
  | .facet t _ _ => some (lmLoc t.val (va.toNat % 2 ^ 22))
  | .crest _ _ => match s.check a (s.ctx a).spc va 1 3 (s.ctx a).kernel with
    | .ok (.loc l) => some l
    | _ => none

/-- Put bytes where a context fetches from. -/
def State.putCode (s : State) (a : Agent) (va : Word) : List Byte → State
  | [] => s
  | b :: rest =>
    let s := match s.fetchLoc a va with
      | some l => { s with mem := s.mem.setByte l b }
      | none => s
    s.putCode a (va + 1) rest

/-- Put a code descriptor (R323) that covers code at an address: 64 bytes of code, every register, constant and cache slot in
range. -/
def State.putDesc (s : State) (a : Agent) (desc code : Word) : State :=
  s.putCode a desc (toBytes 8 code.toNat ++ toBytes 4 64 ++ toBytes 4 0 ++ toBytes 8 code.toNat ++ toBytes 4 0x1_0000 ++
    toBytes 2 0x100 ++ toBytes 1 0 ++ toBytes 1 0 ++ toBytes 8 code.toNat ++ toBytes 4 0x1_0000)

/-- Is an instruction of so many bits one of bytecode (as decodeTableWord reads it)? -/
def isBytecodeWord (nbits w : Nat) : Bool :=
  nbits = 48 || match decode (BitVec.ofNat 32 w) with
    | .illegal => true
    | _ => false

/-- Let a context issue next, with nothing that its boundary would take first. -/
def State.letIssue (s : State) (a : Agent) : State :=
  let s := s.modCtx a fun c => { c with run := .ready, frozen := false, late := [], pending := [] }
  let s := match a with
    | .facet t f k => (s.modFacet t f fun x => { x with lastCtx := (k.val + 10) % 11 }).modTile t.val fun tl =>
        { tl with preempt := false }
    | .crest _ _ => s
  { s with agenda := .issue a :: s.agenda }

end Sys2Proof.Machine
end

