-- ==== Sys2Proof/Machine/Step.lean ====
section
/-! DEFINITION. One step of the part, and placing an instruction where the next step fetches it. -/

namespace Sys2Proof.Machine

/-- One step: the agenda's next choice, else what the part does by itself. -/
noncomputable def step (s : State) : Host.Outcome State Fault Refusal :=
  match s.agenda with
  | c :: rest => { s with agenda := rest }.act c
  | [] => s.proceed

/-- The state with an instruction placed where the next step fetches it: at the pc of the context that issues next, or for a
bytecode instruction at its pc with the crest context in bytecode mode there and a code descriptor behind it. -/
def State.withFetchWord (s : State) (nbits w : Nat) : State :=
  let a := s.nextIssuer.getD s.cur
  let pc := (s.ctx a).pc
  let s := (s.letIssue a).putCode a pc (toBytes 12 (w % 2 ^ nbits))
  if isCrest a && isBytecodeWord nbits w then
    (s.putDesc a (pc + 0x1000) pc).modCtx a fun c =>
      { (c.setXn 19 pc).setXn 20 (pc + 0x1000) with bytecode := true }
  else s

end Sys2Proof.Machine
end

