-- ==== Sys2Proof/Safety.lean ====
section
/-! DEFINITION. What counts as a safe run, and the terms the claims use: what every step keeps, that an instruction completes,
and what it leaves alone. -/

namespace Sys2Proof.Safety

open Sys2Proof.Machine

/-! ### Runs -/

/-- The state after n steps, if none of them ends in a fault or a refusal. -/
noncomputable def after : Nat → State → Option State
  | 0, s => some s
  | n + 1, s =>
    match step s with
    | .next t => after n t
    | .fault _ => none
    | .refused _ => none

/-- A run of n steps that goes on to its end. -/
def goesOn (n : Nat) (s : State) : Prop := (after n s).isSome

/-- A property that every step keeps. -/
def Kept (inv : State → Prop) : Prop := ∀ s t, inv s → step s = .next t → inv t

/-- The keys are gone: R369 lets no later event restore them. -/
def Unkeyed (s : State) : Prop := s.signet.keyed = false

/-- Memory is in its canonical form. -/
def MemOk (s : State) : Prop := s.mem.wf = true

/-! ### Completing, and what is left alone -/

/-- The instruction completes: exec answers a next state, of which p holds. -/
def Completes (i : Instr) (s : State) (p : State → Prop) : Prop := ∃ t, exec i s = .next t ∧ p t

/-- Of the whole state only the context in issue is different: every other context, every tile, queue and unit, every byte of
memory and everything else is as before. -/
def OnlyIssuer (s t : State) : Prop := t = { s with ctxs := t.ctxs } ∧ ∀ a, a ≠ s.cur → t.ctx a = s.ctx a

/-- As OnlyIssuer, but for memory: of that, only the n bytes from a location on may be different. -/
def OnlyIssuerAnd (loc n : Nat) (s t : State) : Prop :=
  t = { s with ctxs := t.ctxs, mem := t.mem } ∧ (∀ a, a ≠ s.cur → t.ctx a = s.ctx a) ∧
    ∀ l, l < loc ∨ loc + n ≤ l → t.mem.byte l = s.mem.byte l

/-- The address of the instruction that follows the one in issue. -/
def follows (s : State) : Word := s.c.pc + toWord s.latch.len

/-- Register x[d] holds v, or for d = 0 nothing, and every other x register holds what it held (R86). -/
def SetsX (d : BitVec 5) (v : Word) (c c' : Ctx) : Prop :=
  ∀ r, c'.getX r = if r = d ∧ r ≠ 0 then v else c.getX r

/-- The instruction writes v to x[d] and goes on in line, and changes nothing else. -/
def WritesX (i : Instr) (s : State) (d : BitVec 5) (v : Word) : Prop :=
  Completes i s fun t => OnlyIssuer s t ∧ SetsX d v s.c t.c ∧ t.c = { s.c with x := t.c.x, pc := follows s }

/-- The instruction goes on at pc and changes nothing else. -/
def GoesTo (i : Instr) (s : State) (pc : Word) : Prop :=
  Completes i s fun t => OnlyIssuer s t ∧ t.c = { s.c with pc := pc }

/-- The instruction writes v to x[d] and goes on in line; on a facet its context is then busy for n tile cycles, with the undo
record that abandoning it needs (R101; the record is the model's own, log entry 12). -/
def WritesBusy (n : Nat) (i : Instr) (s : State) (d : BitVec 5) (v : Word) : Prop :=
  Completes i s fun t => OnlyIssuer s t ∧ SetsX d v s.c t.c ∧
    t.c = { s.c with
      x := t.c.x, pc := follows s
      run := if isCrest s.cur then s.c.run else .busy (s.now + n)
      undo := if isCrest s.cur then s.c.undo else t.c.undo }

/-! ### Entering and leaving a handler (R171, R172) -/

/-- The location of the slot of the live bank of x24 to x31 in a facet context's save record (R180, R181). -/
def saveSlot (t : Fin 900) (f : Fin 4) (k : Fin 11) (uih : Bool) : Nat :=
  lmLoc t.val (bankSlot (recordOffset f.val k.val) uih)

/-- The instruction enters the kernel on a facet (R171): the live bank of x24 to x31 goes to its slot, the privilege and UIH
are saved, the kernel bank comes live with the cause in it, and control goes to the vector. Nothing else changes. -/
def EntersFacet (i : Instr) (s : State) (t : Fin 900) (f : Fin 4) (k : Fin 11) (vector : Nat) (cause info : Word) : Prop :=
  Completes i s fun u =>
    let c := s.c
    let slot := saveSlot t f k c.uih
    OnlyIssuerAnd slot 64 s u ∧
    (∀ j, j < 8 → u.mem.read (slot + 8 * j) 8 = (c.xn (24 + j)).toNat) ∧
    u.c.xn 24 = cause ∧ u.c.xn 25 = info ∧ u.c.xn 26 = c.resume ∧ u.c.xn 27 = toWord (recordOffset f.val k.val) ∧
    (∀ j : Fin 4, u.c.xn (28 + j.val) = c.kbank[4 + j.val]) ∧ (∀ r, r < 24 → u.c.xn r = c.xn r) ∧
    u.c.kernel = true ∧ u.c.pprv = c.kernel ∧ u.c.uih = false ∧ u.c.puih = c.uih ∧ u.c.kt = true ∧
    u.c.emu = decide (vector = 0x40) ∧ u.c.pe = c.pe ∧ u.c.msv = c.msv ∧
    u.c = { c with
      x := u.c.x, estat := u.c.estat, epc := c.resume, ecause := cause, einfo := info, repidx := 0
      pc := (c.tvec &&& ~~~0xFF) + toWord vector }

/-- The instruction enters the kernel on a crest core (R171): no bank is switched, no x register and no memory written. -/
def EntersCrest (i : Instr) (s : State) (vector : Nat) (cause info : Word) : Prop :=
  Completes i s fun u =>
    let c := s.c
    OnlyIssuer s u ∧
    u.c.kernel = true ∧ u.c.pprv = c.kernel ∧ u.c.uih = false ∧ u.c.puih = c.uih ∧ u.c.kt = c.kt ∧
    u.c.emu = decide (vector = 0x40) ∧
    u.c = { c with
      estat := u.c.estat, epc := c.resume, ecause := cause, einfo := info, repidx := 0, bytecode := false
      pc := (c.tvec &&& ~~~0xFF) + toWord vector }

/-- The instruction takes the precise fault of a code with einfo info: on a facet outside a handler, and on a crest core, it
enters the kernel with that cause (R91, R169 to R171); FUTURE and FEATURE go to the emulation vector (R170). -/
def Traps (i : Instr) (s : State) (code : Nat) (info : Word) : Prop :=
  let vector := if code = 2 ∨ code = 3 then 0x40 else 0
  (∀ (t : Fin 900) (f : Fin 4) (k : Fin 11), s.cur = .facet t f k → s.c.kt = false →
    EntersFacet i s t f k vector (toWord code) info) ∧
  (∀ (k : Fin 32) (c : Fin 2), s.cur = .crest k c → EntersCrest i s vector (toWord code) info)

/-- As Traps says of the cause, but for a REP group, whose trap keeps repidx (R93). -/
def TrapsKeeping (i : Instr) (s : State) (code : Nat) (info : Word) : Prop :=
  isCrest s.cur = true ∨ s.c.kt = false → ∃ u, exec i s = .next u ∧ u.c.ecause = toWord code ∧ u.c.einfo = info ∧
    u.c.epc = s.c.resume ∧ u.c.kernel = true ∧ u.c.repidx = s.c.repidx

/-! ### What is left alone, piece by piece -/

/-- Every context but one is as before. -/
def OtherCtxs (s t : State) (a : Agent) : Prop := ∀ b, b ≠ a → t.ctx b = s.ctx b

/-- Every tile but one is as before. -/
def OtherTiles (s t : State) (n : Nat) : Prop := ∀ m, m ≠ n → t.tile m = s.tile m

/-- Every facet but one is as before. -/
def OtherFacets (s t : State) (n : Fin 900) (f : Fin 4) : Prop :=
  ∀ m g, (m, g) ≠ (n, f) → t.facet m g = s.facet m g

/-- Every network interface's part but one is as before. -/
def OtherNis (s t : State) (o : Owner) : Prop := ∀ p, p ≠ o → t.ni p = s.ni p

/-- Every matrix engine but one is as before. -/
def OtherMms (s t : State) (n : Nat) : Prop := ∀ m, m ≠ n → t.mm m = s.mm m

/-- Every work queue but one is as before. -/
def OtherQueues (s t : State) (n : Nat) : Prop := ∀ m, m ≠ n → t.queue m = s.queue m

/-- Every byte of memory but the n from a location on is as before. -/
def OtherBytes (s t : State) (loc n : Nat) : Prop := ∀ l, l < loc ∨ loc + n ≤ l → t.mem.byte l = s.mem.byte l

/-- The context in issue parks with its instruction still to run (R32), and nothing else changes. -/
def Parks (i : Instr) (s : State) (why : Park) : Prop :=
  Completes i s fun t => OnlyIssuer s t ∧ t.c = { s.c with run := .parked why }

/-- Would a fault record be held by the management complex: records are held already, or queue 0 is closed, and fewer than
256 are held (R361)? -/
def HoldsRecord (s : State) : Prop :=
  s.mgmt.records.held.length < 256 ∧ (s.mgmt.records.held ≠ [] ∨ (s.queue 0).open_ = false)

/-- The management complex with one more record held. -/
def moreRecords (s : State) (r : Vec) : Mgmt :=
  { s.mgmt with records := { s.mgmt.records with held := s.mgmt.records.held ++ [r] } }

/-! ### Parks (R397) -/

/-- A user-level interrupt withdraws this park. -/
def Withdrawn : Park → Prop
  | .mailbox => True
  | .queue => True
  | .semaphore _ => True
  | .mutex _ => True
  | .barrier _ _ => True
  | .arrive _ => True
  | .fence _ => True
  | .bead _ => True
  | .beads => True
  | .task => True
  | .cairn => True
  | .copyFull _ => True
  | .order => True
  | .tsync _ => True
  | .translation _ _ _ _ => False
  | .resolved _ _ => False
  | .wfi => False
  | .clasp => False
  | .matrix _ => False
  | .matrixWait _ => False
  | .row _ => False
  | .quiesce => False

/-- What a context was parked on knows it no more. -/
def WaitsNowhere (s u : State) (a : Agent) : Prop :=
  let run := (s.ctx a).run
  (∀ n t, run = .parked (.mutex n) → tileNo a = some t → a ∉ ((u.tile t).mutex n).waiters) ∧
    (∀ n t, run = .parked (.semaphore n) → tileNo a = some t → a ∉ ((u.tile t).sem n).waiters) ∧
    (∀ n, run = .parked .queue → ∀ w ∈ (u.queue n).waiters, w.agent ≠ a) ∧
    (∀ t, run = .parked .task → tileNo a = some t → ∀ w ∈ (u.tile t).taskOrder, w.agent ≠ a) ∧
    ∀ n p, run = .parked .cairn → u.pool n = some p → ∀ x ∈ p.shards, ∀ w ∈ x.waits, w.agent ≠ a

/-! ### Accesses to a facet's own local memory (R36, R119, R121) -/

/-- The n bytes at va are local memory that this facet context may read: in the local alias, inside local memory, for the user
outside the kernel reserve, aligned, through its own space, and free of a soft error that waits there. -/
def LocalRead (s : State) (t : Fin 900) (space : Byte) (va : Word) (n : Nat) : Prop :=
  va.toNat + n ≤ 0x40_0000 ∧ va.toNat % n = 0 ∧ (s.c.kernel = false → va.toNat + n ≤ 0x3C_0000) ∧
    (space = 0 ∨ space = s.mgmt.domain) ∧
    ∀ e ∈ s.softErrors, e.1 < lmLoc t.val va.toNat / 8 ∨ (lmLoc t.val va.toNat + n - 1) / 8 < e.1

/-- And may write: not the kernel code that write protection covers (R182). -/
def LocalWrite (s : State) (t : Fin 900) (space : Byte) (va : Word) (n : Nat) : Prop :=
  LocalRead s t space va n ∧
    ((s.tile t.val).wp = true → va.toNat + n ≤ 0x3C_0000 ∨ 0x3C_4000 ≤ va.toNat)

/-- The fault of an access of n bytes at va by the context in issue, if an own row of R121's table has one: an address that n does
not divide ALIGN; on a facet past the end of local memory LMRANGE, the user in the kernel reserve PROT; on a crest core the
local alias PROT; an aperture address with no tile LMRANGE (R36, R119). -/
def AddressFault (s : State) (va : Word) (n : Nat) : Option Nat :=
  let at_ := va.toNat
  if at_ % n ≠ 0 then some 0x05
  else if at_ < 2 ^ 60 then
    if isCrest s.cur then some 0x07
    else if 0x40_0000 ≤ at_ then some 0x19
    else if s.c.kernel = false ∧ 0x3C_0000 < at_ + n then some 0x07
    else none
  else if 15 * 2 ^ 60 ≤ at_ ∧ (2 ^ 32 ≤ at_ % 2 ^ 60 ∨ 900 ≤ at_ / 2 ^ 22 % 2 ^ 10) then some 0x19
  else none

/-- Every earlier access, message and decrement of the context is performed, so that a release does not wait (R51). -/
def NothingOpen (s : State) (a : Agent) : Prop :=
  (∀ x ∈ s.net, x.agent ≠ a) ∧ (∀ m ∈ s.msgs, m.sender ≠ some a) ∧
    ∀ u : Fin 4, ∀ x ∈ s.taskUnits[u], x.agent ≠ a

/-- A release of the context in issue goes on: it waits for nothing, and no late fault is taken before it (R51, R122, R136). -/
def Releases (s : State) : Prop := NothingOpen s s.cur ∧ s.c.late = []

/-- The instruction makes one access, of n bytes at va (R119, R123, R125); a release waits for nothing. -/
inductive Accesses (s : State) : Instr → Word → Nat → Prop where
  | ld (d a : BitVec 5) (z : BitVec 3) (i : BitVec 13) :
    z ≠ 7 → Accesses s (.ld d a z i) (s.c.getX a + i.signExtend 64) (2 ^ (z.toNat / 2))
  | ldx (d a b : BitVec 5) (z : BitVec 3) : z ≠ 7 → Accesses s (.ldx d a b z) (s.c.getX a) (2 ^ (z.toNat / 2))
  | ldAcq (d a : BitVec 5) (z : BitVec 3) : z ≠ 7 → Accesses s (.ldAcq d a z) (s.c.getX a) (2 ^ (z.toNat / 2))
  | st (d a : BitVec 5) (z : BitVec 3) (i : BitVec 13) :
    z.toNat % 2 = 0 → Accesses s (.st d a z i) (s.c.getX a + i.signExtend 64) (2 ^ (z.toNat / 2))
  | stx (d a b : BitVec 5) (z : BitVec 3) :
    z.toNat % 2 = 0 → Accesses s (.stx d a b z) (s.c.getX a) (2 ^ (z.toNat / 2))
  | stRel (d a : BitVec 5) (z : BitVec 3) :
    z.toNat % 2 = 0 → Releases s → Accesses s (.stRel d a z) (s.c.getX a) (2 ^ (z.toNat / 2))
  | amo (i : Instr) (d a b : BitVec 5) (o : BitVec 2) (w : BitVec 1) :
    i ∈ [.amoAdd d a b o w, .amoSwap d a b o w, .amoCas d a b o w, .amoMin d a b o w, .amoMax d a b o w, .amoMinu d a b o w,
      .amoMaxu d a b o w, .amoAnd d a b o w, .amoOr d a b o w, .amoXor d a b o w] →
    o.toNat < 2 ∨ Releases s → Accesses s i (s.c.getX a) (if w = 1 then 8 else 4)

/-- A loaded value of n bytes as a register holds it (R119). -/
def loaded (n : Nat) (signed : Bool) (v : Nat) : Word := if signed then (BitVec.ofNat (8 * n) v).signExtend 64 else toWord v

/-- The instruction stores n bytes of local memory and goes on in line. -/
def Stores (i : Instr) (s : State) (t : Fin 900) (va : Word) (n : Nat) (v : Nat) : Prop :=
  Completes i s fun u => OnlyIssuerAnd (lmLoc t.val va.toNat) n s u ∧ u.mem.read (lmLoc t.val va.toNat) n = v % 256 ^ n ∧
    u.c = { s.c with pc := follows s }

/-- The instruction exchanges n bytes of local memory for v and gives the old ones, sign-extended, in x[d] (R126). -/
def Exchanges (i : Instr) (s : State) (t : Fin 900) (va : Word) (n : Nat) (d : BitVec 5) (v : Nat → Nat) : Prop :=
  let loc := lmLoc t.val va.toNat
  let m := s.mem.read loc n
  Completes i s fun u => OnlyIssuerAnd loc n s u ∧ u.mem.read loc n = v m ∧ SetsX d (loaded n true m) s.c u.c ∧
    u.c = { s.c with x := u.c.x, pc := follows s }

/-! ### Vector and mask results (R138, R140) -/

/-- Element j of n bits of a vector register. -/
def elem (v : Vec) (n j : Nat) : Nat := v.toNat / 2 ^ (n * j) % 2 ^ n

/-- The vector register d holds f j in every active element j of n bits; an inactive one keeps its old value, or with z = 1
becomes 0; no other vector register changes (R138). -/
def SetsV (d : BitVec 5) (n : Nat) (k : BitVec 3) (z : BitVec 1) (f : Nat → Nat) (c c' : Ctx) : Prop :=
  (∀ r, r ≠ d → c'.getV r = c.getV r) ∧
    ∀ j, j < 512 / n → elem (c'.getV d) n j =
      if (c.getK k).getLsbD j then f j % 2 ^ n else if z = 1 then 0 else elem (c.getV d) n j

/-- The instruction writes vector register d and goes on in line, and changes nothing else. -/
def WritesV (i : Instr) (s : State) (d : BitVec 5) (n : Nat) (k : BitVec 3) (z : BitVec 1) (f : Nat → Nat) : Prop :=
  Completes i s fun t => OnlyIssuer s t ∧ SetsV d n k z f s.c t.c ∧ t.c = { s.c with v := t.c.v, pc := follows s }

/-- Mask register d holds p j in bit j of every active lane of the first m; an inactive one keeps its old bit, or with z = 1
becomes 0; the bits from m on are 0; k0 takes no write, and no other mask register changes (R86, R138, R140). -/
def SetsK (d : BitVec 3) (m : Nat) (k : BitVec 3) (z : BitVec 1) (p : Nat → Bool) (c c' : Ctx) : Prop :=
  (∀ r, r ≠ d ∨ r = 0 → c'.getK r = c.getK r) ∧
    (d ≠ 0 → ∀ j, j < 64 → (c'.getK d).getLsbD j =
      if m ≤ j then false else if (c.getK k).getLsbD j then p j else if z = 1 then false else (c.getK d).getLsbD j)

/-- The instruction writes mask register d and goes on in line, and changes nothing else. -/
def WritesK (i : Instr) (s : State) (d : BitVec 3) (m : Nat) (k : BitVec 3) (z : BitVec 1) (p : Nat → Bool) : Prop :=
  Completes i s fun t => OnlyIssuer s t ∧ SetsK d m k z p s.c t.c ∧ t.c = { s.c with k := t.c.k, pc := follows s }

/-- The instruction writes a whole mask register and goes on in line; a write to k0 is discarded (R86). -/
def WritesWholeK (i : Instr) (s : State) (d : BitVec 3) (v : Word) : Prop :=
  Completes i s fun t => OnlyIssuer s t ∧ (∀ r, t.c.getK r = if r = d ∧ r ≠ 0 then v else s.c.getK r) ∧
    t.c = { s.c with k := t.c.k, pc := follows s }

/-! ### Steps of the part that act on a context -/

/-- The context has entered the kernel with a cause (R170, R171); its banks and the frame are for EntersFacet to say. -/
def Entered (c c' : Ctx) (vector : Nat) (cause info : Word) : Prop :=
  c'.kernel = true ∧ c'.pprv = c.kernel ∧ c'.uih = false ∧ c'.puih = c.uih ∧ c'.epc = c.resume ∧ c'.ecause = cause ∧
    c'.einfo = info ∧ c'.pc = (c.tvec &&& ~~~0xFF) + toWord vector

/-- A window register admits an access of n bytes at an offset from any source: its range, its kinds, selector 2 (R256,
R257). -/
def WindowGrants (w : Word) (off n : Nat) (read write : Bool) : Prop :=
  0 < n ∧ bits w 21 0 ≤ off ∧ off + n ≤ bits w 53 32 ∧ off + n ≤ 0x3C_0000 ∧ (read = true → bit w 63 = true) ∧
    (write = true → bit w 62 = true) ∧ bits w 61 60 = 2

/-- The tile takes accesses: its state is not spilled and no facet of it is fenced (R163, R264). -/
def TakesAccesses (s : State) (t : Fin 900) : Prop :=
  (s.tile t.val).spilled = false ∧ ∀ f : Fin 4, (s.facet t f).fenced = false

/-! ### Floating-point results (R74, R79, R101, R139) -/

/-- The signed value of n bits. -/
def signedOf (n v : Nat) : Int := if 2 * v < 2 ^ n then (v : Int) else (v : Int) - 2 ^ n

/-- The instruction writes v to x[d], raises flags, leaves the generator at gen and goes on in line; on a facet its context is
then busy for n tile cycles, if that is not 0. -/
def FloatResult (n : Nat) (i : Instr) (s : State) (d : BitVec 5) (v : Word) (flags : BitVec 6) (gen : Word) : Prop :=
  Completes i s fun t => OnlyIssuer s t ∧ SetsX d v s.c t.c ∧
    t.c = { s.c with
      x := t.c.x, fflags := s.c.fflags ||| flags, srgen := gen, pc := follows s
      run := if n = 0 ∨ isCrest s.cur = true then s.c.run else .busy (s.now + n)
      undo := if n = 0 ∨ isCrest s.cur = true then s.c.undo else t.c.undo }

/-- A decoded value is the finite number of a sign and magnitude r * 2^q. -/
def IsNumber (v : Val) (neg : Bool) (r : Nat) (q : Int) : Prop :=
  ∃ (m : Nat) (e : Int), v = .fin neg m e false ∧ m * 2 ^ (e - min e q).toNat = r * 2 ^ (q - min e q).toNat

/-- A finite value in units of 2^e0, where its own exponent is no smaller. -/
def unitsOf (e0 : Int) : Val → Int
  | .fin neg m e _ => (if neg then -1 else 1) * (m * 2 ^ (e - e0).toNat : Nat)
  | _ => 0

/-- A finite value, known exactly, with an exponent of e0 or above. -/
def FiniteFrom (e0 : Int) (v : Val) : Prop := ∃ neg m e, v = .fin neg m e false ∧ e0 ≤ e

/-- An exact result of sign neg and magnitude k * 2^q, or between that and (k + 1) * 2^q, is rounded once to a floating-point format:
as k * 2^q is, or as the middle of the two, which every value between them rounds alike with (k has more bits than any rounding looks
at). -/
def RoundsAs (x : Exact) (neg : Bool) (k : Nat) (q : Int) (exact_ : Prop) [Decidable exact_] : Prop :=
  2 ^ 80 ≤ k ∧ ∀ fmt f rm gen, floatFmt fmt = some f →
    x.round fmt rm gen = round fmt rm false (if exact_ then .fin neg k q false else .fin neg (2 * k + 1) (q - 1) false) gen

/-- A magnitude r * 2^q is above r' * 2^q'. -/
def Above (r : Nat) (q : Int) (r' : Nat) (q' : Int) : Prop := r' * 2 ^ (q' - min q q').toNat < r * 2 ^ (q - min q q').toNat

/-- The generator after a draw, of which the low 16 bits are the draw (R74). -/
def drawn (gen : Word) : Word :=
  let a := gen ^^^ (gen <<< 13)
  let b := a ^^^ (a >>> 7)
  b ^^^ (b <<< 17)

/-- Does rounding move a magnitude, cut to t units with `rest` of `unit` lost, one unit away from zero (R73, R74)? -/
def Away (rm : Nat) (neg : Bool) (t rest unit : Nat) (gen : Word) : Bool :=
  rest ≠ 0 && match rm with
    | 0 => decide (unit < 2 * rest) || (decide (2 * rest = unit) && decide (t % 2 = 1))
    | 1 => false
    | 2 => neg
    | 3 => !neg
    | 4 => decide (unit ≤ 2 * rest)
    | _ => decide (65536 ≤ rest * 65536 / unit + (drawn gen).toNat % 65536)

/-- Lane j of m is active. -/
def on (s : State) (k : BitVec 3) (j : Nat) : Bool := (s.c.getK k).getLsbD j

/-- The flags of the active lanes of m, ORed into fflags (R79). -/
def RaisesFrom (s : State) (k : BitVec 3) (m : Nat) (flags : Nat → BitVec 6) (c' : Ctx) : Prop :=
  ∀ q, q < 6 → c'.fflags.getLsbD q = (s.c.fflags.getLsbD q || (List.range m).any fun j => on s k j && (flags j).getLsbD q)

/-- The active lanes round their exact values x j to format fmt in increasing order, each drawing from the generator as the
one before left it (R74), and raise their flags; the instruction goes on in line, a facet's context busy for n cycles if that
is not 0. -/
def RoundsLanes (n : Nat) (i : Instr) (s : State) (d : BitVec 5) (fmt rm : Nat) (k : BitVec 3) (z : BitVec 1)
    (x : Nat → Exact) : Prop :=
  ∃ g : Nat → Word,
    let r := fun j => (x j).round fmt rm (g j)
    let m := 512 / fmtBits fmt
    g 0 = s.c.srgen ∧ (∀ j, j < m → g (j + 1) = if on s k j then (r j).gen else g j) ∧
    Completes i s fun t => OnlyIssuer s t ∧ SetsV d (fmtBits fmt) k z (fun j => (r j).code) s.c t.c ∧
      RaisesFrom s k m (fun j => (r j).flags) t.c ∧
      t.c = { s.c with
        v := t.c.v, fflags := t.c.fflags, srgen := g m, pc := follows s
        run := if n = 0 ∨ isCrest s.cur = true then s.c.run else .busy (s.now + n)
        undo := if n = 0 ∨ isCrest s.cur = true then s.c.undo else t.c.undo }

/-- The active lanes of the first m of a register of n-bit lanes, in order. -/
def activeElems (s : State) (a : BitVec 5) (k : BitVec 3) (n m : Nat) : List Nat :=
  ((List.range m).filter (on s k)).map (elem (s.c.getV a) n)

/-- A ring instruction takes the next ring entry with its operands (R175): closed where it is performed at issue, else open. -/
def TakesRing (s : State) (o : Owner) (ops : List Word) (open_ : Bool) (n : Ni) : Prop :=
  let at_ := (s.ni o).seq.toNat % 16
  let e : RingEntry := { pc := s.c.pc, word := s.latch.word, ops := ops, seq := (s.ni o).seq, open_ := open_ }
  n = { s.ni o with ring := n.ring, seq := (s.ni o).seq + 1 } ∧
    ∀ i : Fin 16, n.ring[i] = if i.val = at_ then e else (s.ni o).ring[i]

/-- The next ring entry of a facet or core is closed, so that a ring instruction does not wait for it (R175). -/
def RingFree (s : State) (o : Owner) : Prop :=
  ∀ i : Fin 16, i.val = (s.ni o).seq.toNat % 16 → (s.ni o).ring[i].open_ = false

/-- The instruction stores the active lanes, of n bytes at addr j each, to a facet's own local memory: a lane that no later
active lane overlaps reads back, and every byte outside the lanes is as before. -/
def StoresLanes (i : Instr) (s : State) (t : Fin 900) (f : Fin 4) (k : BitVec 3) (n : Nat) (addr data : Nat → Nat)
    (ops : List Word) : Prop :=
  let act := fun j => j < 64 / n ∧ on s k j = true
  Completes i s fun u =>
    u = { s with ctxs := u.ctxs, mem := u.mem, nis := u.nis } ∧ OtherCtxs s u s.cur ∧ OtherNis s u (.facet t f) ∧
    u.c = { s.c with pc := follows s } ∧ TakesRing s (.facet t f) ops false (u.ni (.facet t f)) ∧
    (∀ j, act j → (∀ h, act h → j < h → addr h + n ≤ addr j ∨ addr j + n ≤ addr h) →
      u.mem.read (lmLoc t.val (addr j)) n = data j) ∧
    ∀ l, (∀ j, act j → l < lmLoc t.val (addr j) ∨ lmLoc t.val (addr j) + n ≤ l) → u.mem.byte l = s.mem.byte l

/-- The instruction accesses n bytes at va j for every active lane j (R142); a store finds its ring entry closed (R175). -/
inductive VectorAccesses (s : State) : Instr → (Nat → Word) → Nat → BitVec 3 → Prop where
  | load (i : Instr) (d a : BitVec 5) (k : BitVec 3) (z : BitVec 1) (w : BitVec 2) (va : Nat → Word) :
    (i = .vld d a k z w ∧ va = fun j => s.c.getX a + toWord (2 ^ w.toNat * j)) ∨
      (i = .vldb d a k z w ∧ va = fun _ => s.c.getX a) ∨
      (∃ b, i = .vlds d a b k z w ∧ va = fun j => s.c.getX a + toWord j * s.c.getX b) ∨
      (∃ b, i = .vldx d a b k z w ∧ va = fun j => s.c.getX a + toWord (elem (s.c.getV b) (8 * 2 ^ w.toNat) j)) →
    VectorAccesses s i va (2 ^ w.toNat) k
  | store (i : Instr) (d a : BitVec 5) (k : BitVec 3) (w : BitVec 2) (va : Nat → Word) :
    RingFree s (ownerOf s.cur) →
    (i = .vst d a k w ∧ va = fun j => s.c.getX a + toWord (2 ^ w.toNat * j)) ∨
      (∃ b, i = .vsts d a b k w ∧ va = fun j => s.c.getX a + toWord j * s.c.getX b) ∨
      (∃ b, i = .vstx d a b k w ∧ va = fun j => s.c.getX a + toWord (elem (s.c.getV b) (8 * 2 ^ w.toNat) j)) →
    VectorAccesses s i va (2 ^ w.toNat) k

/-! ### Joint issue (R193, R194) -/

/-- The late faults that mm.rest gave back to a context of facet f of the tile: they are the control context's (R203). -/
def lateOf (s : State) (t : Fin 900) (f : Fin 4) (k : Fin 11) : List LateFault :=
  if k = 0 then ((s.mm t.val).savedLate.filter fun x => x.1 = f.val).map fun x => x.2 else []

/-- Only contexts are different, and of the tile's matrix engine that it holds those late faults no more. -/
def GivesLate (s u : State) (t : Fin 900) (f : Fin 4) (k : Fin 11) : Prop :=
  u = { s with ctxs := u.ctxs, mms := u.mms } ∧ OtherMms s u t.val ∧
    u.mm t.val = { s.mm t.val with
      savedLate := if k = 0 then (s.mm t.val).savedLate.filter fun x => x.1 ≠ f.val else (s.mm t.val).savedLate }

/-- The control context in issue on facet f is the last of its tile's four at the clasp: the other three have brought the same
word and values, and nothing holds the release back. In a kernel handler with MSV = 0 it brings mm.save or mm.rest (R178, R203).
seqs are the four ring sequence numbers. -/
def LastAtClasp (s : State) (t : Fin 900) (f : Fin 4) (vals : List Word) (j : Joint) (seqs : Vector (BitVec 16) 4) : Prop :=
  s.cur = .facet t f 0 ∧ (s.c.kt = false ∨ s.c.msv = true ∨ j = .queued .save true ∨ j = .queued .rest true) ∧
    RingFree s (.facet t f) ∧
    seqs[f] = (s.ni (.facet t f)).seq ∧ (s.tile t.val).preempt = false ∧ (s.mm t.val).queue.length < 8 ∧
    (∀ g : Fin 4, g ≠ f → (s.mm t.val).clasp[g] = some ⟨s.latch.word, vals, seqs[g], j⟩ ∧
      (s.ctx (.facet t g 0)).run = .parked .clasp) ∧
    ∀ g : Fin 4, (s.ctx (.facet t g 0)).frozen = false ∧ (s.ctx (.facet t g 0)).late = []

/-- Nothing but the four control contexts of a tile, its matrix engine, its network interfaces and, for the tensor
instructions, the tile itself is different. -/
def OnlyEngine (s u : State) (t : Fin 900) : Prop :=
  u = { s with ctxs := u.ctxs, mms := u.mms, nis := u.nis, tiles := u.tiles, nextId := u.nextId } ∧ OtherMms s u t.val ∧
    OtherTiles s u t.val ∧ (∀ a, (∀ g, a ≠ .facet t g 0) → u.ctx a = s.ctx a) ∧ ∀ o, (∀ g, o ≠ .facet t g) → u.ni o = s.ni o

/-- The number of a matrix instruction that enters the queue: the next, or for a drain, an mm.seq or a bz.retry of user code that a
pre-emption withdrew and that runs again the one it had (R54). -/
def entryNo (s : State) (t : Fin 900) (op : MmOp) : Nat :=
  if op.mayResume = true ∧ s.handlers t = 0 then (s.mm t.val).resume.getD s.nextId else s.nextId

/-- The clasp releases the instruction into the matrix queue, with copies of the records that it names; its issuers go on, or
park until it lets them (R194). -/
def EntersQueue (i : Instr) (s : State) (t : Fin 900) (f : Fin 4) (vals : List Word) (op : MmOp) (tensors : List Nat)
    (wait : Bool) : Prop :=
  ∀ seqs, LastAtClasp s t f vals (.queued op wait) seqs →
    Completes i s fun u =>
      OnlyEngine s u t ∧ u.tiles = s.tiles ∧ u.nextId = s.nextId + 1 ∧ OtherNis s u (.facet t f) ∧
      TakesRing s (.facet t f) vals true (u.ni (.facet t f)) ∧
      u.mm t.val = { s.mm t.val with
        clasp := Vector.replicate 4 none
        queue := (s.mm t.val).queue ++
          [{ id := entryNo s t op, op := op, recs := tensors.map (s.tile t.val).tensor, seqs := seqs, pos := 0, held := []
             stopping := false, flags := 0, kts := s.handlers t }]
        resume := if op.mayResume = true ∧ s.handlers t = 0 then none else (s.mm t.val).resume } ∧
      ∀ g : Fin 4, let c := s.ctx (.facet t g 0)
        u.ctx (.facet t g 0) =
          if wait then { c with run := .parked (.matrix (entryNo s t op)) } else { c with pc := c.pc + 4, run := .ready }

/-- The clasp releases an instruction that takes effect at once: the four issuers go on, and the tile's tensor table becomes as
given (R194, R209). -/
def TakesEffect (i : Instr) (s : State) (t : Fin 900) (f : Fin 4) (vals : List Word) (j : Joint) (table : Nat → Vec) : Prop :=
  ∀ seqs, LastAtClasp s t f vals j seqs →
    Completes i s fun u =>
      OnlyEngine s u t ∧ u.nextId = s.nextId ∧ (∀ n, (u.tile t.val).tensor n = table n) ∧
      u.tile t.val = { s.tile t.val with tensors := (u.tile t.val).tensors } ∧
      u.mm t.val = { s.mm t.val with clasp := Vector.replicate 4 none } ∧
      ∀ g : Fin 4, u.ctx (.facet t g 0) =
        { s.ctx (.facet t g 0) with pc := (s.ctx (.facet t g 0)).pc + 4, run := .ready }

/-! ### What matrix entries compute (R81, R197 to R200, R213 to R216) -/

/-- A valid record of a format without block scales, FP32, FP16, BF16, INT8 or INT32, not swizzled and with its base in local
memory. -/
def Unscaled (r : Vec) : Prop := recValid r = true ∧ recFmt r ∈ [1, 2, 3, 9, 11] ∧ recSwz r = 0 ∧ recBase r < 2 ^ 22

/-- The bytes of an element of such a record, and the offset of element (i, j) (R189). -/
def elemSize (r : Vec) : Nat := fmtBits (recFmt r) / 8

/-- The offset of element (i, j). -/
def elemAt (r : Vec) (i j : Nat) : Nat := recBase r + elemSize r * (i * recS r 0 + j * recS r 1)

/-- The value of element (i, j) in a tile's local memory. -/
def elemIn (s : State) (t : Fin 900) (r : Vec) (i j : Nat) : Val :=
  decodeFmt (recFmt r) (s.mem.read (lmLoc t.val (elemAt r i j)) (elemSize r))

/-- The engine may read element (i, j): in user local memory, with the stamps of a tensor that is not swizzled (R191). -/
def EngineReads (s : State) (t : Fin 900) (r : Vec) (i j : Nat) : Prop :=
  elemAt r i j + elemSize r ≤ 0x3C_0000 ∧ (s.tile t.val).stamp (elemAt r i j / 1024) = 0 ∧
    (s.tile t.val).stamp ((elemAt r i j + elemSize r - 1) / 1024) = 0

/-- An mm.loadw of block (kb, nb) of W for activations of format af passes its checks (R192, R197). -/
def Loadable (s : State) (t : Fin 900) (w : Vec) (kb nb af : Nat) : Prop :=
  let k := pairK (recFmt w) af
  let n := pairN (recFmt w) af
  Unscaled w ∧ recD w 2 ≠ 0 ∧ recD w 3 ≠ 0 ∧ recFmt w ≠ 11 ∧ af ∈ [1, 2, 3, 4, 5, 6, 9] ∧ (recFmt w = 9 ↔ af = 9) ∧
    kb * k < recD w 0 ∧ nb * n < recD w 1 ∧
    ∀ i j, i < k → j < n → kb * k + i < recD w 0 → nb * n + j < recD w 1 → EngineReads s t w (kb * k + i) (nb * n + j)

/-- The plane holds block (kb, nb) of W, with absent elements past W's lengths, and its checksum column (R197, R213). -/
def Loaded (s : State) (t : Fin 900) (w : Vec) (id kb nb af : Nat) (p : Plane) : Prop :=
  let k := pairK (recFmt w) af
  let n := pairN (recFmt w) af
  (p.valid = true ∧ p.wfmt = recFmt w ∧ p.afmt = af ∧ p.t = id ∧ p.kb = kb ∧ p.nb = nb) ∧ (∀ g j, p.scaleAt g j = 127) ∧
    (∀ i j, i < k → j < n → p.weight i j =
      if kb * k + i < recD w 0 ∧ nb * n + j < recD w 1 then some (elemIn s t w (kb * k + i) (nb * n + j)) else none) ∧
    ∀ i, i < k → p.column.getD i none =
      let ws := (List.range n).filterMap (p.weight i)
      if ws = [] then none else some (sumExact 0 ws).val

/-- R81's order over the plane's groups: each group's products exact, their sum exact, a NaN factor, 0 × ∞ or +∞ with −∞ NaN, an
exact zero +0; then scaled by the column's block scale, rounded to FP32, and added to the accumulator with a rounding. -/
def inOrder (p : Plane) (acc : BitVec 32) (a w : Nat → Option Val) (scale : Nat → Nat) : BitVec 32 :=
  (List.range (p.k / p.g)).foldl (fun acc g =>
    let products := (List.range p.g).filterMap fun i => match a (p.g * g + i), w (p.g * g + i) with
      | some x, some y => some (mulExact x y).val
      | _, _ => none
    let sum := if products.any Val.isNan then .nan false else (sumExact 0 products).val
    let sum := if sum.isZero then .zero false else sum
    let v := (round 1 0 false (sum.scale ((scale g : Int) - 127)) 0).code
    BitVec.ofNat 32 (round 1 0 false (sumExact 0 [decodeFmt 1 acc.toNat, decodeFmt 1 v]).val 0).code) acc

/-- An mm.stream of A through a plane of weights of format wf for A's format passes its checks (R199). -/
def Streamable (s : State) (t : Fin 900) (a : Vec) (x : StreamOp) (wf geom : Nat) : Prop :=
  let k := pairK wf (recFmt a)
  Unscaled a ∧ recD a 2 ≠ 0 ∧ recD a 3 ≠ 0 ∧ 0 < x.n ∧ x.ar + x.n ≤ 512 ∧ x.row0 + x.n ≤ recD a 1 ∧ x.kb * k < recD a 0 ∧
    (x.ov = true ∨ pairN wf (recFmt a) = geom) ∧
    ∀ i r, i < k → r < x.n → x.kb * k + i < recD a 0 → EngineReads s t a (x.kb * k + i) (x.row0 + r)

/-- The rows of A have been streamed: accumulators and row references of rows ar to ar + n − 1 by R81 and R214, the other rows
as before; mmwm names the rows and is not valid; the geometry is the plane's; the batch is R215's. -/
def Streamed (s : State) (t : Fin 900) (a : Vec) (x : StreamOp) (p : Plane) (m n : Mm) : Prop :=
  let av := fun (i k : Nat) => if x.kb * p.k + k < recD a 0 then some (elemIn s t a (x.kb * p.k + k) (x.row0 + i)) else none
  let begins := fun (old : BitVec 32) => if x.ov then 0 else old
  (∀ i, i < x.n → ∀ j : Fin 32, (n.row (x.ar + i)).cols[j] =
    if j.val < p.n then inOrder p (begins (m.row (x.ar + i)).cols[j]) (av i) (fun k => p.weight k j.val) (fun g => p.scaleAt g j.val)
    else (m.row (x.ar + i)).cols[j]) ∧
  (∀ i, i < x.n → (n.row (x.ar + i)).ref =
    inOrder p (begins (m.row (x.ar + i)).ref) (av i) (fun k => p.column.getD k none) fun _ => 127) ∧
  (∀ r, r < x.ar ∨ x.ar + x.n ≤ r → n.row r = m.row r) ∧
  (bits n.wm 24 16 = x.ar ∧ bits n.wm 9 0 = x.n ∧ bit n.wm 63 = false ∧
    n.wm &&& 0x7FFF_FFFF_FE00_FC00 = m.wm &&& 0x7FFF_FFFF_FE00_FC00) ∧
  n.geom = (if x.ov then p.n else m.geom) ∧
  n.bz = { m.bz with batch := n.bz.batch, q := n.bz.q, colCheck := n.bz.colCheck, retry := n.bz.retry } ∧
  n.bz.batch = (if x.ov then some (x.ar, x.n) else m.bz.batch) ∧
  n.bz.colCheck = (x.ov || (decide (m.bz.batch = some (x.ar, x.n)) && m.bz.colCheck))

/-- An mm.drain to C passes the checks before the comparison (R200): here C is row by row, of a format without scales. -/
def Drainable (c : Vec) (x : DrainOp) (geom : Nat) : Prop :=
  Unscaled c ∧ recD c 2 ≠ 0 ∧ recD c 3 ≠ 0 ∧ recS c 0 = 1 ∧ recD c 0 ≤ recS c 1 ∧ 0 < x.n ∧ x.ar + x.n ≤ 512 ∧
    x.row0 + x.n ≤ recD c 1 ∧ x.col0 < recD c 0 ∧
    geom ∈ [16, 32] ∧ elemAt c (recD c 0) (x.row0 + x.n) ≤ 0x3C_0000

/-- The drained rows agree with their references, and the columns where they are checked (R216). -/
def Agrees (m : Mm) (x : DrainOp) : Prop :=
  let tol := m.bz.tol (tolIndex m.active.wfmt)
  let checks := fun (xs : List (BitVec 32)) (ref : BitVec 32) => agree tol (sumsOf xs).1 ref (sumsOf xs).2 = true
  (∀ i, i < x.n → checks ((List.range m.geom).map (m.row (x.ar + i)).col) (m.row (x.ar + i)).ref) ∧
    (m.bz.colCheck = true → m.bz.batch = some (x.ar, x.n) →
      ∀ j : Fin 32, j.val < m.geom → checks ((List.range x.n).map fun i => (m.row (x.ar + i)).col j.val) m.bz.q[j])

/-- The rows have been written to C: each element inside C rounds its accumulator by the mode, and no other byte is different
(R200). -/
def Drained (s u : State) (t : Fin 900) (c : Vec) (x : DrainOp) (m : Mm) : Prop :=
  let place := fun (i j : Nat) => lmLoc t.val (elemAt c (x.col0 + j) (x.row0 + i))
  let inside := fun (i j : Nat) => i < x.n ∧ j < m.geom ∧ x.col0 + j < recD c 0
  (∀ i j, inside i j → u.mem.read (place i j) (elemSize c) =
    (round (recFmt c) x.rm x.sat (decodeFmt 1 ((m.row (x.ar + i)).col j).toNat) 0).code) ∧
  ∀ l, (∀ i j, inside i j → l < place i j ∨ place i j + elemSize c ≤ l) → u.mem.byte l = s.mem.byte l

/-- The entry at the head of a tile's queue has left: its ring entries close, its four issuers collect its flags, and of the tile's
engine what n says has changed. -/
def EntryLeaves (s u : State) (t : Fin 900) (rest : List MmEntry) : Prop :=
  u = { s with ctxs := u.ctxs, mms := u.mms, nis := u.nis, tiles := u.tiles, mem := u.mem } ∧ OtherMms s u t.val ∧
    OtherTiles s u t.val ∧ (u.mm t.val).queue = rest ∧ ∀ a, (∀ g, a ≠ .facet t g 0) → u.ctx a = s.ctx a

/-- The four control contexts collect an entry's flags and nothing else of them changes (R79). -/
def Collects (s u : State) (t : Fin 900) : Prop :=
  ∀ g : Fin 4, let c := s.ctx (.facet t g 0)
    ∃ flags undo, u.ctx (.facet t g 0) = { c with fflags := c.fflags ||| flags, undo := undo }

/-- The issuers of entry `id`, parked on it, retire with a register written, and collect the entry's flags. -/
def Retires (s u : State) (t : Fin 900) (id : Nat) (write : Ctx → Ctx) : Prop :=
  ∀ g : Fin 4, let c := s.ctx (.facet t g 0)
    c.run = .parked (.matrix id) → ∃ flags undo,
      u.ctx (.facet t g 0) = { write c with pc := c.pc + 4, run := .ready, fflags := c.fflags ||| flags, undo := undo }

/-! ### Copy requests (R234, R237 to R248) -/

/-- The request at the head of a facet's copy queue, alone there, unstarted and free to leave: four words, pushed by context k of
the facet through its own device, with no release to wait for, no semaphore to signal and a completion asked for (MB). -/
def CopyHead (s : State) (t : Fin 900) (f : Fin 4) (k : Fin 11) (q : Fin 2) (r : CopyReq) (kind : Nat) : Prop :=
  (s.ni (.facet t f)).cq[q] = [r] ∧ r.words.length = 4 ∧ r.agent = .facet t f k ∧ r.spc = 0 ∧ r.phase = .queued ∧
    s.freeze = false ∧ (s.ni (.facet t f)).quiescing = false ∧ (s.facet t f).fenced = false ∧ s.softErrors = [] ∧
    bits (r.w 0) 7 0 = kind ∧ bits (r.w 0) 31 27 = 0 ∧ bit (r.w 0) 56 = true ∧ bit (r.w 0) 58 = false ∧
    bit (r.w 0) 59 = false ∧ bit (r.w 0) 60 = false

/-- The request has run and succeeded: its queue holds it with its completion to place, and with count units done. -/
def CopyDone (s u : State) (t : Fin 900) (f : Fin 4) (q : Fin 2) (r : CopyReq) (count : Nat) (info : Word) : Prop :=
  OtherNis s u (.facet t f) ∧ u.ni (.facet t f) = { s.ni (.facet t f) with cq := (u.ni (.facet t f)).cq } ∧
    (∀ p : Fin 2, p ≠ q → (u.ni (.facet t f)).cq[p] = (s.ni (.facet t f)).cq[p]) ∧
    ∃ used, (u.ni (.facet t f)).cq[q] =
      [{ r with phase := .completing, status := 0, count := count, info := info, targets := [], used := used }]

/-- n bytes at an address of local memory inside one 64-byte block that a request of this privilege may reach. -/
def InBlock (r : CopyReq) (va n : Nat) : Prop :=
  0 < n ∧ va / 64 = (va + n - 1) / 64 ∧ va + n ≤ if r.priv then 0x40_0000 else 0x3C_0000

/-- A tensor record of 32-bit integers (format 0x0B) in local memory, not swizzled, with its element (i, j) inside its lengths
and inside user local memory. -/
def IntTensor (v : Vec) (i j : Nat) : Prop :=
  recValid v = true ∧ recFmt v = 0x0B ∧ recSwz v = 0 ∧ recBase v % 4 = 0 ∧ recBase v + 4 * (i * recS v 0 + j * recS v 1) + 4 ≤ 0x3C_0000 ∧
    i < recD v 0 ∧ j < recD v 1

/-- The offset of element (i, j) of such a tensor (R189). -/
def intOffset (v : Vec) (i j : Nat) : Nat := recBase v + 4 * (i * recS v 0 + j * recS v 1)

/-! ### Queues, pools and tasks (R276 to R310) -/

/-- The tile's gang is bound, and rid is its region. -/
def GangRegion (s : State) (t : Fin 900) (rid : BitVec 16) : Prop :=
  ∃ g G, (s.tile t.val).gang = some g ∧ s.gangs.find g = some G ∧ G.rid = rid

/-- Nothing but contexts and work queue n is different. -/
def OnlyQueue (s u : State) (n : Nat) : Prop := u = { s with ctxs := u.ctxs, queues := u.queues } ∧ OtherQueues s u n

/-- Every pool but one is as before. -/
def OtherPools (s t : State) (n : Nat) : Prop := ∀ m, m ≠ n → t.pool m = s.pool m

/-- A take among those that wait at a shard, in the order of their issue (R300, R313). -/
def joinsBySince (w : List PoolTake) (t : PoolTake) : List PoolTake :=
  let earlier := fun (x : PoolTake) => decide (x.since ≤ t.since)
  w.takeWhile earlier ++ t :: w.dropWhile earlier

/-- Nothing but contexts and pool n, which is now p, is different. -/
def OnlyPool (s u : State) (n : Nat) (p : Pool) : Prop :=
  u = { s with ctxs := u.ctxs, pools := u.pools } ∧ OtherPools s u n ∧ u.pool n = some p

/-- The registers from x[d] on hold the listed values, but for x0, and every other x register what it held. -/
def SetsRun (d : BitVec 5) (vs : List Word) (c c' : Ctx) : Prop :=
  ∀ r : BitVec 5, c'.getX r = if d.toNat ≤ r.toNat ∧ r ≠ 0 then (vs[r.toNat - d.toNat]?).getD (c.getX r) else c.getX r

/-- A unit has completed a context's parked instruction, which wrote the listed registers. -/
def Answered (d : BitVec 5) (vs : List Word) (c c' : Ctx) : Prop :=
  SetsRun d vs c c' ∧ c' = { c with x := c'.x, pc := c.pc + 4, run := .ready }

/-- The element goes in before every greater key and after every smaller or equal one, so that equal keys keep the order in
which they became present (R297). -/
def GoesIn (key payload : Word) (old new : List PoolElem) : Prop :=
  ∃ before e after, old = before ++ after ∧ new = before ++ e :: after ∧ e.key = key ∧ e.payload = payload ∧
    (∀ y ∈ before, y.key.toNat ≤ key.toNat) ∧ ∀ y, after.head? = some y → key.toNat < y.key.toNat

/-- An on-chip store in order of key, its presence orders below a count, with room, and nothing in the scree or waiting (R297). -/
def ChipInOrder (p : Pool) (x : Shard) : Prop :=
  x.scree = [] ∧ x.held = [] ∧ x.chip.length < 4096 ∧ x.chip.Pairwise (fun a b => a.key.toNat ≤ b.key.toNat) ∧
    ∀ y ∈ x.chip, y.order ≤ p.counter

/-- The pool is open with one shard, without aging, all its elements on chip, each with a presence order of its own (R286, R297,
R309). -/
def OneShard (p : Pool) (x : Shard) : Prop :=
  p.s = 1 ∧ p.limit = 0 ∧ p.threshold = none ∧ p.shards = [x] ∧ x.scree = [] ∧ (x.chip.map fun e => e.order).Nodup

/-- No task.next of a tile waits. -/
def NoTaskWaits (s : State) : Prop := ∀ u, (s.tile u).taskOrder = []

/-- The location of a byte of a tile's record (R180). -/
def recordLoc (t : Fin 900) (off : Nat) : Nat := lmLoc t.val (0x3F_F000 + off)

/-- The n bytes at an offset of a tile's record. -/
def recordAt (s : State) (t : Fin 900) (off n : Nat) : Nat := s.mem.read (recordLoc t off) n

/-- Nothing is frozen, and the tile's gang is g, in slot n, with the ready pool p of one shard x, whose elements are all present and
in which nobody waits (R286, R287, R292). -/
def PoolGang (s : State) (t : Fin 900) (n : Nat) (g : Gang) (p : Pool) (x : Shard) : Prop :=
  s.freeze = false ∧ (s.tile t.val).gang = some n ∧ s.gangs.find n = some g ∧ g.pool ≠ 0xFF ∧ t.val ∈ g.tiles ∧ s.pool g.pool = some p ∧
    OneShard p x ∧ x.held = [] ∧ NoTaskWaits s

/-- The TCB at X[a] is 128-byte aligned in paged memory, and the checks of R121 find it at pa (R288). -/
def FindsTcb (s : State) (tcb : Word) (pa : Nat) : Prop :=
  tcb.toNat % 128 = 0 ∧ bits tcb 63 60 ≠ 0 ∧ bits tcb 63 60 ≠ 15 ∧ s.check s.cur 0 tcb 64 2 s.c.kernel = .ok (.loc pa) ∧
    pa + 128 ≤ 2 ^ 40

/-- The TCB at pa has become ready and gone into its pool (R286): state 1, one more release, one more task in flight, an
element of key 255 - prio admitted; of its other bytes only the two counters may be different. -/
def Released (s u : State) (tcb : Word) (pa : Nat) : Prop :=
  let n := s.mem.read (pa + 21) 1
  u.mem.read (pa + 16) 1 = 1 ∧ u.mem.read (pa + 22) 2 = (s.mem.read (pa + 22) 2 + 1) % 2 ^ 16 ∧
    (∀ l, l < pa ∨ pa + 8 ≤ l → l ≠ pa + 16 → l ≠ pa + 22 → l ≠ pa + 23 → u.mem.byte l = s.mem.byte l) ∧
    (∀ m, u.tile m = s.tile m) ∧ OtherPools s u n ∧
    ∃ p x chip, s.pool n = some p ∧ p.shards = [x] ∧
      GoesIn (toWord (255 - s.mem.read (pa + 17) 1)) tcb x.chip chip ∧
      u.pool n = some { p with
        tasks := p.tasks + 1, counter := p.counter + 2
        shards := [{ x with chip := chip, admitted := x.admitted + 1 }] }

/-- The pool that a TCB names is open with room, and nobody waits for its tasks. -/
def PoolTakes (s : State) (pa : Nat) : Prop :=
  ∃ p x, s.pool (s.mem.read (pa + 21) 1) = some p ∧ OneShard p x ∧ ChipInOrder p x ∧ NoTaskWaits s

/-- The one shard's gang of one tile at (x, y), origin of the array's tile number 30 y + x. -/
def OneTile (g : Gang) (t : Fin 900) : Prop := g.w = 1 ∧ g.h = 1 ∧ g.y0 * 30 + g.x0 = t.val

/-- n bytes of a record of a queue or unit, from a byte on. -/
def recBytes (v : Vec) (off n : Nat) : Nat := v.toNat / 256 ^ off % 256 ^ n

/-- A launch record for one gang of w by h tiles that passes the checks on its own fields (R271, R272), with no ready pool and no
tensors. -/
def PlainLaunch (v : Vec) : Prop :=
  let cbase := recBytes v 32 4
  let climit := recBytes v 36 4
  let isize := recBytes v 8 4
  let entry := recBytes v 12 4
  1 ≤ recBytes v 40 1 ∧ recBytes v 40 1 ≤ 30 ∧ 1 ≤ recBytes v 41 1 ∧ recBytes v 41 1 ≤ 30 ∧ cbase < climit ∧ climit ≤ 0x3C_0000 ∧
    isize ≤ climit - cbase ∧ entry < climit - cbase ∧ entry % 4 = 0 ∧ recBytes v 42 1 = 0 ∧ recBytes v 43 1 < 4 ∧
    recBytes v 45 1 = 0xFF ∧ recBytes v 46 2 = 0

/-- A launch record breaks the first row of the checks (R272). -/
def BadLaunch (v : Vec) : Prop :=
  let w := recBytes v 40 1
  let h := recBytes v 41 1
  let cbase := recBytes v 32 4
  let climit := recBytes v 36 4
  let entry := recBytes v 12 4
  let ntens := recBytes v 42 1
  let tid0 := recBytes v 44 1
  let pool := recBytes v 45 1
  w = 0 ∨ 30 < w ∨ h = 0 ∨ 30 < h ∨ climit ≤ cbase ∨ 0x3C_0000 < climit ∨ climit - cbase < recBytes v 8 4 ∨ climit - cbase ≤ entry ∨
    entry % 4 ≠ 0 ∨ 16 < ntens ∨ (0 < ntens ∧ (tid0 = 0 ∨ 256 < tid0 + ntens)) ∨ (63 < pool ∧ pool ≠ 0xFF) ∨ 4 ≤ recBytes v 43 1 ∨
    recBytes v 46 2 ≠ 0

/-- The terms of a root RCB at a physical address, with its values its own (R268): priority, share, local memory, HBM pages and
quantum. -/
def rootTerms (s : State) (root : Nat) : RegionTerms :=
  { prio := s.mem.read (root + 9) 1, share := s.mem.read (root + 20) 4, lmem := s.mem.read (root + 24) 8
    pages := s.mem.read (root + 32) 8, quant := s.mem.read (root + 40) 4 }

/-- The RCB of an address is a root at a physical address, with every value its own (R268, R269). -/
def RootAt (s : State) (rcb : Word) (root : Nat) : Prop :=
  s.unitPa rcb 0 = .ok root ∧ s.mem.read root 8 = 0 ∧ s.mem.read (root + 8) 1 = 0xFF

/-! ### Crest accesses, objects and bytecode (R316 to R351) -/

/-- The context of crest core k in issue uses its own device's addresses; its translation cache is within its size, no soft
error waits, and none of its core's earlier traffic is under way (R10, R47). -/
def CrestRuns (s : State) (k : Fin 32) (c : Fin 2) : Prop :=
  s.cur = .crest k c ∧ s.latch.rep = none ∧ s.c.spc = 0 ∧ (s.tile (1000 + k.val)).tlb.length ≤ 64 ∧ s.softErrors = [] ∧
    ∀ h, s.homeBusy s.cur h = false

/-- Crest core k reads and writes the n bytes at va, inside one page, at physical address pa: its cache translates the page, with
R, W and U (R260, R358, R359). -/
def Reach (s : State) (k : Fin 32) (va : Word) (n pa : Nat) : Prop :=
  bits va 63 60 ≠ 0 ∧ bits va 63 60 ≠ 15 ∧ va.toNat % 0x10000 + n ≤ 0x10000 ∧ pa + n ≤ Config.hbmBytes ∧
    ∃ l, tlbFind (s.tile (1000 + k.val)).tlb s.c.spc (va.toNat / 0x10000) = some l ∧ l.perms &&& 0xB = 0xB ∧ l.pa va = pa

/-- Nothing but the context in issue, its core's translation cache, n bytes of memory and what counts as dirty in the caches of
crest cores (log entry 75) is different. -/
def OnlyCrest (s u : State) (k : Fin 32) (loc n : Nat) : Prop :=
  u = { s with ctxs := u.ctxs, tiles := u.tiles, mem := u.mem, dirty := u.dirty } ∧ OtherCtxs s u s.cur ∧
    OtherTiles s u (1000 + k.val) ∧ OtherBytes s u loc n

/-- v is an object of which core k reaches the first n bytes at pa (R319, R320). -/
def Obj (s : State) (k : Fin 32) (v : Word) (n pa : Nat) : Prop := bits v 3 0 = 1 ∧ Reach s k (v - 1) n pa

/-- The instruction takes the precise fault of a code after the checks of its accesses have passed (R91, R325): the context enters the
kernel, its core's translation cache may be in another order, and nothing else is different. -/
def TrapsAfter (i : Instr) (s : State) (k : Fin 32) (code : Nat) (info : Word) : Prop :=
  Completes i s fun u => OnlyCrest s u k 0 0 ∧ Entered s.c u.c 0 (toWord code) info ∧ u.c.x = s.c.x

/-- Two runs of bytes do not meet. -/
def Apart (a n b m : Nat) : Prop := a + n ≤ b ∨ b + m ≤ a

/-- d is the code descriptor at cd (R323). -/
def DescAt (s : State) (k : Fin 32) (cd : Word) (d : Desc) : Prop :=
  ∃ p, cd.toNat % 8 = 0 ∧ Reach s k cd 48 p ∧
    d = { code := s.mem.read p 8, clen := s.mem.read (p + 8) 4, pool := toWord (s.mem.read (p + 16) 8)
          npool := s.mem.read (p + 24) 4, nframe := s.mem.read (p + 28) 2, nparam := s.mem.read (p + 30) 1
          ictab := toWord (s.mem.read (p + 32) 8), nic := s.mem.read (p + 40) 4 }

/-- A bytecode instruction runs at core k with the descriptor d and its 256 frame registers in one page at pf (R316, R323). -/
def Bytecode (s : State) (k : Fin 32) (c : Fin 2) (d : Desc) (pf : Nat) : Prop :=
  CrestRuns s k c ∧ DescAt s k (s.c.xn 20) d ∧ (s.c.xn 18).toNat % 8 = 0 ∧ Reach s k (s.c.xn 18) 2048 pf

/-- Frame register n of a frame at pf. -/
def freg (s : State) (pf n : Nat) : Word := toWord (s.mem.read (pf + 8 * n) 8)

/-- A value that is no object pointer, so that counting it does nothing. -/
def Plain (v : Word) : Prop := bits v 3 0 ≠ 1

/-- The context goes on at the next bytecode instruction. -/
def bcNextCtx (s : State) : Ctx := s.c.setXn 19 (s.c.xn 19 + toWord s.latch.len)

/-- The instruction writes v to frame register a, neither v nor the old value being an object, and goes on in line. -/
def Puts (i : Instr) (s : State) (k : Fin 32) (pf a : Nat) (v : Word) : Prop :=
  Plain (freg s pf a) → Plain v → Completes i s fun u =>
    OnlyCrest s u k (pf + 8 * a) 8 ∧ u.mem.read (pf + 8 * a) 8 = v.toNat ∧ u.c = bcNextCtx s

/-- The instruction leaves bytecode mode to the runtime's vector, the first doubleword of its block, with the exit registers of
R325 and nothing else changed. -/
def Leaves (i : Instr) (s : State) (k : Fin 32) (code : Nat) (info bpc x1 x3 x4 x5 : Word) : Prop :=
  ∀ pr, (s.c.xn 28).toNat % 8 = 0 → Reach s k (s.c.xn 28) 64 pr → s.mem.read pr 8 % 4 = 0 → Completes i s fun u =>
    OnlyCrest s u k 0 0 ∧ SetsRun 1 [x1, bpc, x3, x4, x5] s.c u.c ∧
    u.c = { s.c with
      x := u.c.x, epc := bpc ||| 1, ecause := toWord code, einfo := info, pc := toWord (s.mem.read pr 8), bytecode := false }

/-- An instruction of format A or I with opcode op and first field a leaves by GUARD (R325, R326). -/
def GuardA (i : Instr) (s : State) (k : Fin 32) (pf op a : Nat) (x1 : Word) : Prop :=
  let w := s.latch.word
  bits w 7 0 = op → bits w 15 8 = a → Leaves i s k 0x15 0 (s.c.xn 19) x1 (s.c.xn 18 + toWord (8 * a))
    (freg s pf (bits w 23 16)) (freg s pf (bits w 31 24))

/-- An instruction of format K leaves by GUARD. -/
def GuardK (i : Instr) (s : State) (k : Fin 32) (op a : Nat) : Prop :=
  let w := s.latch.word
  bits w 7 0 = op → bits w 15 8 = a → Leaves i s k 0x15 0 (s.c.xn 19) 0 (s.c.xn 18 + toWord (8 * a))
    ((w.extractLsb' 16 16).signExtend 64) 0

/-- The value of a small-integer word (R319). -/
def intOf (v : Word) : Int := (v.sshiftRight 1).toInt

/-- A mono inline-cache entry of a kind at ea (R336): its layout, class version and target. -/
def MonoEntry (s : State) (k : Fin 32) (ea : Word) (kind layout cver target : Nat) : Prop :=
  ∃ p, ea.toNat % 16 = 0 ∧ Reach s k ea 16 p ∧ s.mem.read p 4 = layout ∧ s.mem.read (p + 4) 1 % 16 = kind ∧
    s.mem.read (p + 5) 1 % 4 = 1 ∧ s.mem.read (p + 6) 2 = cver ∧ s.mem.read (p + 8) 8 = target

/-- The version that a binding record names holds (R338): its class, of kind 0x0B, with a small-integer version whose low 16
bits are cver. -/
def VersionHolds (s : State) (k : Fin 32) (pb cver : Nat) : Prop :=
  let cls := toWord (s.mem.read pb 8)
  ∃ pc, Obj s k cls 24 pc ∧ s.mem.read (pc + 13) 1 = 0x0B ∧ s.mem.read (pc + 16) 8 % 2 = 0 ∧
    s.mem.read (pc + 16) 8 / 2 % 2 ^ 16 = cver

/-! ### Firmware, management and the host (R165 to R173, R361 to R387) -/

/-- A crest context at kernel privilege calls the firmware. -/
def Calls (s : State) (k : Fin 32) (c : Fin 2) : Prop := s.cur = .crest k c ∧ s.c.kernel = true ∧ s.latch.rep = none

/-- The firmware has answered a call: x1 and x2 hold the answer and the call has retired (R385). -/
def Replied (s : State) (c' : Ctx) (x1 x2 : Word) : Prop :=
  SetsRun 1 [x1, x2] s.c c' ∧ c' = { s.c with x := c'.x, pc := follows s }

/-- A region whose RCB the firmware reads at p, and whose stat it writes at w: no gang is bound, no launch waits, and nothing waits
at the region's queues and pools. -/
def IdleRegion (s : State) (rcb : Word) (rid : BitVec 16) (p w : Nat) : Prop :=
  s.gangs.cells = [] ∧ (∀ v : Fin 4, s.dispatch[v].launches = []) ∧ s.unitPa rcb 0 = .ok p ∧ s.unitPa (rcb + 56) 1 = .ok w ∧
    rid.toNat = s.mem.read (p + 12) 2 ∧
    (s.queues.cells.map Prod.fst).Nodup ∧ (s.pools.cells.map Prod.fst).Nodup ∧
    (∀ x ∈ s.queues.cells, x.2.rid = rid → x.2.waiters = []) ∧
    ∀ x ∈ s.pools.cells, x.2.rid = rid → x.2.steals = [] ∧ ∀ y ∈ x.2.shards, y.waits = []

/-- The kernel message at the end of a teardown, whose contents are open (R283). -/
def TellsKernel (s u : State) (k : Fin 32) (c : Fin 2) : Prop :=
  ∃ lo hi : Word, u.msgs = s.msgs ++
    [{ id := s.nextId, group := s.nextId, sender := none, kernel := true, dest := .crest k, ctx := c.val, lo := lo, hi := hi
       destWord := 0, ring := none, refusals := [] }]

/-- Such a region has been torn down (R283): its queues and its pools are closed, stat bit 0 of its RCB is set, and the calling
context of the kernel gets a message. -/
def TornDown (s u : State) (k : Fin 32) (c : Fin 2) (rid : BitVec 16) (w : Nat) : Prop :=
  u = { s with
    ctxs := u.ctxs, mem := u.mem, queues := u.queues, pools := u.pools, msgs := u.msgs, free := s.free + 2
    nextId := s.nextId + 1 } ∧ OtherCtxs s u (.crest k c) ∧
    (∀ n, u.queue n = if (s.queue n).open_ = true ∧ (s.queue n).rid = rid then Queue.initial else s.queue n) ∧
    (∀ n, u.pool n = (s.pool n).filter fun p => p.rid ≠ rid) ∧ OtherBytes s u w 8 ∧ u.mem.read w 8 = 1 ∧ TellsKernel s u k c

/-- The word of a notice (R374). -/
def noticeWord (command value : Nat) : Word := toWord (command * 2 ^ 56 + value)

/-- The kernel has crashed for a cause with a panic code (R365, R366): the facets are frozen as by FREEZE, every crest core is
reset, its mailbox and release queue empty, with what the dispatch units hold for it, while its copy queues hold what is queued;
gangs, tiles and the items of queues and pools stand, and so does memory but for the dirty bytes of the lines that a core which does
not answer has not written back: those hold what they held before (log entry 75). A second crash before THAW leaves the device
frozen. -/
def Crashed (s u : State) (cause : Byte) (code : Word) : Prop :=
  let m := s.mgmt
  let v := (m.crashes + 1).toNat + cause.toNat * 2 ^ 16 + bits code 23 0 * 2 ^ 24
  u = { s with
    freeze := true, ctxs := u.ctxs, nis := u.nis, relqs := u.relqs, queues := u.queues, pools := u.pools, net := u.net
    dispatch := u.dispatch, mgmt := u.mgmt, mem := u.mem, dirty := Table.empty, silent := [] } ∧
    (let lost := fun (l : Nat) (x : DirtyByte) => (x.core, l / 64) ∈ s.silent ∧ s.mem.byte l = x.new
     (∀ l, (∀ x, (l, x) ∈ s.dirty.cells → ¬lost l x) → u.mem.byte l = s.mem.byte l) ∧
       ∀ l x, (l, x) ∈ s.dirty.cells → lost l x → (∀ y, (l, y) ∈ s.dirty.cells → y = x) → u.mem.byte l = x.old) ∧
    (∀ v : Fin 4, u.dispatch[v] = { s.dispatch[v] with out := [] }) ∧
    (∀ t f k, let c := s.ctx (.facet t f k)
      u.ctx (.facet t f k) = if c.run ≠ .notLive ∧ c.run ≠ .saved ∧ c.run ≠ .halted then { c with frozen := true } else c) ∧
    (∀ k c, u.ctx (.crest k c) = Ctx.initial) ∧ (∀ t f, u.ni (.facet t f) = s.ni (.facet t f)) ∧
    (∀ k, let n := s.ni (.crest k)
      u.ni (.crest k) = { Ni.initial with cq := n.cq, ring := n.ring, seq := n.seq } ∧ u.relq k.val = ReleaseQueue.initial) ∧
    (∀ n, u.queue n = { s.queue n with waiters := (u.queue n).waiters }) ∧
    (∀ n p, s.pool n = some p → ∃ q, u.pool n = some q ∧ q.tasks = p.tasks ∧
      q.shards.map (fun x => (x.chip, x.scree, x.held)) = p.shards.map fun x => (x.chip, x.scree, x.held)) ∧
    (u.net = s.net.filter fun x => !isCrest x.agent || x.kind = .store) ∧
    u.mgmt = { m with
      crashed := true, crashes := m.crashes + 1, crashCause := cause, panicCode := code
      frozenTwice := m.frozenTwice || m.crashed
      notices := m.notices ++ noticeWord 0x81 v :: if m.crashed then [noticeWord 0x85 v] else [] }

/-- The alarm has been raised (R369): one more entry in the log, of which the newest 16 stay, a type-7 record, a notice if the
module had its keys, and with EOA = 1 the keys are gone and the device information block says so. -/
def Alarmed (s u : State) (why : AlarmCause) (code agent : Nat) : Prop :=
  let g := s.signet
  let e : AlarmEntry := ⟨why, BitVec.ofNat 16 agent, s.now⟩
  let keyed := g.keyed && !g.eoa
  u = { s with signet := u.signet, mem := u.mem, mgmt := u.mgmt } ∧
    u.signet = { g with keyed := keyed, log := (if g.log.length < 16 then g.log else g.log.tail) ++ [e] } ∧
    OtherBytes s u (Config.dib + 12) (if keyed then 0 else 1) ∧
    (keyed = false → u.mem.read (Config.dib + 12) 1 / 2 % 2 = 1) ∧
    ∃ r : Vec, bits r 7 0 = 7 ∧ bits r 15 8 = 0x1C ∧
      u.mgmt = { moreRecords s r with
        notices := s.mgmt.notices ++ if g.keyed then [noticeWord 0x82 (code * 2 ^ 40 + agent * 2 ^ 24)] else [] }

/-- The standby complex is active, with a firmware level, and the device information block names it (R384). -/
def TakenOver (s u : State) (level : BitVec 16) : Prop :=
  let b := !s.mgmt.activeB
  let at_ := Config.dib + 12
  u = { s with mem := u.mem, mgmt := { s.mgmt with activeB := b, firmware := level } } ∧ OtherBytes s u at_ 1 ∧
    u.mem.read at_ 1 % 4 = s.mem.read at_ 1 % 4 ∧ u.mem.read at_ 1 / 8 = s.mem.read at_ 1 / 8 ∧
    (u.mem.read at_ 1 / 4 % 2 = if b then 1 else 0)

/-- The complex may take the request and answer (R374), and its command is this. -/
def Requests (s : State) (command : Nat) : Prop :=
  s.mgmt.inUnread = true ∧ s.mgmt.outValid = false ∧ s.mgmt.notices = [] ∧ bits s.mgmt.inWord 63 56 = command

/-- The complex has taken the request, and MBOXOUT holds the reply with its tag (R374). -/
def RepliesTo (i : Instr) (s : State) (command value : Nat) : Prop :=
  Completes i s fun u => u = { s with mgmt := { s.mgmt with
    inUnread := false, outValid := true
    outWord := toWord (command * 2 ^ 56 + bits s.mgmt.inWord 55 48 * 2 ^ 48 + value) } }

/-- The n bytes at an address of host memory are known and hold v. -/
def HostBytes (s : State) (a n v : Nat) : Prop :=
  ∀ i, i < n → s.host.mem.find (a + i) = some (BitVec.ofNat 8 (v / 256 ^ i))

/-- Where the slot at the read index lies, and where its completion goes (R375). -/
def slotAt (s : State) : Nat := s.host.rbase.toNat + 64 * (s.host.rhead.toNat % 256)

/-- And its completion. -/
def doneAt (s : State) : Nat := s.host.cbase.toNat + 16 * (s.host.rhead.toNat % 256)

/-- The device may fetch the slot, and it is this (R375, R376). -/
def Fetches (s : State) (slot : Nat) : Prop :=
  s.mgmt.step = 7 ∧ bit s.host.rctl 0 = true ∧ s.host.err = 0 ∧ s.host.rhead ≠ s.host.rtail ∧ slot < 2 ^ 512 ∧
    HostBytes s (slotAt s) 64 slot

/-- The slot has completed with a status and a count of bytes: tag, status and bytes moved in the completion ring, the read
index past it, the vector raised if the slot asks for it; of host memory only the completion and n bytes at a may be
different. -/
def SlotDone (s u : State) (slot status moved a n : Nat) : Prop :=
  HostBytes u (doneAt s) 16 (slot / 2 ^ 16 % 2 ^ 16 + status * 2 ^ 16 + moved * 2 ^ 32) ∧
    u.host = { s.host with mem := u.host.mem, rhead := s.host.rhead + 1 } ∧
    (∀ l, l < doneAt s ∨ doneAt s + 16 ≤ l → l < a ∨ a + n ≤ l → u.host.mem.find l = s.host.mem.find l) ∧
    u.mgmt = { s.mgmt with
      msix := if slot / 2 ^ 8 % 2 = 1 then s.mgmt.msix ||| BitVec.ofNat 16 (2 ^ bits s.host.rctl 11 8) else s.mgmt.msix }

/-- The n bytes at a paged address of space 0x00, inside one 64-byte block, lie at pa, and the unit may reach them: kind 0 a read,
1 a write. -/
def UnitReaches (s : State) (va : Word) (n kind pa : Nat) : Prop :=
  0 < n ∧ va.toNat % 64 + n ≤ 64 ∧ s.unitPa va kind = .ok pa ∧ s.softErrors = []

/-- A packet arrives at a working port, for this device, with a key that an ingress entry admits (R378, R380). -/
def Arrives (s : State) (port : Fin 12) (p : Packet) : Prop :=
  (s.port port.val).down = false ∧ p.dest = s.mgmt.fabricId.toNat ∧ p.cls ≤ 2 ∧
    ∃ i, i < 64 ∧ ((s.port port.val).ingress.get 0 i).extractLsb' 0 17 = 0x10000 + p.key.setWidth 17

/-- A facet context that a pre-emption can save at once: at user privilege outside every handler, not frozen, ready, with no late
fault and nothing under way. -/
def Saveable (s : State) (a : Agent) : Prop :=
  let c := s.ctx a
  c.run = .ready ∧ c.frozen = false ∧ c.kernel = false ∧ c.uih = false ∧ c.kt = false ∧ c.pe = false ∧ c.late = [] ∧
    c.bytecode = false ∧ NothingOpen s a

/-- The location of an offset in a facet context's save record (R180). -/
def inRecord (t : Fin 900) (f : Fin 4) (k : Fin 11) (off : Nat) : Nat := lmLoc t.val (0x3C_4000 + 0xC00 * (11 * f.val + k.val) + off)

/-- The save record holds the context (R181): x0 to x31, the vector and mask registers, the resume address, the special registers
and the state code. -/
def Recorded (c : Ctx) (u : State) (t : Fin 900) (f : Fin 4) (k : Fin 11) (code : Nat) : Prop :=
  let m := fun (off n : Nat) => u.mem.read (inRecord t f k off) n
  (∀ r, r < 32 → m (8 * r) 8 = (c.xn r).toNat) ∧ (∀ r : BitVec 5, m (0x100 + 64 * r.toNat) 64 = (c.getV r).toNat) ∧
    (∀ r : BitVec 3, m (0x900 + 8 * r.toNat) 8 = (c.getK r).toNat) ∧
    [m 0x980 8, m 0x988 8, m 0x990 8, m 0x998 8, m 0x9A0 8, m 0x9A8 8, m 0x9B0 8, m 0x9B8 8, m 0x9C0 8, m 0x9C8 8] =
      [c.pc.toNat, c.ecause.toNat, c.einfo.toNat, c.estat.toNat, c.uvec.toNat, c.fflags.toNat, c.frm.toNat, c.srgen.toNat,
       c.spc.toNat, c.cwin.toNat] ∧ m 0xA20 8 = code

end Sys2Proof.Safety
end

