-- ==== Sys2Proof/Certificates/Slice0/Obligations.lean ====
section
/-! DEFINITION. The statements about the model, for the provers. -/

open Sys2Proof Sys2Proof.Machine Sys2Proof.Safety

/-! ### Integer instructions (R100 to R110) -/

/-- R102: the register-register operations, but for the four that count or move bits of one operand (BitCounts). With
s.latch.rep = none the instruction stands by itself, as it always does (only vector instructions stand under REP, R93). -/
def Sys2Proof.Claims.RegisterOperations : Prop :=
  ∀ (s : State) (d a b : BitVec 5) (sh : BitVec 2), s.latch.rep = none →
    let x := s.c.getX a
    let y := s.c.getX b
    let n := y.toNat % 64
    WritesX (.add d a b) s d (x + y) ∧ WritesX (.sub d a b) s d (x - y) ∧
    WritesX (.and d a b) s d (x &&& y) ∧ WritesX (.or d a b) s d (x ||| y) ∧ WritesX (.xor d a b) s d (x ^^^ y) ∧
    WritesX (.andn d a b) s d (x &&& ~~~y) ∧ WritesX (.orn d a b) s d (x ||| ~~~y) ∧
    WritesX (.sll d a b) s d (x <<< n) ∧ WritesX (.srl d a b) s d (x >>> n) ∧
    WritesX (.sra d a b) s d (x.sshiftRight n) ∧ WritesX (.rol d a b) s d (x.rotateLeft n) ∧
    WritesX (.slt d a b) s d (if x.toInt < y.toInt then 1 else 0) ∧
    WritesX (.sltu d a b) s d (if x.toNat < y.toNat then 1 else 0) ∧
    WritesX (.min d a b) s d (if x.toInt ≤ y.toInt then x else y) ∧
    WritesX (.max d a b) s d (if x.toInt ≤ y.toInt then y else x) ∧
    WritesX (.minu d a b) s d (if x.toNat ≤ y.toNat then x else y) ∧
    WritesX (.maxu d a b) s d (if x.toNat ≤ y.toNat then y else x) ∧
    WritesX (.lea d a b sh) s d (x + y * BitVec.ofNat 64 (2 ^ sh.toNat)) ∧
    WritesX (.sextB d a) s d (BitVec.signExtend 64 (BitVec.extractLsb' 0 8 x)) ∧
    WritesX (.sextH d a) s d (BitVec.signExtend 64 (BitVec.extractLsb' 0 16 x)) ∧
    WritesX (.sextW d a) s d (BitVec.signExtend 64 (BitVec.extractLsb' 0 32 x)) ∧
    WritesX (.zextW d a) s d (BitVec.zeroExtend 64 (BitVec.extractLsb' 0 32 x))

/-- R102, the operations on the bits and bytes of one operand: clz and ctz count to the first one bit (64 for 0), popc counts
the one bits, bswap moves byte k to byte 7 - k. -/
def Sys2Proof.Claims.BitCounts : Prop :=
  ∀ (s : State) (d a : BitVec 5), s.latch.rep = none →
    let x := s.c.getX a
    (∃ n, n ≤ 64 ∧ WritesX (.clz d a) s d (toWord n) ∧ (∀ i, i < n → x.getLsbD (63 - i) = false) ∧
      (n < 64 → x.getLsbD (63 - n) = true)) ∧
    (∃ n, n ≤ 64 ∧ WritesX (.ctz d a) s d (toWord n) ∧ (∀ i, i < n → x.getLsbD i = false) ∧
      (n < 64 → x.getLsbD n = true)) ∧
    WritesX (.popc d a) s d (toWord ((List.range 64).filter fun i => x.getLsbD i).length) ∧
    (∃ v, WritesX (.bswap d a) s d v ∧ ∀ k, k < 8 → v.extractLsb' (8 * (7 - k)) 8 = x.extractLsb' (8 * k) 8)

/-- R103 and R105 without a LONG prefix: the immediate operations and the shifts by an immediate. -/
def Sys2Proof.Claims.ImmediateOperations : Prop :=
  ∀ (s : State) (d a : BitVec 5) (i : BitVec 16) (h : BitVec 6), s.latch.rep = none →
    let x := s.c.getX a
    let se : Word := i.signExtend 64
    let ze : Word := i.zeroExtend 64
    WritesX (.addi d a i) s d (x + se) ∧ WritesX (.andi d a i) s d (x &&& ze) ∧ WritesX (.ori d a i) s d (x ||| ze) ∧
    WritesX (.xori d a i) s d (x ^^^ ze) ∧ WritesX (.slti d a i) s d (if x.toInt < se.toInt then 1 else 0) ∧
    WritesX (.sltiu d a i) s d (if x.toNat < se.toNat then 1 else 0) ∧ WritesX (.lih d a i) s d ((x <<< 16) ||| ze) ∧
    WritesX (.slli d a h) s d (x <<< h.toNat) ∧ WritesX (.srli d a h) s d (x >>> h.toNat) ∧
    WritesX (.srai d a h) s d (x.sshiftRight h.toNat) ∧ WritesX (.roli d a h) s d (x.rotateLeft h.toNat)

/-- R106: the products, and the quotients and remainders with their edge results; div to remu keep a facet's context busy for
24 tile cycles (R101). -/
def Sys2Proof.Claims.MultiplyAndDivide : Prop :=
  ∀ (s : State) (d a b : BitVec 5), s.latch.rep = none →
    let x := s.c.getX a
    let y := s.c.getX b
    WritesX (.mul d a b) s d (x * y) ∧
    WritesX (.mulh d a b) s d (BitVec.ofInt 64 (x.toInt * y.toInt / 2 ^ 64)) ∧
    WritesX (.mulhu d a b) s d (BitVec.ofNat 64 (x.toNat * y.toNat / 2 ^ 64)) ∧
    WritesX (.mulhsu d a b) s d (BitVec.ofInt 64 (x.toInt * y.toNat / 2 ^ 64)) ∧
    (∃ q r, WritesBusy 24 (.div d a b) s d q ∧ WritesBusy 24 (.rem d a b) s d r ∧ x = y * q + r ∧
      (y = 0 → q = 0xFFFF_FFFF_FFFF_FFFF ∧ r = x) ∧
      (x = 0x8000_0000_0000_0000 → y = 0xFFFF_FFFF_FFFF_FFFF → q = x ∧ r = 0) ∧
      (y ≠ 0 → ¬(x = 0x8000_0000_0000_0000 ∧ y = 0xFFFF_FFFF_FFFF_FFFF) →
        q.toInt = x.toInt.tdiv y.toInt ∧ r.toInt = x.toInt.tmod y.toInt)) ∧
    (∃ q r, WritesBusy 24 (.divu d a b) s d q ∧ WritesBusy 24 (.remu d a b) s d r ∧ x = y * q + r ∧
      (y = 0 → q = 0xFFFF_FFFF_FFFF_FFFF ∧ r = x) ∧
      (y ≠ 0 → q.toNat = x.toNat / y.toNat ∧ r.toNat = x.toNat % y.toNat))

/-- R107 and R108: a branch goes to its own address + 4 * SignExt(disp12, 12) where its condition holds, else on in line (a
branch is one word, so its latched length is 4); a mask test on a field above 7 traps instead (FieldAndTargetTraps). -/
def Sys2Proof.Claims.Branches : Prop :=
  ∀ (s : State) (a b : BitVec 5) (i : BitVec 12), s.latch.rep = none → s.latch.len = 4 →
    let x := s.c.getX a
    let y := s.c.getX b
    let k := s.c.getK (a.setWidth 3)
    let m := s.c.getK (b.setWidth 3)
    let go := fun (p : Bool) => if p then s.c.pc + 4 * i.signExtend 64 else s.c.pc + 4
    GoesTo (.bEq a b i) s (go (x = y)) ∧ GoesTo (.bNe a b i) s (go (x ≠ y)) ∧
    GoesTo (.bLt a b i) s (go (x.toInt < y.toInt)) ∧ GoesTo (.bGe a b i) s (go (y.toInt ≤ x.toInt)) ∧
    GoesTo (.bLtu a b i) s (go (x.toNat < y.toNat)) ∧ GoesTo (.bGeu a b i) s (go (y.toNat ≤ x.toNat)) ∧
    (a.toNat ≤ 7 → b.toNat ≤ 7 →
      GoesTo (.bKany a b i) s (go (k &&& m ≠ 0)) ∧ GoesTo (.bKall a b i) s (go (k &&& m = m)) ∧
      GoesTo (.bKnone a b i) s (go (k &&& m = 0)))

/-- R109 and R110: the jumps. jl and jlr write the address after them (x0 discards it), jlr after it has read its target; a
target that is no multiple of 4 traps instead (FieldAndTargetTraps). -/
def Sys2Proof.Claims.Jumps : Prop :=
  ∀ (s : State) (d a : BitVec 5) (i : BitVec 26),
    let x := s.c.getX a
    GoesTo (.j i) s (s.c.pc + 4 * i.signExtend 64) ∧
    Completes (.jl i) s (fun t => OnlyIssuer s t ∧ SetsX 31 (s.c.pc + 4) s.c t.c ∧
      t.c = { s.c with x := t.c.x, pc := s.c.pc + 4 * i.signExtend 64 }) ∧
    (x.toNat % 4 = 0 → GoesTo (.jr a) s x ∧
      Completes (.jlr d a) s (fun t => OnlyIssuer s t ∧ SetsX d (s.c.pc + 4) s.c t.c ∧
        t.c = { s.c with x := t.c.x, pc := x }))

/-- R102, the encodings of major 0x01: each function code and what it decodes to; one that is not listed is ILLEGAL. -/
def Sys2Proof.Claims.RegisterEncodings : Prop :=
  ∀ (w : Insn), w.extractLsb' 26 6 = 0x01 →
    let d := w.extractLsb' 21 5
    let a := w.extractLsb' 16 5
    let b := w.extractLsb' 11 5
    let fn := bits w 10 0
    (fn = 0x0 → decode w = .add d a b) ∧ (fn = 0x1 → decode w = .sub d a b) ∧ (fn = 0x2 → decode w = .and d a b) ∧
    (fn = 0x3 → decode w = .or d a b) ∧ (fn = 0x4 → decode w = .xor d a b) ∧ (fn = 0x5 → decode w = .andn d a b) ∧
    (fn = 0x6 → decode w = .orn d a b) ∧ (fn = 0x8 → decode w = .sll d a b) ∧ (fn = 0x9 → decode w = .srl d a b) ∧
    (fn = 0xa → decode w = .sra d a b) ∧ (fn = 0xb → decode w = .rol d a b) ∧ (fn = 0x10 → decode w = .slt d a b) ∧
    (fn = 0x11 → decode w = .sltu d a b) ∧ (fn = 0x12 → decode w = .min d a b) ∧
    (fn = 0x13 → decode w = .max d a b) ∧ (fn = 0x14 → decode w = .minu d a b) ∧
    (fn = 0x15 → decode w = .maxu d a b) ∧ (fn / 4 = 6 → decode w = .lea d a b (w.extractLsb' 0 2)) ∧
    (fn = 0x20 → decode w = .clz d a) ∧ (fn = 0x21 → decode w = .ctz d a) ∧ (fn = 0x22 → decode w = .popc d a) ∧
    (fn = 0x23 → decode w = .bswap d a) ∧ (fn = 0x24 → decode w = .sextB d a) ∧ (fn = 0x25 → decode w = .sextH d a) ∧
    (fn = 0x26 → decode w = .sextW d a) ∧ (fn = 0x27 → decode w = .zextW d a) ∧
    (fn ∉ [0, 1, 2, 3, 4, 5, 6, 8, 9, 0xA, 0xB, 0x10, 0x11, 0x12, 0x13, 0x14, 0x15, 0x18, 0x19, 0x1A, 0x1B, 0x20, 0x21, 0x22, 0x23,
      0x24, 0x25, 0x26, 0x27] → decode w = .illegal)

/-- R103 and R105, the encodings of majors 0x02 to 0x09; a selector above 3 is ILLEGAL. -/
def Sys2Proof.Claims.ImmediateEncodings : Prop :=
  ∀ (w : Insn),
    let op := bits w 31 26
    let d := w.extractLsb' 21 5
    let a := w.extractLsb' 16 5
    let i := w.extractLsb' 0 16
    let sh := w.extractLsb' 0 6
    let sel := bits w 15 8
    (op = 2 → decode w = .addi d a i) ∧ (op = 3 → decode w = .andi d a i) ∧ (op = 4 → decode w = .ori d a i) ∧
    (op = 5 → decode w = .xori d a i) ∧ (op = 6 → decode w = .slti d a i) ∧ (op = 7 → decode w = .sltiu d a i) ∧
    (op = 8 → decode w = .lih d a i) ∧ (op = 9 → sel = 0 → decode w = .slli d a sh) ∧
    (op = 9 → sel = 1 → decode w = .srli d a sh) ∧ (op = 9 → sel = 2 → decode w = .srai d a sh) ∧
    (op = 9 → sel = 3 → decode w = .roli d a sh) ∧ (op = 9 → 3 < sel → decode w = .illegal)

/-- R106, the encodings of major 0x0A; a function code above 7 is ILLEGAL. -/
def Sys2Proof.Claims.MultiplyEncodings : Prop :=
  ∀ (w : Insn), w.extractLsb' 26 6 = 0x0A →
    let d := w.extractLsb' 21 5
    let a := w.extractLsb' 16 5
    let b := w.extractLsb' 11 5
    let fn := bits w 10 0
    (fn = 0 → decode w = .mul d a b) ∧ (fn = 1 → decode w = .mulh d a b) ∧ (fn = 2 → decode w = .mulhu d a b) ∧
    (fn = 3 → decode w = .mulhsu d a b) ∧ (fn = 4 → decode w = .div d a b) ∧ (fn = 5 → decode w = .divu d a b) ∧
    (fn = 6 → decode w = .rem d a b) ∧ (fn = 7 → decode w = .remu d a b) ∧ (7 < fn → decode w = .illegal)

/-- R107 to R110, the encodings of branches and jumps; a condition or function code that is not listed is ILLEGAL. -/
def Sys2Proof.Claims.BranchEncodings : Prop :=
  ∀ (w : Insn),
    let op := bits w 31 26
    let a := w.extractLsb' 21 5
    let b := w.extractLsb' 16 5
    let i := w.extractLsb' 0 12
    let j := w.extractLsb' 0 26
    let cond := bits w 15 12
    (op = 0x0B → cond = 0 → decode w = .bEq a b i) ∧ (op = 0x0B → cond = 1 → decode w = .bNe a b i) ∧
    (op = 0x0B → cond = 2 → decode w = .bLt a b i) ∧ (op = 0x0B → cond = 3 → decode w = .bGe a b i) ∧
    (op = 0x0B → cond = 4 → decode w = .bLtu a b i) ∧ (op = 0x0B → cond = 5 → decode w = .bGeu a b i) ∧
    (op = 0x0B → cond = 8 → decode w = .bKany a b i) ∧ (op = 0x0B → cond = 9 → decode w = .bKall a b i) ∧
    (op = 0x0B → cond = 10 → decode w = .bKnone a b i) ∧
    (op = 0x0B → cond ∈ [6, 7, 11, 12, 13, 14, 15] → decode w = .illegal) ∧ (op = 0x0D → decode w = .j j) ∧
    (op = 0x0E → decode w = .jl j) ∧ (op = 0x0F → bits w 10 0 = 0 → decode w = .jr b) ∧
    (op = 0x0F → bits w 10 0 = 1 → decode w = .jlr a b) ∧ (op = 0x0F → 1 < bits w 10 0 → decode w = .illegal)

/-! ### Exceptions (R90, R164, R169 to R178) -/

/-- R169 to R171 on a facet: trap imm enters with class 1 and einfo the immediate; RUNOFF, ILLEGAL and CODEWIN enter the general
vector and FUTURE the emulation vector, with their codes (R364) and with einfo 0, the word, the address, the word (R90, R91).
CODEWIN is a facet's alone (log entry 53). -/
def Sys2Proof.Claims.FacetKernelEntry : Prop :=
  ∀ (s : State) (t : Fin 900) (f : Fin 4) (k : Fin 11) (imm : BitVec 16) (addr : Word),
    s.cur = .facet t f k → s.c.kt = false → s.latch.rep = none →
    EntersFacet (.trap imm) s t f k 0 0x100 (imm.zeroExtend 64) ∧ EntersFacet .runoff s t f k 0 0x00 0 ∧
    EntersFacet .illegal s t f k 0 0x01 (s.latch.word.zeroExtend 64) ∧
    EntersFacet .future s t f k 0x40 0x02 (s.latch.word.zeroExtend 64) ∧
    EntersFacet (.codewin addr) s t f k 0 0x09 addr

/-- The same on a crest core, which has no KT rule (R171). -/
def Sys2Proof.Claims.CrestKernelEntry : Prop :=
  ∀ (s : State) (k : Fin 32) (c : Fin 2) (imm : BitVec 16), s.cur = .crest k c → s.latch.rep = none →
    EntersCrest (.trap imm) s 0 0x100 (imm.zeroExtend 64) ∧ EntersCrest .runoff s 0 0x00 0 ∧
    EntersCrest .illegal s 0 0x01 (s.latch.word.zeroExtend 64) ∧
    EntersCrest .future s 0x40 0x02 (s.latch.word.zeroExtend 64)

/-- R172: kret at kernel privilege, where it does not restore the facet (PE = 0): on a facet the bank of x24 to x31 comes back
from its slot of the save record, on a crest core it stays; PRV and UIH come back from PPRV and PUIH, KT, EMU and MSV are 0,
and control goes to epc, whose bits 1 and 0 the model drops (log entry 27); on a crest core an epc with bit 0 set goes to
bytecode mode (R316, R318). The late faults that mm.rest gave back to the facet pend to its control context then (R203). At user
privilege it traps PRIV. -/
def Sys2Proof.Claims.KretReturns : Prop :=
  ∀ (s : State),
    (∀ (t : Fin 900) (f : Fin 4) (k : Fin 11), s.cur = .facet t f k → s.c.kernel = true → s.c.pe = false →
      Completes .kret s fun u =>
        GivesLate s u t f k ∧ u.c.late = s.c.late ++ lateOf s t f k ∧ (∀ a, a ≠ s.cur → u.ctx a = s.ctx a) ∧
        (∀ r, r < 24 → u.c.xn r = s.c.xn r) ∧
        (∀ j, j < 8 → u.c.xn (24 + j) = toWord (s.mem.read (saveSlot t f k s.c.puih + 8 * j) 8)) ∧
        u.c.kernel = s.c.pprv ∧ u.c.uih = s.c.puih ∧ u.c.kt = false ∧ u.c.emu = false ∧ u.c.msv = false ∧
        u.c.pe = false ∧ u.c = { s.c with
          x := u.c.x, kbank := s.c.bank, estat := u.c.estat, pc := s.c.epc &&& ~~~3, late := u.c.late }) ∧
    (∀ (k : Fin 32) (c : Fin 2), s.cur = .crest k c → s.c.kernel = true → bit s.c.epc 0 = false →
      Completes .kret s fun u =>
        OnlyIssuer s u ∧ u.c.kernel = s.c.pprv ∧ u.c.uih = s.c.puih ∧ u.c.kt = false ∧ u.c.emu = false ∧ u.c.msv = false ∧
        u.c = { s.c with estat := u.c.estat, pc := s.c.epc &&& ~~~3, bytecode := false }) ∧
    (∀ (k : Fin 32) (c : Fin 2), s.cur = .crest k c → s.c.kernel = true → bit s.c.epc 0 = true →
      Completes .kret s fun u =>
        OnlyIssuer s u ∧ u.c.kernel = s.c.pprv ∧ u.c.uih = s.c.puih ∧ u.c.kt = false ∧ u.c.emu = false ∧ u.c.msv = false ∧
        SetsX 19 (s.c.epc &&& ~~~1) s.c u.c ∧ u.c = { s.c with x := u.c.x, estat := u.c.estat, bytecode := true }) ∧
    (∀ (t : Fin 900) (f : Fin 4) (k : Fin 11), s.cur = .facet t f k → s.c.kernel = false → s.c.kt = false →
      s.latch.rep = none → EntersFacet .kret s t f k 0 0x04 (s.latch.word.zeroExtend 64))

/-- R184, R181 and R260: kret with PE = 1 restores the eleven contexts of its facet from their records, ready at their resume
addresses, without bits 1 and 0 (log entry 27), unless recorded not live or halted, and empties the tile's translation cache; frm
and srgen come back as the record holds them (DESIGN CHOICE, log entry 67), the reserved bits of the other registers as 0 (R3). The
late faults that mm.rest gave back to the facet pend to its control context (R203). Where a record names a feature that a facet lacks and the tile record does not allow degrading, nothing is
restored: kret falls through with FEATMIS and the first such ctxid in x24. -/
def Sys2Proof.Claims.KretRestores : Prop :=
  ∀ (s : State) (t : Fin 900) (f : Fin 4) (k : Fin 11),
    s.cur = .facet t f k → s.c.kernel = true → s.c.pe = true → s.latch.rep = none →
    let word := fun (j : Fin 11) (off : Nat) => toWord (s.mem.read (lmLoc t.val (recordOffset f.val j.val + off)) 8)
    let lacks := fun (j : Fin 11) => word j 0x9E8 &&& ~~~0x7FF ≠ 0
    let allow := s.mem.read (lmLoc t.val 0x3F_F010) 8 % 2 = 1
    (∀ j, lacks j → (∀ i, i < j → ¬lacks i) → ¬allow →
      Completes .kret s fun u =>
        OnlyIssuer s u ∧ SetsX 24 (toWord (16 * f.val + j.val)) s.c u.c ∧
        u.c = { s.c with x := u.c.x, ecause := (s.c.ecause &&& ~~~0xFF) ||| 0x13, pc := follows s }) ∧
    (allow ∨ (∀ j, ¬lacks j) →
      Completes .kret s fun u =>
        GivesLate s { u with tiles := s.tiles } t f 0 ∧ OtherTiles s u t.val ∧
        u.tile t.val = { s.tile t.val with tlb := [] } ∧ (∀ a, (∀ j, a ≠ .facet t f j) → u.ctx a = s.ctx a) ∧
        ∀ j : Fin 11, let c := u.ctx (.facet t f j)
          let w := word j
          let uih := bit (w 0x998) 3
          (∀ r, 0 < r → r < 24 → c.xn r = w (8 * r)) ∧
          (∀ i : Fin 8, c.xn (24 + i.val) = w ((if uih then 0x940 else 0xC0) + 8 * i.val) ∧
            c.shadow[i] = w ((if uih then 0xC0 else 0x940) + 8 * i.val) ∧ c.k[i] = w (0x900 + 8 * i.val)) ∧
          (∀ r : Fin 32, c.v[r] =
            BitVec.ofNat 512 (s.mem.read (lmLoc t.val (recordOffset f.val j.val + 0x100 + 64 * r.val)) 64)) ∧
          c = { s.ctx (.facet t f j) with
            x := c.x, shadow := c.shadow, v := c.v, k := c.k, kbank := c.kbank, tokens := c.tokens, undo := none
            late := (s.ctx (.facet t f j)).late ++ lateOf s t f j
            pc := w 0x980 &&& ~~~3, epc := w 0x980, ecause := w 0x988 &&& 0xFFFF_0FFF, einfo := w 0x990
            estat := w 0x998 &&& 0x1FD, uvec := w 0x9A0 &&& ~~~2, fflags := (w 0x9A8).setWidth 6
            frm := (w 0x9B0).setWidth 3, srgen := w 0x9B8, spc := (w 0x9C0).setWidth 8
            cwin := w 0x9C8 &&& 0x003F_FFFF_003F_FFFF, repidx := (w 0x9D0).setWidth 6
            cringSel := (w 0x9D8).setWidth 7, tvec := w 0x9E0 &&& ~~~0xFF, heldRep := BitVec.ofNat 6 (bits (w 0xA20) 21 16)
            run := if bits (w 0xA20) 3 0 = 0 then .notLive else if bits (w 0xA20) 3 0 = 6 then .halted else .ready })

/-- R178 and R398: an entry attempted while KT = 1 halts the facet's context with its state in place, and an empty DOUBLE
record takes the second fault's ecause, einfo and epc and the ctxid. (Queue 0 is closed here, so that the fault record of
R361 waits with the management complex and writes no memory.) -/
def Sys2Proof.Claims.EntryInHandlerIsDouble : Prop :=
  ∀ (s : State) (t : Fin 900) (f : Fin 4) (k : Fin 11) (imm : BitVec 16),
    s.cur = .facet t f k → s.c.kt = true → (s.queue 0).open_ = false → s.mem.byte (lmLoc t.val 0x3F_F020) = 0 →
    let at_ := lmLoc t.val 0x3F_F020
    Completes (.trap imm) s fun u =>
      u.c = { s.c with run := .halted } ∧ (∀ a, a ≠ s.cur → u.ctx a = s.ctx a) ∧
      u.mem.read at_ 2 = 0x14 ∧ u.mem.read (at_ + 2) 2 = 16 * f.val + k.val ∧ u.mem.read (at_ + 8) 8 = 0x100 ∧
      u.mem.read (at_ + 16) 8 = imm.toNat ∧ u.mem.read (at_ + 24) 8 = s.c.resume.toNat ∧
      (∀ l, l < at_ ∨ at_ + 32 ≤ l → u.mem.byte l = s.mem.byte l) ∧ u.tiles = s.tiles ∧ u.nis = s.nis

/-- R86, R108 and R110: a mask test on a field above 7 traps ILLEGAL, and a jump to a target that is no multiple of 4 traps
ALIGN with the target, its link not written. -/
def Sys2Proof.Claims.FieldAndTargetTraps : Prop :=
  ∀ (s : State) (d a b : BitVec 5) (i : BitVec 12), s.latch.rep = none →
    let word := s.latch.word.zeroExtend 64
    let target := s.c.getX a
    (7 < a.toNat ∨ 7 < b.toNat →
      Traps (.bKany a b i) s 0x01 word ∧ Traps (.bKall a b i) s 0x01 word ∧ Traps (.bKnone a b i) s 0x01 word) ∧
    (target.toNat % 4 ≠ 0 → Traps (.jr a) s 0x05 target ∧ Traps (.jlr d a) s 0x05 target)

/-! ### Prefixes (R92 to R94) -/

/-- R92 and R94: LONG extends the immediate of the six instructions that accept it, majors 0x02 to 0x07, to 42 bits,
sign-extended, and the group is two words long; before any other instruction that the core has, lih, a shift, LONG and REP among
them, the group traps ILLEGAL with LONG's own word; before a word that meets steps 2 to 5 of R91 it takes that earlier trap.
What step 5 finds is lacksFeature; the words behind a second prefix are not fetched (log entry 44), and the latch is the model's
own (log entry 1). -/
def Sys2Proof.Claims.LongPrefix : Prop :=
  ∀ (s : State) (h : BitVec 26) (w : Insn) (d a : BitVec 5) (i : BitVec 16),
    s.latch.rep = none → s.fetch (s.c.pc + 4) = (s, .word w) →
    let x := s.c.getX a
    let v : Word := (h ++ i).signExtend 64
    let writes := fun (r : Word) => Completes (.long h) s fun t =>
      OnlyIssuer { s with latch := t.latch } t ∧ SetsX d r s.c t.c ∧ t.c = { s.c with x := t.c.x, pc := s.c.pc + 8 }
    (decode w = .addi d a i → writes (x + v)) ∧ (decode w = .andi d a i → writes (x &&& v)) ∧
    (decode w = .ori d a i → writes (x ||| v)) ∧ (decode w = .xori d a i → writes (x ^^^ v)) ∧
    (decode w = .slti d a i → writes (if x.toInt < v.toInt then 1 else 0)) ∧
    (decode w = .sltiu d a i → writes (if x.toNat < v.toNat then 1 else 0)) ∧
    let op := bits w 31 26
    (lacksFeature s.cur w = false → ¬(2 ≤ op ∧ op ≤ 7) → decode w ≠ .illegal → decode w ≠ .runoff → decode w ≠ .future →
      Traps (.long h) s 0x01 (s.latch.first.zeroExtend 64)) ∧
    (lacksFeature s.cur w = true → Traps (.long h) s 0x03 (w.zeroExtend 64)) ∧
    (decode w = .illegal → (isCrest s.cur = true ∨ op ≠ 0x2C) → Traps (.long h) s 0x01 (w.zeroExtend 64)) ∧
    (decode w = .runoff → Traps (.long h) s 0x00 0) ∧ (decode w = .future → Traps (.long h) s 0x02 (w.zeroExtend 64))

/-- R93 and R153: the fields of a word that REP steps, and the last register of each: 31, or 7 where the field names a mask
register; a field that names none is not stepped (0). They are those of every vector instruction, by its shape. -/
def Sys2Proof.Claims.RepFields : Prop :=
  ∀ (d a b : BitVec 5) (k : BitVec 3) (z q : BitVec 1) (w r : BitVec 2) (x y : BitVec 4) (c : BitVec 3),
    (∀ i ∈ [Instr.vadd, .vsub, .vmul, .vmulh, .vand, .vor, .vxor, .vsll, .vsrl, .vsra, .vmin, .vmax, .vminu, .vmaxu, .vfmin,
        .vfmax, .vlds, .vldx, .vperm, .vslide], stepLimits (i d a b k z w) = some (31, 31, 31)) ∧
    (∀ i ∈ [Instr.vfadd, .vfsub, .vfmul, .vfma, .vfdiv], stepLimits (i d a b k z w r) = some (31, 31, 31)) ∧
    (∀ i ∈ [Instr.vcmpEq, .vcmpNe, .vcmpLt, .vcmpLtu, .vcmpLe, .vcmpLeu, .vfcmpEq, .vfcmpLt, .vfcmpLe, .vfcmpUn],
      stepLimits (i d a b k z w) = some (7, 31, 31)) ∧
    (∀ i ∈ [Instr.vabs, .vfneg, .vfabs, .vld, .vldb, .vbcast, .vscanAdd, .vscanFadd],
      stepLimits (i d a k z w) = some (31, 31, 0)) ∧
    stepLimits (.vfsqrt d a k z w r) = some (31, 31, 0) ∧
    (∀ i ∈ [Instr.vmerge, .vsts, .vstx], stepLimits (i d a b k w) = some (31, 31, 31)) ∧
    (∀ i ∈ [Instr.vst, .vredAdd, .vredMin, .vredMax, .vredFadd, .vredFmin, .vredFmax],
      stepLimits (i d a k w) = some (31, 31, 0)) ∧
    (∀ i ∈ [Instr.vext, .vins], stepLimits (i d a b w) = some (31, 31, 31)) ∧
    stepLimits (.vidx d k z w) = some (31, 0, 0) ∧
    (∀ i ∈ [Instr.kand, .kor, .kxor], stepLimits (i d a b) = some (7, 7, 7)) ∧
    (∀ i ∈ [Instr.knot, .kmov], stepLimits (i d a) = some (7, 7, 0)) ∧
    (∀ i ∈ [Instr.kpopc, .kfirst], stepLimits (i d a) = some (31, 7, 0)) ∧ stepLimits (.kset d a) = some (7, 31, 0) ∧
    stepLimits (.vcvt d a x q k z y c) = some (31, 31, 0) ∧ stepLimits (.vpack d a b k z q w) = some (31, 31, 31) ∧
    stepLimits (.vunpack d a q k z z w) = some (31, 31, 0)

/-- R93, R94 and R153: REP before a vector instruction, whatever it is. With repidx at the count or beyond the group retires and
repidx is 0; otherwise the repetition that repidx counts is the instruction of the word whose stepped fields are that many
strides on, here of the latched length 8 and repetition. A stepped field that would leave its registers traps ILLEGAL with REP's
own word before anything happens; so does REP before an instruction that is no vector instruction, REP among them, and before
LONG and an instruction; a word that meets steps 2 to 5 of R91 gives that earlier trap. The words behind a third prefix are not
fetched (log entry 44). -/
def Sys2Proof.Claims.RepPrefix : Prop :=
  ∀ (s : State) (n : BitVec 6) (p q r : BitVec 3) (w v : Insn),
    s.fetch (s.c.pc + 4) = (s, .word w) →
    let rep := Instr.rep n p q r
    let own := s.latch.first.zeroExtend 64
    let i := s.c.repidx.toNat
    let runs := fun (w : Insn) =>
      lacksFeature s.cur w = false ∧ decode w ≠ .illegal ∧ decode w ≠ .runoff ∧ decode w ≠ .future
    (∀ ld la lb, runs w → stepLimits (decode w) = some (ld, la, lb) →
      let fits := fun (lo lim : Nat) (st : BitVec 3) => lim = 0 ∨ n = 0 ∨ bits w (lo + 4) lo + (n.toNat - 1) * st.toNat ≤ lim
      let all := fits 21 ld p ∧ fits 16 la q ∧ fits 11 lb r
      let by_ := fun (lim : Nat) (st : BitVec 3) => if lim = 0 then 0 else i * st.toNat
      (all → n.toNat ≤ i → (decode w).wf = true →
        Completes rep s fun u => OnlyIssuer s u ∧ u.c = { s.c with pc := s.c.pc + 8, repidx := 0 }) ∧
      (all → n.toNat ≤ i → (decode w).wf = false → TrapsKeeping rep s 0x01 (w.zeroExtend 64)) ∧
      (all → i < n.toNat → bits v 31 26 = bits w 31 26 → bits v 10 0 = bits w 10 0 →
        bits v 25 21 = bits w 25 21 + by_ ld p → bits v 20 16 = bits w 20 16 + by_ la q →
        bits v 15 11 = bits w 15 11 + by_ lb r →
        exec rep s = exec (decode v) { s with latch := { s.latch with word := w, len := 8, rep := some (i, n.toNat) } }) ∧
      (¬all → TrapsKeeping rep s 0x01 own)) ∧
    (runs w → bits w 31 26 ≠ 0x3F → ¬(0x1A ≤ bits w 31 26 ∧ bits w 31 26 ≤ 0x1F) → TrapsKeeping rep s 0x01 own) ∧
    (bits w 31 26 = 0x3F → s.fetch (s.c.pc + 8) = (s, .word v) →
      (runs v → TrapsKeeping rep s 0x01 own) ∧ (decode v = .runoff → TrapsKeeping rep s 0x00 0) ∧
      (decode v = .future → TrapsKeeping rep s 0x02 (v.zeroExtend 64)) ∧
      (lacksFeature s.cur v = true → TrapsKeeping rep s 0x03 (v.zeroExtend 64))) ∧
    (decode w = .runoff → TrapsKeeping rep s 0x00 0) ∧ (decode w = .future → TrapsKeeping rep s 0x02 (w.zeroExtend 64)) ∧
    (lacksFeature s.cur w = true → TrapsKeeping rep s 0x03 (w.zeroExtend 64)) ∧
    (decode w = .illegal → lacksFeature s.cur w = false → TrapsKeeping rep s 0x01 (w.zeroExtend 64))

/-- R93: what a vector instruction does to pc and repidx as repetition i of n: before the last, the pc stays at the group and
repidx counts on; the last retires the group. -/
def Sys2Proof.Claims.RepetitionRetires : Prop :=
  ∀ (s : State) (d a b : BitVec 5) (i n : Nat), s.latch.rep = some (i, n) → i < n → n < 64 →
    d.toNat ≤ 7 → a.toNat ≤ 7 → b.toNat ≤ 7 →
    let k := s.c.getK (a.setWidth 3) &&& s.c.getK (b.setWidth 3)
    Completes (.kand d a b) s fun t =>
      OnlyIssuer s t ∧ (∀ r, t.c.getK r = if r = d.setWidth 3 ∧ r ≠ 0 then k else s.c.getK r) ∧
      t.c = { s.c with
        k := t.c.k, pc := if i + 1 < n then s.c.pc else follows s
        repidx := if i + 1 < n then BitVec.ofNat 6 (i + 1) else 0 }

/-- R93, of every vector instruction on a facet: as repetition i of n it does what it does by itself, but for the pc and repidx,
where by itself it goes on in line and leaves nothing in the network. -/
def Sys2Proof.Claims.RepetitionsAreAlike : Prop :=
  ∀ (s u : State) (j : Instr) (i n : Nat), stepLimits j ≠ none → isCrest s.cur = false → s.latch.rep = some (i, n) →
    i < n → n < 64 → s.latch.len = 8 → exec j { s with latch := { s.latch with rep := none } } = .next u →
    u.c.pc = s.c.pc + 8 → u.c.estat = s.c.estat → u.net = s.net →
    Completes j s fun t =>
      t = { u with latch := s.latch, ctxs := t.ctxs } ∧ OtherCtxs u t s.cur ∧
      t.c = { u.c with
        pc := if i + 1 < n then s.c.pc else s.c.pc + 8
        repidx := if i + 1 < n then BitVec.ofNat 6 (i + 1) else 0 }

/-! ### User-level interrupts (R176, R177) -/

/-- R176, R186 and R293: the oldest pending user-level interrupt of a ready context that may take one at its boundary, where no
late fault and no pre-emption request comes first; bits 1 and 0 of uvec are dropped (log entry 27). The other bank of x24
to x31 comes live with the kind, the two doublewords and the resume address; UIH is set and repidx is held apart; a completion
leaves the mailbox entry that it waited in. -/
def Sys2Proof.Claims.UserInterruptEntry : Prop :=
  ∀ (s : State) (a : Agent) (u : UserInt) (rest : List UserInt),
    let c := s.ctx a
    c.pending = u :: rest → bit c.uvec 0 = true → c.uih = false → c.kernel = false → c.frozen = false → c.run = .ready →
    c.late = [] → s.preempting a = false →
    Completes (.userInterruptDelivery a) s fun t =>
      let c' := t.ctx a
      OtherCtxs s t a ∧ t = { s with ctxs := t.ctxs, nis := t.nis } ∧ OtherNis s t (ownerOf a) ∧
      t.ni (ownerOf a) = { s.ni (ownerOf a) with mail := (t.ni (ownerOf a)).mail } ∧
      (u.kind ≠ 1 → (t.ni (ownerOf a)).mail = (s.ni (ownerOf a)).mail) ∧
      (∀ r, r < 24 → c'.xn r = c.xn r) ∧ c'.xn 24 = toWord u.kind ∧ c'.xn 25 = u.lo ∧ c'.xn 26 = u.hi ∧
      (∀ j : Fin 4, c'.xn (27 + j.val) = c.shadow[3 + j.val]) ∧ c'.xn 31 = c.resume ∧
      (∀ j : Fin 8, c'.shadow[j] = c.xn (24 + j.val)) ∧
      c'.uih = true ∧ c'.puih = c.puih ∧ c'.kernel = false ∧ c'.pprv = c.pprv ∧ c'.kt = c.kt ∧ c'.emu = c.emu ∧
      c'.msv = c.msv ∧ c'.pe = c.pe ∧
      c' = { c with
        x := c'.x, shadow := c'.shadow, estat := c'.estat, heldRep := c.repidx, repidx := 0, pc := c.uvec &&& ~~~3
        pending := rest, bytecode := false }

/-- R173, R176 and R397: a user-level interrupt withdraws a park: its context waits for nothing any more, and the resume address is
the parked instruction's; wfi completes by it, and the resume address is the one behind. A park on translation, at the clasp or on the
matrix it does not withdraw (nor that of cpy.quiesce, which is the kernel's), and a late fault or a pre-emption request comes first
(R186, R293; log entry 27 of uvec). wfi completes though a late fault is pending, which the boundary after it takes. That gang.exit's
park on its beads is withdrawn as bead.wait's is the model's choice (log entry 61). -/
def Sys2Proof.Claims.UserInterruptAtAPark : Prop :=
  ∀ (s : State) (a : Agent) (u : UserInt) (rest : List UserInt),
    let c := s.ctx a
    let i := Instr.userInterruptDelivery a
    c.pending = u :: rest → bit c.uvec 0 = true → c.uih = false → c.kernel = false → c.frozen = false →
    ((c.late ≠ [] ∧ c.run ≠ .parked .wfi) ∨ s.preempting a = true → exec i s = .next s) ∧
    (c.late ≠ [] → s.preempting a = false → c.run = .parked .wfi → Completes i s fun t =>
      t = { s with ctxs := t.ctxs } ∧ OtherCtxs s t a ∧ t.ctx a = { c with pc := c.pc + 4, run := .ready }) ∧
    (let enters := fun (at_ : Word) => Completes i s fun t =>
       t = { s with ctxs := t.ctxs, nis := t.nis, tiles := t.tiles, queues := t.queues, pools := t.pools } ∧ OtherCtxs s t a ∧
       OtherNis s t (ownerOf a) ∧ WaitsNowhere s t a ∧ (t.ctx a).run = .ready ∧ (t.ctx a).uih = true ∧ (t.ctx a).pending = rest ∧
       (t.ctx a).pc = c.uvec &&& ~~~3 ∧ (t.ctx a).xn 24 = toWord u.kind ∧ (t.ctx a).xn 31 = at_
     c.late = [] → s.preempting a = false →
       (c.run = .parked .wfi → enters { c with pc := c.pc + 4 }.resume) ∧
       ∀ w, c.run = .parked w → Withdrawn w → enters c.resume) ∧
    (∀ w, c.run = .parked w → w ≠ .wfi → ¬Withdrawn w → exec i s = .next s)

/-- R177: uiret in a user-level interrupt handler exchanges the banks, clears UIH, gives the held repidx back, and goes
to the handler's x31; on a crest core an address with bit 0 set goes to bytecode mode (R318), and of any other bits 1 and 0 are
dropped (log entry 27). Outside a handler it traps PROT. -/
def Sys2Proof.Claims.UserInterruptReturn : Prop :=
  ∀ (s : State),
    let c := s.c
    (c.uih = true →
      Completes .uiret s fun t =>
        let c' := t.c
        let crest := isCrest s.cur && bit (c.xn 31) 0
        OnlyIssuer s t ∧ (∀ r, r < 24 → (crest = true → r ≠ 19) → c'.xn r = c.xn r) ∧
        (∀ j : Fin 8, c'.xn (24 + j.val) = c.shadow[j]) ∧ (∀ j : Fin 8, c'.shadow[j] = c.xn (24 + j.val)) ∧
        (crest = true → c'.xn 19 = c.xn 31 &&& ~~~1 ∧ c'.bytecode = true ∧ c'.pc = c.pc) ∧
        (crest = false → c'.pc = c.xn 31 &&& ~~~3 ∧ c'.bytecode = (c.bytecode && !isCrest s.cur)) ∧
        c'.uih = false ∧ c'.puih = c.puih ∧ c'.kernel = c.kernel ∧ c'.pprv = c.pprv ∧ c'.kt = c.kt ∧ c'.emu = c.emu ∧
        c'.msv = c.msv ∧ c'.pe = c.pe ∧
        c' = { c with
          x := c'.x, shadow := c'.shadow, estat := c'.estat, repidx := c.heldRep, heldRep := 0, pc := c'.pc
          bytecode := c'.bytecode }) ∧
    (c.uih = false → s.latch.rep = none → Traps .uiret s 0x07 (s.latch.word.zeroExtend 64))

/-! ### Stopping, waiting and the heartbeat (R101, R156 to R164, R173, R185) -/

/-- R173: halt in a context that is no bead waits until every earlier access of it is performed; then it halts with its
registers in place, and a type-6 record with its tile, ctxid and pc goes to the resident kernel (here to the records that the
management complex holds, R361). wfi completes at once at kernel privilege and otherwise parks until a user-level interrupt
is deliverable. A hint changes nothing but the pc (R90). That a crest context halts in the same way is log entry 25. -/
def Sys2Proof.Claims.HaltWaitAndHint : Prop :=
  ∀ (s : State) (h : BitVec 28), s.latch.rep = none →
    (isBead s.cur = false → Releases s → HoldsRecord s →
      Completes .halt s fun t => ∃ r : Vec,
        t = { s with ctxs := t.ctxs, mgmt := moreRecords s r } ∧ OtherCtxs s t s.cur ∧
        t.c = { s.c with run := .halted } ∧ bits r 7 0 = 6 ∧ bits r 15 8 = 0 ∧ bits r 47 32 = (tileNo s.cur).getD 0xFFFF ∧
        bits r 63 48 = ctxid s.cur ∧ bits r 191 128 = s.c.pc.toNat) ∧
    (isBead s.cur = false → ¬NothingOpen s s.cur → Parks .halt s .order) ∧
    (s.c.kernel = true ∨ (s.c.pending ≠ [] ∧ bit s.c.uvec 0 = true ∧ s.c.uih = false) → GoesTo .wfi s (follows s)) ∧
    (s.c.kernel = false → s.c.pending = [] ∨ bit s.c.uvec 0 = false ∨ s.c.uih = true → Parks .wfi s .wfi) ∧
    GoesTo (.nop h) s (follows s)

/-- R101: a busy context becomes ready once its cycles are over and not before; R175: one that waits for a coprocessor-ring
entry becomes ready once that entry is closed. -/
def Sys2Proof.Claims.BusyEnds : Prop :=
  ∀ (s : State) (a : Agent),
    let free := fun (c : Ctx) => Completes (.busyEnd a) s fun t => t = { s with ctxs := t.ctxs } ∧ OtherCtxs s t a ∧ t.ctx a = c
    let n := s.ni (ownerOf a)
    let open_ := (n.ring.toList.getD (n.seq.toNat % 16) RingEntry.initial).open_
    (∀ u, (s.ctx a).run = .busy u → u ≤ s.now → free { s.ctx a with run := .ready, undo := none }) ∧
    (∀ u, (s.ctx a).run = .busy u → s.now < u → exec (.busyEnd a) s = .next s) ∧
    ((s.ctx a).run = .ringBusy → open_ = false → free { s.ctx a with run := .ready }) ∧
    ((s.ctx a).run = .ringBusy → open_ = true → exec (.busyEnd a) s = .next s)

/-- R162 and R163: hbeat reloads the facet's timer with its interval; a timer at 0 under an interval that is not 0 fences the
facet, once, and so does one that stood at 0 when srw gave it the interval (DESIGN CHOICE, log entry 77); a crest core has no such instruction (R157). -/
def Sys2Proof.Claims.Heartbeat : Prop :=
  ∀ (s : State) (t : Fin 900) (f : Fin 4) (k : Fin 11),
    (s.cur = .facet t f k → s.latch.rep = none →
      Completes .hbeat s fun u =>
        u = { s with ctxs := u.ctxs, facets := u.facets } ∧ OtherCtxs s u s.cur ∧ OtherFacets s u t f ∧
        u.c = { s.c with pc := follows s } ∧ u.facet t f = { s.facet t f with hbLeft := (s.facet t f).hbInterval }) ∧
    (isCrest s.cur = true → s.latch.rep = none → Traps .hbeat s 0x03 (s.latch.word.zeroExtend 64)) ∧
    ((s.facet t f).hbLeft = 0 → (s.facet t f).hbInterval ≠ 0 → (s.facet t f).fenced = false →
      Completes (.heartbeatMiss t f) s fun u =>
        u = { s with facets := u.facets } ∧ OtherFacets s u t f ∧
        u.facet t f = { s.facet t f with fenced := true, missed := true }) ∧
    ((s.facet t f).hbLeft ≠ 0 ∨ (s.facet t f).hbInterval = 0 ∨ (s.facet t f).fenced = true →
      exec (.heartbeatMiss t f) s = .next s)

/-- R164: a fenced facet is reported once. A type-4 record goes to the resident kernel, and the mailbox of facet 0 of each
logical neighbour of the same gang takes an HBMISS notice in its kept entry, if that is free. -/
def Sys2Proof.Claims.HeartbeatMissReport : Prop :=
  ∀ (s : State) (t : Fin 900) (f : Fin 4) (u : Fin 900),
    (s.facet t f).missed = true → HoldsRecord s →
    (u.val = t.val + 1 ∧ t.val % 30 ≠ 29 ∨ u.val + 1 = t.val ∧ t.val % 30 ≠ 0 ∨ u.val = t.val + 30 ∨ u.val + 30 = t.val) →
    (s.tile u.val).gang = (s.tile t.val).gang → (s.tile t.val).gang ≠ none →
    ((s.ni (.facet u 0)).mail.all fun e => !e.reserve) = true →
    Completes (.hbmiss t f) s fun v => ∃ r : Vec,
      v = { s with facets := v.facets, nis := v.nis, mgmt := moreRecords s r } ∧ OtherFacets s v t f ∧
      v.facet t f = { s.facet t f with missed := false } ∧ bits r 7 0 = 4 ∧ bits r 15 8 = 0x0B ∧
      bits r 47 32 = t.val ∧ bits r 63 48 = 16 * f.val ∧
      v.ni (.facet u 0) = { s.ni (.facet u 0) with
        mail := (s.ni (.facet u 0)).mail ++
          [{ ctx := 0, lo := toWord (0xF0 * 2 ^ 16 + (t.val * 2 ^ 16 + 16 * f.val) * 2 ^ 32)
             hi := toWord (4 * t.val + f.val), held := false, reserve := true }] }

/-- R185: FREEZE stops every live facet context that is neither saved nor halted with its state in place, and THAW gives each
back the state that it would have had; crest contexts and everything else stay as they are. After a second kernel crash before
THAW the device stays frozen; THAW ends the crash (R366). -/
def Sys2Proof.Claims.FreezeAndThaw : Prop :=
  ∀ (s : State),
    (Completes .freeze s fun t => t = { s with freeze := true, ctxs := t.ctxs } ∧
      (∀ k c, t.ctx (.crest k c) = s.ctx (.crest k c)) ∧
      ∀ x f k, let c := s.ctx (.facet x f k)
        t.ctx (.facet x f k) =
          if c.run ≠ .notLive ∧ c.run ≠ .saved ∧ c.run ≠ .halted then { c with frozen := true } else c) ∧
    (s.mgmt.frozenTwice = false → Completes .thaw s fun t =>
      t = { s with freeze := false, ctxs := t.ctxs, mgmt := { s.mgmt with crashed := false } } ∧
      ∀ a, t.ctx a = { s.ctx a with frozen := false }) ∧
    (s.mgmt.frozenTwice = true → exec .thaw s = .next s)

/-! ### Memory instructions (R36 to R53, R119 to R127) -/

/-- R119 and R123: a load of each of the seven sizes from a facet's own local memory, sign-extended or zero-extended into
x[d]; ld adds the 13-bit displacement, ldx takes its space byte from x[b], ld.acq has no displacement. -/
def Sys2Proof.Claims.LocalLoads : Prop :=
  ∀ (s : State) (t : Fin 900) (f : Fin 4) (k : Fin 11) (d a b : BitVec 5) (i : BitVec 13) (z : BitVec 3) (n : Nat) (sg : Bool),
    s.cur = .facet t f k → s.latch.rep = none →
    (z, n, sg) ∈ ([(0, 1, true), (1, 1, false), (2, 2, true), (3, 2, false), (4, 4, true), (5, 4, false), (6, 8, false)] :
      List (BitVec 3 × Nat × Bool)) →
    let value := fun (va : Word) => loaded n sg (s.mem.read (lmLoc t.val va.toNat) n)
    let va := s.c.getX a + i.signExtend 64
    (LocalRead s t s.c.spc va n → WritesX (.ld d a z i) s d (value va)) ∧
    (LocalRead s t ((s.c.getX b).setWidth 8) (s.c.getX a) n → WritesX (.ldx d a b z) s d (value (s.c.getX a))) ∧
    (LocalRead s t s.c.spc (s.c.getX a) n → WritesX (.ldAcq d a z) s d (value (s.c.getX a)))

/-- R119, R51 and R123: a store writes the low n bytes of x[d] to a facet's own local memory; st.rel does so once every
earlier access of the context is performed, and until then parks. -/
def Sys2Proof.Claims.LocalStores : Prop :=
  ∀ (s : State) (t : Fin 900) (f : Fin 4) (k : Fin 11) (d a b : BitVec 5) (i : BitVec 13) (z : BitVec 3) (n : Nat),
    s.cur = .facet t f k → s.latch.rep = none →
    (z, n) ∈ ([(0, 1), (2, 2), (4, 4), (6, 8)] : List (BitVec 3 × Nat)) →
    let va := s.c.getX a + i.signExtend 64
    (LocalWrite s t s.c.spc va n → Stores (.st d a z i) s t va n (s.c.getX d).toNat) ∧
    (LocalWrite s t ((s.c.getX b).setWidth 8) (s.c.getX a) n → Stores (.stx d a b z) s t (s.c.getX a) n (s.c.getX d).toNat) ∧
    (LocalWrite s t s.c.spc (s.c.getX a) n →
      (Releases s → Stores (.stRel d a z) s t (s.c.getX a) n (s.c.getX d).toNat) ∧
      (¬NothingOpen s s.cur → Parks (.stRel d a z) s .order))

/-- R125 and R126: the ten atomics on a facet's own local memory in their two widths: the old value comes back sign-extended
and the new one is stored, in n-byte arithmetic; amo.cas compares with the low bytes of x[d]. The ordering bits ask for a
release where they are 2 or 3. -/
def Sys2Proof.Claims.LocalAtomics : Prop :=
  ∀ (s : State) (t : Fin 900) (f : Fin 4) (k : Fin 11) (d a b : BitVec 5) (o : BitVec 2) (w : BitVec 1),
    s.cur = .facet t f k → s.latch.rep = none → (o.toNat < 2 ∨ Releases s) →
    let n := if w = 1 then 8 else 4
    let va := s.c.getX a
    let y := (s.c.getX b).toNat % 256 ^ n
    let e := (s.c.getX d).toNat % 256 ^ n
    let signed := fun (v : Nat) => (if 2 * v < 256 ^ n then (v : Int) else (v : Int) - 256 ^ n)
    LocalWrite s t s.c.spc va n →
    Exchanges (.amoAdd d a b o w) s t va n d (fun m => (m + y) % 256 ^ n) ∧
    Exchanges (.amoSwap d a b o w) s t va n d (fun _ => y) ∧
    Exchanges (.amoCas d a b o w) s t va n d (fun m => if m = e then y else m) ∧
    Exchanges (.amoMin d a b o w) s t va n d (fun m => if signed m ≤ signed y then m else y) ∧
    Exchanges (.amoMax d a b o w) s t va n d (fun m => if signed y ≤ signed m then m else y) ∧
    Exchanges (.amoMinu d a b o w) s t va n d (fun m => min m y) ∧
    Exchanges (.amoMaxu d a b o w) s t va n d (fun m => max m y) ∧
    Exchanges (.amoAnd d a b o w) s t va n d (fun m => m &&& y) ∧
    Exchanges (.amoOr d a b o w) s t va n d (fun m => m ||| y) ∧
    Exchanges (.amoXor d a b o w) s t va n d (fun m => m ^^^ y)

/-- R36, R119, R121, R123 and R126: a scalar load, store or atomic whose address fails one of the checks of AddressFault traps
its code, in the order of those checks, with the address in einfo; nothing is read or written. -/
def Sys2Proof.Claims.AddressFaults : Prop :=
  ∀ (s : State) (i : Instr) (va : Word) (n code : Nat), s.latch.rep = none → Accesses s i va n →
    AddressFault s va n = some code → Traps i s code va

/-- R143 and R146: a vector load or store traps the code and the address of the lowest active lane that fails; the lower active
lanes are here in user local memory of the facet. The indexed forms reach no address past local memory. -/
def Sys2Proof.Claims.VectorAddressFaults : Prop :=
  ∀ (s : State) (i : Instr) (va : Nat → Word) (n : Nat) (k : BitVec 3) (j : Nat), s.latch.rep = none →
    VectorAccesses s i va n k → j < 64 / n → on s k j = true →
    (∀ h, h < j → on s k h = true → isCrest s.cur = false ∧ (s.c.spc = 0 ∨ s.c.spc = s.mgmt.domain) ∧
      (va h).toNat % n = 0 ∧ (va h).toNat + n ≤ 0x3C_0000) →
    let indexed := ∃ d a b z w, i = .vldx d a b k z w ∨ i = .vstx d a b k w
    (∀ code, AddressFault s (va j) n = some code → (indexed → isCrest s.cur = false) → Traps i s code (va j)) ∧
    (indexed → isCrest s.cur = false → (va j).toNat % n = 0 → 0x40_0000 ≤ (va j).toNat → Traps i s 0x19 (va j))

/-- R124: raddr gives the aperture address of offset x[a] in the tile whose rank is x[b], from SR[rank], gangw and gangh; for a
gang with no width, a rank outside the gang or an offset in the kernel reserve it gives an address that no tile has. -/
def Sys2Proof.Claims.RemoteAddresses : Prop :=
  ∀ (s : State) (t : Fin 900) (f : Fin 4) (k : Fin 11) (d a b : BitVec 5),
    s.cur = .facet t f k → s.latch.rep = none →
    let c := s.c
    let off := (c.getX a).toNat
    let r := (c.getX b).toNat
    let w := c.gangw.toNat
    (w = 0 ∨ w * c.gangh.toNat ≤ r ∨ 0x3C_0000 ≤ off →
      WritesX (.raddr d a b) s d (toWord (0xF000_0000_FFC0_0000 + off % 2 ^ 22))) ∧
    (0 < w → r < w * c.gangh.toNat → off < 0x3C_0000 →
      c.rank.toNat % w ≤ t.val % 30 → t.val % 30 - c.rank.toNat % w + w ≤ 30 →
      c.rank.toNat / w ≤ t.val / 30 → t.val / 30 - c.rank.toNat / w + c.gangh.toNat ≤ 30 →
      let x := t.val % 30 - c.rank.toNat % w + r % w
      let y := t.val / 30 - c.rank.toNat / w + r / w
      WritesX (.raddr d a b) s d (toWord (15 * 2 ^ 60 + (30 * y + x) * 2 ^ 22 + off)))

/-- R52 and R127: fence.issue, once its token's last set is performed, records the context's accesses under way of the kinds
that it names (bit 1 loads, bit 2 stores; here with no message, decrement, copy request or matrix entry under way);
fence.wait waits until that set is performed, and fence.test says whether it is. A pending late fault of the set is taken before
either returns (R53, R122). -/
def Sys2Proof.Claims.Fences : Prop :=
  ∀ (s : State) (d : BitVec 5) (t : BitVec 2) (k : BitVec 5), s.latch.rep = none →
    let mine := fun (stores : Bool) => (s.net.filter fun x => x.agent = s.cur && (decide (x.kind = .store) = stores)).map Access.id
    let token := s.c.tokens[t.toNat]'t.isLt
    let done := ∀ i ∈ token.ids, i ∉ s.openIds s.cur
    let raised := fun (l : LateFault) => ∃ i, l.id = some i ∧ i ∈ token.ids
    let quiet := ∀ l ∈ s.c.late, ¬raised l
    (quiet → done → GoesTo (.fenceWait t) s (follows s) ∧ WritesX (.fenceTest d t) s d 1) ∧
    (quiet → ¬done → Parks (.fenceWait t) s (.fence t.toNat) ∧ WritesX (.fenceTest d t) s d 0) ∧
    (∀ l before after, s.c.late = before ++ l :: after → (∀ x ∈ before, ¬raised x) → l ∉ before → raised l →
      isCrest s.cur = true ∨ s.c.kt = false → l.code ≠ 2 → l.code ≠ 3 →
      ∀ i ∈ ([.fenceWait t, .fenceTest d t] : List Instr), Completes i s fun u =>
        OtherCtxs s u s.cur ∧ u.c.late = before ++ after ∧ u.c.run = .ready ∧
        Entered s.c u.c 0 (toWord (l.code.toNat + 2 ^ 10 + match l.ring with
          | none => 0
          | some q => 2 ^ 11 + q.toNat * 2 ^ 16)) l.info) ∧
    (¬done → Parks (.fenceIssue t k) s (.fence t.toNat)) ∧
    (done → s.openMessages s.cur = [] → s.openDecrements s.cur = [] → s.openCopies s.cur = [] → s.openEntries s.cur = [] →
      Completes (.fenceIssue t k) s fun u =>
        let new := (if k.getLsbD 1 then mine false else []) ++ (if k.getLsbD 2 then mine true else [])
        OnlyIssuer s u ∧ (∀ j : Fin 4, u.c.tokens[j] = if j.val = t.toNat then ⟨new⟩ else s.c.tokens[j]) ∧
        u.c = { s.c with tokens := u.c.tokens, pc := follows s })

/-- R46 and R119: an access to another tile's local memory, by its aperture address, goes to the network; a load blocks its
context until the value returns, a store goes on in line. -/
def Sys2Proof.Claims.RemoteIssue : Prop :=
  ∀ (s : State) (t u : Fin 900) (f : Fin 4) (k : Fin 11) (d a : BitVec 5) (off : Nat),
    s.cur = .facet t f k → s.latch.rep = none → off % 8 = 0 → off < 0x40_0000 →
    (s.c.getX a).toNat = 15 * 2 ^ 60 + u.val * 2 ^ 22 + off → s.c.spc = 0 → (s.facet t f).fenced = false →
    let access := fun (kind : AccKind) (data : Nat) (back : Writeback) =>
      ({ id := s.nextId, agent := s.cur, kind := kind
         todo := [⟨0, s.c.getX a, .loc (lmLoc u.val off), 8, data⟩], done := [], refused := none, back := back
         latch := s.latch, ring := none } : Access)
    (Completes (.ldAcq d a 6) s fun v =>
      v = { s with ctxs := v.ctxs, net := s.net ++ [access .load 0 (.scalar d 8 false)], nextId := s.nextId + 1 } ∧
        OtherCtxs s v s.cur ∧ v.c = { s.c with run := .blocked }) ∧
    (Completes (.st d a 6 0) s fun v =>
      v = { s with ctxs := v.ctxs, net := s.net ++ [access .store (s.c.getX d).toNat .none], nextId := s.nextId + 1 } ∧
        OtherCtxs s v s.cur ∧ v.c = { s.c with pc := follows s })

/-- R43, R256 and R257: the oldest access of the network, of one element, is performed at its home tile, if a window of the
tile grants it: a load reads the bytes, a store writes them and is over. If no window is open a load is refused with NACK, and a
store's refusal becomes a late fault of its context (R122). -/
def Sys2Proof.Claims.HomePerforms : Prop :=
  ∀ (s : State) (u : Fin 900) (x : Access) (rest : List Access) (e : Elem) (off : Nat) (reply : Reply),
    s.net = x :: rest → (∀ y ∈ rest, y.id ≠ x.id) → x.todo = [e] → x.refused = none → x.ring = none →
    e.target = .loc (lmLoc u.val off) → 2 ^ 60 ≤ e.va.toNat → 0 < e.bytes → off + e.bytes ≤ 0x3C_0000 → s.msgs = [] →
    s.softErrors = [] →
    let loc := lmLoc u.val off
    let windows := (s.tile u.val).win
    (x.kind = .load → TakesAccesses s u → (∃ j : Fin 4, WindowGrants windows[j] off e.bytes true false) →
      exec (.homeAccess x.id reply) s = .next { s with
        net := { x with todo := [], done := x.done ++ [(e.lane, s.mem.read loc e.bytes)] } :: rest }) ∧
    (x.kind = .store → TakesAccesses s u → (∃ j : Fin 4, WindowGrants windows[j] off e.bytes false true) →
      Completes (.homeAccess x.id reply) s fun v =>
        v = { s with net := rest, mem := v.mem } ∧ OtherBytes s v loc e.bytes ∧
          v.mem.read loc e.bytes = e.data % 256 ^ e.bytes) ∧
    (x.kind = .load → (∀ j : Fin 4, bits windows[j] 53 32 ≤ bits windows[j] 21 0) →
      exec (.homeAccess x.id reply) s = .next { s with
        net := { x with todo := [], refused := some (0x08, e.lane, e.va) } :: rest }) ∧
    (x.kind = .store → (∀ j : Fin 4, bits windows[j] 53 32 ≤ bits windows[j] 21 0) →
      Completes (.homeAccess x.id reply) s fun v =>
        v = { s with net := rest, ctxs := v.ctxs } ∧ OtherCtxs s v x.agent ∧
          v.ctx x.agent = { s.ctx x.agent with late := (s.ctx x.agent).late ++ [⟨0x08, e.va, none, some x.id, false⟩] })

/-- R46 and R121: the value of a remote load comes back into its register and the instruction retires; a refused one takes its
precise fault, with epc at the instruction. -/
def Sys2Proof.Claims.RemoteValue : Prop :=
  ∀ (s : State) (a : Agent) (x : Access) (rest : List Access) (d : BitVec 5) (n v : Nat) (sg : Bool),
    s.net = x :: rest → (∀ y ∈ rest, y.id ≠ x.id) → x.agent = a → x.kind = .load → x.todo = [] → x.latch.rep = none →
    x.back = .scalar d n sg → n ∈ [1, 2, 4, 8] → v < 256 ^ n →
    let c := s.ctx a
    (x.refused = none → x.done = [(0, v)] →
      Completes (.remoteValueReturn a) s fun t =>
        t = { s with net := rest, ctxs := t.ctxs } ∧ OtherCtxs s t a ∧ SetsX d (loaded n sg v) c (t.ctx a) ∧
        t.ctx a = { c with x := (t.ctx a).x, run := .ready, pc := c.pc + toWord x.latch.len }) ∧
    (∀ code lane va, x.refused = some (code, lane, va) → code ≠ 2 → code ≠ 3 → isCrest a = true ∨ c.kt = false →
      Completes (.remoteValueReturn a) s fun t =>
        t.net = rest ∧ OtherCtxs s t a ∧ Entered c (t.ctx a) 0 (code.zeroExtend 64) va ∧ (t.ctx a).run = .ready)

/-- R122, R167 and R174: the oldest late fault of a ready context enters the kernel at its boundary, with bit 10 of ecause set
and, for an instruction of the coprocessor ring, bit 11 and the ring's sequence number. In a facet's kernel handler it is a DOUBLE
(R178; log entry 59). -/
def Sys2Proof.Claims.LateFaultEntry : Prop :=
  ∀ (s : State) (a : Agent) (l : LateFault) (rest : List LateFault),
    let c := s.ctx a
    c.late = l :: rest → c.run = .ready → c.frozen = false →
    (isCrest a = true ∨ c.kt = false → l.code ≠ 2 → l.code ≠ 3 →
      Completes (.lateFault a) s fun t =>
        OtherCtxs s t a ∧ (t.ctx a).late = rest ∧ (t.ctx a).run = .ready ∧ t.net = s.net ∧ t.tiles = s.tiles ∧
        Entered c (t.ctx a) 0 (toWord (l.code.toNat + 2 ^ 10 + match l.ring with
          | none => 0
          | some q => 2 ^ 11 + q.toNat * 2 ^ 16)) l.info) ∧
    (isCrest a = false → c.kt = true → (s.queue 0).waiters = [] → Completes (.lateFault a) s fun t =>
      OtherCtxs s t a ∧ t.ctx a = { c with late := rest, run := .halted } ∧ t.net = s.net ∧ t.tiles = s.tiles)

/-- R356 to R359: a walker translates the page that a facet context is parked on, through four levels from the device's own
root, each entry valid and with no reserved bit. A page that grants the read is cached in the tile and the instruction runs
again; one that does not is a PROT fault; with no root the context gets a tag and a type-2 record goes to the resident kernel
(R361). The tag is the low 16 bits of the model's next number (log entry 19). -/
def Sys2Proof.Claims.TranslationWalk : Prop :=
  ∀ (s : State) (t : Fin 900) (f : Fin 4) (k : Fin 11) (va : Word),
    let a := Agent.facet t f k
    let v := va.toNat
    let root := s.mem.read (Config.anchor + 8 * s.mgmt.domain.toNat) 8
    let e1 := s.mem.read (root + 8 * (v / 2 ^ 55 % 2 ^ 9)) 8
    let e2 := s.mem.read (e1 / 2 ^ 16 * 2 ^ 16 + 8 * (v / 2 ^ 42 % 2 ^ 13)) 8
    let e3 := s.mem.read (e2 / 2 ^ 16 * 2 ^ 16 + 8 * (v / 2 ^ 29 % 2 ^ 13)) 8
    let e4 := s.mem.read (e3 / 2 ^ 16 * 2 ^ 16 + 8 * (v / 2 ^ 16 % 2 ^ 13)) 8
    let node := fun (e : Nat) => e < 2 ^ 39 ∧ e % 2 ^ 16 = 1
    let pageOk := e4 < 2 ^ 39 ∧ e4 % 2 = 1 ∧ e4 / 2 ^ 6 % 2 ^ 10 = 0
    let readable := e4 / 4 % 2 = 1 ∧ (s.c.kernel = true ∨ e4 / 32 % 2 = 1)
    (s.ctx a).run = .parked (.translation va 0 0 none) → s.cur = a →
    (root < 2 ^ 39 → root % 2 ^ 16 = 0 → root ≠ 0 → node e1 → node e2 → node e3 → pageOk → readable →
      Completes (.translationWalk a) s fun u =>
        u = { s with ctxs := u.ctxs, tiles := u.tiles } ∧ OtherCtxs s u a ∧ OtherTiles s u t.val ∧
        u.ctx a = { s.ctx a with run := .ready } ∧
        ⟨0, v / 2 ^ 16, e4 / 2 ^ 16, BitVec.ofNat 4 (e4 / 4)⟩ ∈ (u.tile t.val).tlb) ∧
    (root < 2 ^ 39 → root % 2 ^ 16 = 0 → root ≠ 0 → node e1 → node e2 → node e3 → pageOk → ¬readable → s.c.kt = false →
      Completes (.translationWalk a) s fun u => OtherCtxs s u a ∧ Entered (s.ctx a) (u.ctx a) 0 0x07 va) ∧
    (root = 0 → HoldsRecord s →
      Completes (.translationWalk a) s fun u => ∃ r : Vec,
        u = { s with ctxs := u.ctxs, nextId := s.nextId + 1, mgmt := moreRecords s r } ∧ OtherCtxs s u a ∧
        u.ctx a = { s.ctx a with run := .parked (.translation va 0 0 (some (BitVec.ofNat 16 s.nextId))) } ∧
        bits r 7 0 = 2 ∧ bits r 15 8 = 0x06 ∧ bits r 47 32 = t.val ∧ bits r 63 48 = ctxid a ∧ bits r 127 64 = v ∧
        bits r 191 128 = (s.ctx a).pc.toNat ∧ bits r 207 192 = s.nextId % 2 ^ 16)

/-- R362: a TRESUME from a kernel-privilege crest context whose tag is that of the park ends it: 0 runs the instruction again,
the codes XLATE and PROT fault it, a frozen context's after THAW. The message goes into no mailbox. -/
def Sys2Proof.Claims.TranslationResume : Prop :=
  ∀ (s : State) (t : Fin 900) (f : Fin 4) (k : Fin 11) (kc : Fin 32) (cc : Fin 2) (m : Message) (va : Word) (tag : BitVec 16)
    (sp : Byte) (kind : Nat),
    let a := Agent.facet t f k
    let o := Owner.facet t f
    s.msgs = [m] → s.net = [] → m.dest = o → m.sender = some (.crest kc cc) → m.kernel = true → m.ctx = k.val →
    m.ring = none → m.refusals = [] → bits m.lo 23 16 = 0xE1 → bits m.lo 15 0 = tag.toNat →
    (s.ctx a).run = .parked (.translation va sp kind (some tag)) → (s.tile t.val).gang ≠ none →
    (s.tile t.val).spilled = false → (s.facet t f).fenced = false → (s.ni o).quiescing = false →
    (m.hi = 0 → Completes (.tresume m.id) s fun u =>
      u = { s with ctxs := u.ctxs, msgs := [] } ∧ OtherCtxs s u a ∧ u.ctx a = { s.ctx a with run := .ready }) ∧
    (m.hi = 0x06 ∨ m.hi = 0x07 → (s.ctx a).frozen = false → (s.ctx a).kt = false → Completes (.tresume m.id) s fun u =>
      OtherCtxs s u a ∧ u.msgs = [] ∧ u.nis = s.nis ∧ Entered (s.ctx a) (u.ctx a) 0 m.hi va ∧ (u.ctx a).run = .ready) ∧
    (m.hi = 0x06 ∨ m.hi = 0x07 → (s.ctx a).frozen = true → Completes (.tresume m.id) s fun u =>
      u = { s with ctxs := u.ctxs, msgs := [] } ∧ OtherCtxs s u a ∧
        u.ctx a = { s.ctx a with run := .parked (.resolved (m.hi.setWidth 8) va) })

/-! ### Synchronisation inside a tile (R128 to R136, R156 to R161) -/

/-- R130: a free mutex is taken; an owned one parks its context at the tail of its waiters; its owner's own mtx.lock traps
PROT with the number; mtx.try never waits; mtx.unlock, a release, hands the mutex to the head waiter, which goes on past its
mtx.lock, or frees it, and traps PROT from a context that does not own it. -/
def Sys2Proof.Claims.Mutexes : Prop :=
  ∀ (s : State) (t : Fin 900) (f : Fin 4) (k : Fin 11) (d b : BitVec 5) (m : Fin 16),
    s.cur = .facet t f k → s.latch.rep = none → b.toNat = m.val →
    let x := (s.tile t.val).mutexes[m]
    let me : BitVec 6 := BitVec.ofNat 6 (16 * f.val + k.val)
    let becomes := fun (u : State) (y : Mutex) =>
      u = { s with ctxs := u.ctxs, tiles := u.tiles } ∧ OtherTiles s u t.val ∧
        u.tile t.val = { s.tile t.val with mutexes := (s.tile t.val).mutexes.set m.val y }
    let on := { s.c with pc := follows s }
    (x.owner = none → Completes (.mtxLock b) s fun u => becomes u { x with owner := some me } ∧ OtherCtxs s u s.cur ∧ u.c = on) ∧
    (∀ o, x.owner = some o → o ≠ me → Completes (.mtxLock b) s fun u =>
      becomes u { x with waiters := x.waiters ++ [s.cur] } ∧ OtherCtxs s u s.cur ∧ u.c = { s.c with run := .parked (.mutex m.val) }) ∧
    (x.owner = some me → Traps (.mtxLock b) s 0x07 (toWord m.val)) ∧
    (x.owner = none → x.waiters = [] → Completes (.mtxTry d b) s fun u =>
      becomes u { x with owner := some me } ∧ OtherCtxs s u s.cur ∧ SetsX d 1 s.c u.c ∧ u.c = { on with x := u.c.x }) ∧
    (x.owner ≠ none → WritesX (.mtxTry d b) s d 0) ∧
    (x.owner = some me → x.waiters = [] → Releases s → Completes (.mtxUnlock b) s fun u =>
      becomes u { x with owner := none } ∧ OtherCtxs s u s.cur ∧ u.c = on) ∧
    (∀ w rest, x.owner = some me → x.waiters = w :: rest → w ≠ s.cur → Releases s →
      Completes (.mtxUnlock b) s fun u =>
        becomes u ⟨some (BitVec.ofNat 6 (ctxid w)), rest⟩ ∧ u.c = on ∧
        u.ctx w = { s.ctx w with pc := (s.ctx w).pc + 4, run := .ready } ∧ ∀ a, a ≠ s.cur → a ≠ w → u.ctx a = s.ctx a) ∧
    (x.owner = some me → ¬NothingOpen s s.cur → Parks (.mtxUnlock b) s .order) ∧
    (x.owner ≠ some me → Traps (.mtxUnlock b) s 0x07 (toWord m.val))

/-- R131: sem.p takes a permit if there is one and nobody waits, else it parks at the tail; sem.try never waits; sem.v, a release,
completes the head waiter, or raises the count, or at 65,535 loses the permit and sets the overflow bit; sem.rd gives the
count, the number of waiters and the overflow bit, and clears that bit. -/
def Sys2Proof.Claims.Semaphores : Prop :=
  ∀ (s : State) (t : Fin 900) (f : Fin 4) (k : Fin 11) (d b : BitVec 5),
    s.cur = .facet t f k → s.latch.rep = none →
    let x := (s.tile t.val).sems[b.toNat]'b.isLt
    let becomes := fun (u : State) (y : Sem) =>
      u = { s with ctxs := u.ctxs, tiles := u.tiles } ∧ OtherTiles s u t.val ∧
        u.tile t.val = { s.tile t.val with sems := (s.tile t.val).sems.set b.toNat y b.isLt }
    let on := { s.c with pc := follows s }
    (x.count ≠ 0 → x.waiters = [] →
      (Completes (.semP b) s fun u => becomes u { x with count := x.count - 1 } ∧ OtherCtxs s u s.cur ∧ u.c = on) ∧
      (Completes (.semTry d b) s fun u =>
        becomes u { x with count := x.count - 1 } ∧ OtherCtxs s u s.cur ∧ SetsX d 1 s.c u.c ∧ u.c = { on with x := u.c.x })) ∧
    (x.count = 0 ∨ x.waiters ≠ [] →
      (Completes (.semP b) s fun u =>
        becomes u { x with waiters := x.waiters ++ [s.cur] } ∧ OtherCtxs s u s.cur ∧
          u.c = { s.c with run := .parked (.semaphore b.toNat) }) ∧
      WritesX (.semTry d b) s d 0) ∧
    (Releases s → x.waiters = [] → Completes (.semV b) s fun u =>
      becomes u { x with count := if x.count = 0xFFFF then x.count else x.count + 1, ovf := x.ovf || x.count = 0xFFFF } ∧
        OtherCtxs s u s.cur ∧ u.c = on) ∧
    (∀ w rest, Releases s → x.waiters = w :: rest → w ≠ s.cur → Completes (.semV b) s fun u =>
      becomes u { x with waiters := rest } ∧ u.c = on ∧
        u.ctx w = { s.ctx w with pc := (s.ctx w).pc + 4, run := .ready } ∧ ∀ a, a ≠ s.cur → a ≠ w → u.ctx a = s.ctx a) ∧
    (¬NothingOpen s s.cur → Parks (.semV b) s .order) ∧
    (Completes (.semRd d b) s fun u =>
      becomes u { x with ovf := false } ∧ OtherCtxs s u s.cur ∧ u.c = { on with x := u.c.x } ∧
      SetsX d (toWord (x.count.toNat + x.waiters.length * 2 ^ 16 + if x.ovf then 2 ^ 22 else 0)) s.c u.c)

/-- R134 and R135: bar.arrive, a release, arrives for the open phase of a channel of which the facet is a member, reports it
when every member has arrived, and writes the phase joined; while its own last arrival is open it parks, and so does a facet
that is a member only from the next phase on (log entry 62); a facet that is no member traps PROT with the channel. bar.wait
parks until the phase that x[a] names is complete, bar.test says whether it is. bar.cfg sets the tile's members, from a control
context, from the first phase that the tile has not reported. Here no facet of the tile is fenced. -/
def Sys2Proof.Claims.BarrierInstructions : Prop :=
  ∀ (s : State) (t : Fin 900) (f : Fin 4) (k : Fin 11) (d a b : BitVec 5) (ch : Fin 16),
    s.cur = .facet t f k → s.latch.rep = none → b.toNat = ch.val → (∀ g, (s.facet t g).fenced = false) →
    let x := (s.tile t.val).channels[ch]
    let becomes := fun (u : State) (y : Channel) =>
      u = { s with ctxs := u.ctxs, tiles := u.tiles } ∧ OtherTiles s u t.val ∧ OtherCtxs s u s.cur ∧
        u.tile t.val = { s.tile t.val with channels := (s.tile t.val).channels.set ch.val y }
    let on := { s.c with pc := follows s }
    let phase : BitVec 32 := (s.c.getX a).setWidth 32
    let complete := 1 ≤ (x.count - phase).toNat ∧ (x.count - phase).toNat ≤ 2 ^ 31
    let arrived := x.arrived ||| (1 <<< f.val)
    let joins := x.reported = true ∧ (x.next.getD 0).getLsbD f.val = true
    (x.members.getLsbD f.val = true → x.arrived.getLsbD f.val = false → Releases s →
      Completes (.barArrive d b) s fun u =>
        becomes u { x with arrived := arrived, reported := x.reported || decide (arrived &&& x.members = x.members) } ∧
        SetsX d (x.count.zeroExtend 64) s.c u.c ∧ u.c = { on with x := u.c.x }) ∧
    (x.members.getLsbD f.val = true → x.arrived.getLsbD f.val = false → ¬NothingOpen s s.cur →
      Parks (.barArrive d b) s .order) ∧
    (x.members.getLsbD f.val = true → x.arrived.getLsbD f.val = true → Parks (.barArrive d b) s (.arrive ch.val)) ∧
    (x.members.getLsbD f.val = false → joins → Parks (.barArrive d b) s (.arrive ch.val)) ∧
    (x.members.getLsbD f.val = false → ¬joins → Traps (.barArrive d b) s 0x07 (toWord ch.val)) ∧
    (complete → GoesTo (.barWait a b) s (follows s) ∧ WritesX (.barTest d a b) s d 1) ∧
    (¬complete → Parks (.barWait a b) s (.barrier ch.val phase) ∧ WritesX (.barTest d a b) s d 0) ∧
    (k = 0 → a.toNat ≤ 4 →
      let members : BitVec 4 := if a.toNat = 4 then 0xF else 1 <<< a.toNat
      Completes (.barCfg a b) s fun u =>
        becomes u (if x.reported then { x with next := some members }
          else { x with members := members, reported := decide (x.arrived &&& members = members) }) ∧ u.c = on) ∧
    (k = 0 → 4 < a.toNat → Traps (.barCfg a b) s 0x01 (s.latch.word.zeroExtend 64)) ∧
    (k ≠ 0 → Traps (.barCfg a b) s 0x07 (s.latch.word.zeroExtend 64))

/-- R133: a phase completes once every tile of the gang has reported it, and at none before: at each of them the count rises by
1 modulo 2^32 and the next phase opens with nothing arrived, for the members that a bar.cfg has set for it (R135). A saved gang's
phases stand (R183), and so do those of a gang with a tile whose counts are in its spill area (DEDUCED, log entry 73). -/
def Sys2Proof.Claims.BarrierPhase : Prop :=
  ∀ (s : State) (slot : Fin 256) (ch : Fin 16) (g : Gang), s.gangs.find slot.val = some g → g.x0 + g.w ≤ 30 →
    g.phase ≠ .saved →
    let tiles := (List.range g.h).flatMap fun y => (List.range g.w).map fun x => 30 * (g.y0 + y) + g.x0 + x
    ((∀ t ∈ tiles, (s.tile t).channels[ch].reported = true ∧ (s.tile t).spilled = false) →
      Completes (.barrierPhaseComplete slot ch) s fun u =>
        u = { s with tiles := u.tiles } ∧
        (∀ t ∈ tiles,
          let x := (s.tile t).channels[ch]
          let y := ⟨x.count + 1, x.next.getD x.members, none, 0, false⟩
          u.tile t = { s.tile t with channels := (s.tile t).channels.set ch.val y }) ∧
        ∀ t, t ∉ tiles → u.tile t = s.tile t) ∧
    ((∃ t ∈ tiles, (s.tile t).channels[ch].reported = false ∨ (s.tile t).spilled = true) → exec (.barrierPhaseComplete slot ch) s = .next s)

/-- R157 to R160: bead.start, a release, starts the lowest bead that is not live at x[a], with x[b] in its x1, its stack in its
x30, zeros in its other x registers and its shadow bank kept, and writes its number, or all ones where ten are live; a bead may
not start one.
bead.wait parks while the bead it names is live, bead.live gives the live beads, and bead.end, a release, ends its bead. -/
def Sys2Proof.Claims.Beads : Prop :=
  ∀ (s : State) (t : Fin 900) (f : Fin 4) (k : Fin 11) (d a b : BitVec 5),
    s.cur = .facet t f k → s.latch.rep = none →
    let word := s.latch.word.zeroExtend 64
    let live := fun (j : Fin 11) => (s.ctx (.facet t f j)).run ≠ .notLive
    let n := (s.c.getX a).toNat % 16
    let target := s.c.getX a
    (∀ j : Fin 11, k = 0 → target.toNat % 4 = 0 → Releases s → j ≠ 0 → ¬live j → (∀ i, i ≠ 0 → i < j → live i) →
      Completes (.beadStart d a b) s fun u =>
        let old := s.ctx (.facet t f j)
        let new := u.ctx (.facet t f j)
        u = { s with ctxs := u.ctxs } ∧ (∀ x, x ≠ s.cur → x ≠ .facet t f j → u.ctx x = s.ctx x) ∧
        SetsX d (toWord j.val) s.c u.c ∧ u.c = { s.c with x := u.c.x, pc := follows s } ∧
        (∀ r, new.getX r = if r = 1 then s.c.getX b else if r = 30 then
          (s.c.getX 30 &&& ~~~0x3F) - 0x4000 - 0x2000 * (toWord j.val - 1) else 0) ∧
        (∀ r, new.getV r = 0) ∧ (∀ r, r ≠ 0 → new.getK r = 0) ∧
        (∀ i : Fin 8, new.shadow[i] = if old.uih then old.xn (24 + i.val) else old.shadow[i]) ∧
        new = { old with
          x := new.x, v := new.v, k := new.k, shadow := new.shadow, pc := target, run := .ready, estat := 0, repidx := 0, spc := s.c.spc
          cwin := s.c.cwin, uvec := s.c.uvec, tvec := s.c.tvec }) ∧
    (k = 0 → target.toNat % 4 = 0 → Releases s → (∀ j, j ≠ 0 → live j) →
      WritesX (.beadStart d a b) s d 0xFFFF_FFFF_FFFF_FFFF) ∧
    (k = 0 → target.toNat % 4 ≠ 0 → Traps (.beadStart d a b) s 0x05 target) ∧
    (k ≠ 0 → Traps (.beadStart d a b) s 0x07 word) ∧
    (∀ j : Fin 11, n = j.val → j ≠ 0 → j ≠ k → live j → Parks (.beadWait a) s (.bead n)) ∧
    (n = 0 ∨ 10 < n ∨ n = k.val ∨ (∃ j : Fin 11, n = j.val ∧ ¬live j) → GoesTo (.beadWait a) s (follows s)) ∧
    (∃ v : Word, WritesX (.beadLive d) s d v ∧ (∀ j : Fin 11, v.getLsbD j.val = decide (j ≠ 0 ∧ live j)) ∧
      ∀ j, 11 ≤ j → v.getLsbD j = false) ∧
    (k ≠ 0 → (∀ m : Fin 16, (s.tile t.val).mutexes[m].owner ≠ some (BitVec.ofNat 6 (16 * f.val + k.val))) →
      Releases s →
      ∀ i ∈ [Instr.beadEnd, .halt], Completes i s fun u => OnlyIssuer s u ∧ u.c = { s.c with run := .notLive }) ∧
    (∀ m : Fin 16, k ≠ 0 → (s.tile t.val).mutexes[m].owner = some (BitVec.ofNat 6 (16 * f.val + k.val)) →
      (∀ j : Fin 16, j < m → (s.tile t.val).mutexes[j].owner ≠ some (BitVec.ofNat 6 (16 * f.val + k.val))) →
      Traps .beadEnd s 0x07 (toWord m.val)) ∧
    (k = 0 → Traps .beadEnd s 0x07 word)

/-! ### Special registers (R80, R88, R165, R166) -/

/-- R165, R166 and R182: srr gives every register of R88 on a facet: the context's own, its facet's, its tile's; the windows and
lmres trap PRIV at user privilege, a number that R88 does not list ILLEGAL. lmres reads 0x40_0000 above 0x3C_0000, in bits that
R182 gives only 22 of (log entry 31). -/
def Sys2Proof.Claims.SpecialRegisterReads : Prop :=
  ∀ (s : State) (t : Fin 900) (f : Fin 4) (k : Fin 11) (d : BitVec 5),
    s.cur = .facet t f k → s.latch.rep = none →
    let c := s.c
    let word := s.latch.word.zeroExtend 64
    let y := s.tile t.val
    let z := (s.mm t.val).bz
    let e := (s.ni (.facet t f)).ring.toList.getD (c.cringSel.toNat % 16) RingEntry.initial
    let op := c.cringSel.toNat / 16
    let context : List (BitVec 12 × Word) := [
      (0x000, c.epc), (0x001, c.ecause), (0x002, c.einfo), (0x003, c.estat), (0x004, c.tvec), (0x005, c.uvec),
      (0x006, c.fflags.zeroExtend 64), (0x007, c.frm.zeroExtend 64), (0x008, c.srgen), (0x009, c.spc.zeroExtend 64),
      (0x00A, c.cwin), (0x00B, toWord ((s.facet t f).hbLeft.toNat * 2 ^ 32 + (s.facet t f).hbInterval.toNat)),
      (0x00C, c.repidx.zeroExtend 64), (0x00D, toWord (16 * f.val + k.val)), (0x00E, c.rank), (0x00F, c.gangid),
      (0x010, c.gangw), (0x011, c.gangh), (0x012, toWord t.val), (0x013, 0x7FF), (0x014, toWord s.now)]
    let units : List (BitVec 12 × Word) := [
      (0x100, (s.mm t.val).wm), (0x101, (s.mm t.val).seqpos), (0x140, z.site), (0x141, z.row), (0x142, z.col),
      (0x143, z.delta), (0x144, y.bzwin), (0x148, z.tols[0]), (0x149, z.tols[1]), (0x14A, z.tols[2]), (0x14B, z.tols[3]),
      (0x14C, z.tols[4]), (0x14D, z.tols[5]), (0x14E, z.tols[6]), (0x180, c.cringSel.zeroExtend 64), (0x181, e.pc),
      (0x182, if op = 0 then toWord (e.seq.toNat * 2 ^ 48 + (if e.open_ then 2 ^ 32 else 0) + e.word.toNat)
        else if op ≤ 4 then e.ops.getD (op - 1) 0 else 0)]
    let kernelOnly : List (BitVec 12 × Word) := [
      (0x800, y.win[0]), (0x801, y.win[1]), (0x802, y.win[2]), (0x803, y.win[3]),
      (0x804, toWord ((if y.wp then 2 ^ 63 else 0) + 0x40_0000 * 2 ^ 32 + 0x3C_0000))]
    (∀ p ∈ context ++ units, WritesX (.srr d p.1) s d p.2) ∧
    (s.c.kernel = true → ∀ p ∈ kernelOnly, WritesX (.srr d p.1) s d p.2) ∧
    (s.c.kernel = false → ∀ p ∈ kernelOnly, Traps (.srr d p.1) s 0x04 word) ∧
    (∀ n : BitVec 12, (∀ p ∈ context ++ units ++ kernelOnly, p.1 ≠ n) → Traps (.srr d n) s 0x01 word)

/-- R165: srw, srs and src change the writable bits of a register and no other register, and give the old value in x[d]; a
write at user privilege to a kernel register traps PRIV, to a read-only one or a number that R88 does not list ILLEGAL, and frm takes
neither 6 nor 7 (R80). -/
def Sys2Proof.Claims.SpecialRegisterWrites : Prop :=
  ∀ (s : State) (t : Fin 900) (f : Fin 4) (k : Fin 11) (d a : BitVec 5),
    s.cur = .facet t f k → s.latch.rep = none →
    let x := s.c.getX a
    let ones : Word := 0xFFFF_FFFF_FFFF_FFFF
    let word := s.latch.word.zeroExtend 64
    let read := fun (u : State) (n : BitVec 12) => u.srRead u.cur n.toNat
    let free : List (BitVec 12 × Word) := [(0x005, ~~~2), (0x006, 0x3F), (0x007, 7), (0x008, ones), (0x009, 0xFF),
      (0x148, ones), (0x149, ones), (0x14A, ones), (0x14B, ones), (0x14C, ones), (0x14D, ones), (0x14E, ones), (0x180, 0x7F)]
    let kernelOnly : List (BitVec 12 × Word) := [(0x000, ones), (0x001, 0xFFFF_0FFF), (0x002, ones), (0x003, 0x174),
      (0x004, ~~~0xFF), (0x00A, 0x003F_FFFF_003F_FFFF), (0x00B, 0xFFFF_FFFF), (0x00C, 0x3F), (0x101, 0x8000_0000_FFFF_FFFF),
      (0x140, 3), (0x144, 0xFF_FFFF_FFFF), (0x800, 0xF03F_FFFF_003F_FFFF), (0x801, 0xF03F_FFFF_003F_FFFF),
      (0x802, 0xF03F_FFFF_003F_FFFF), (0x803, 0xF03F_FFFF_003F_FFFF), (0x804, 0x8000_0000_0000_0000)]
    let readOnly : List (BitVec 12) := [0x00D, 0x00E, 0x00F, 0x010, 0x011, 0x012, 0x013, 0x014, 0x100, 0x141, 0x142, 0x143, 0x181, 0x182]
    let writes := fun (i : Instr) (n : BitVec 12) (mask v : Word) => Completes i s fun u =>
      u = { s with ctxs := u.ctxs, facets := u.facets, tiles := u.tiles, mms := u.mms } ∧ OtherCtxs s u s.cur ∧
      OtherFacets s u t f ∧ OtherTiles s u t.val ∧ OtherMms s u t.val ∧ SetsX d (read s n) s.c u.c ∧ u.c.v = s.c.v ∧
      u.c.k = s.c.k ∧ u.c.pc = follows s ∧ u.c.run = s.c.run ∧
      (let new := (read s n &&& ~~~mask) ||| (v &&& mask)
       read u n = if n = 0x008 ∧ new = 0 then 0x9E37_79B9_7F4A_7C15 else new) ∧
      ∀ m, m ≠ n → (n = 0x180 → m ≠ 0x181 ∧ m ≠ 0x182) → read u m = read s m
    (∀ p ∈ free ++ kernelOnly, p ∈ free ∨ s.c.kernel = true →
      let old := read s p.1
      ((p.1 = 0x007 → x.toNat % 8 < 6) → writes (.srw d a p.1) p.1 p.2 x) ∧
      ((p.1 = 0x007 → (old ||| x).toNat % 8 < 6) → writes (.srs d a p.1) p.1 p.2 (old ||| x)) ∧
      ((p.1 = 0x007 → (old &&& ~~~x).toNat % 8 < 6) → writes (.src d a p.1) p.1 p.2 (old &&& ~~~x))) ∧
    let traps := fun (n : BitVec 12) (code : Nat) =>
      Traps (.srw d a n) s code word ∧ Traps (.srs d a n) s code word ∧ Traps (.src d a n) s code word
    (6 ≤ x.toNat % 8 → Traps (.srw d a 0x007) s 0x01 word) ∧
    (6 ≤ (read s 0x007 ||| x).toNat % 8 → Traps (.srs d a 0x007) s 0x01 word) ∧
    (6 ≤ (read s 0x007 &&& ~~~x).toNat % 8 → Traps (.src d a 0x007) s 0x01 word) ∧
    (s.c.kernel = false → ∀ p ∈ kernelOnly, traps p.1 0x04) ∧ (∀ n ∈ readOnly, traps n 0x01) ∧
    (∀ n : BitVec 12, (∀ p ∈ free ++ kernelOnly, p.1 ≠ n) → n ∉ readOnly → traps n 0x01)

/-- R88, R97, R165, R166, R182 and R255: the special registers of a crest core. The matrix registers trap FEATURE; cwin, the windows
and lmres read 0 and take no write, the gang's registers read 0, tileid reads 0xFFFF; the context's own registers, cring.op among
them, are read and written as on a facet, and hbint is a register of the core's own (log entry 8). The kernel's trap PRIV at user
privilege; a write of a read-only register and any access to a number that R88 does not list trap ILLEGAL. -/
def Sys2Proof.Claims.CrestSpecialRegisters : Prop :=
  ∀ (s : State) (kc : Fin 32) (cc : Fin 2) (d a : BitVec 5),
    s.cur = .crest kc cc → s.latch.rep = none →
    let c := s.c
    let x := c.getX a
    let ones : Word := 0xFFFF_FFFF_FFFF_FFFF
    let word := s.latch.word.zeroExtend 64
    let e := (s.ni (.crest kc)).ring.toList.getD (c.cringSel.toNat % 16) RingEntry.initial
    let op := c.cringSel.toNat / 16
    let h := s.facets.get Facet.initial (ownerKey (.crest kc))
    let read := fun (u : State) (n : BitVec 12) => u.srRead u.cur n.toNat
    let reads : List (BitVec 12 × Word) := [
      (0x000, c.epc), (0x001, c.ecause), (0x002, c.einfo), (0x003, c.estat), (0x004, c.tvec), (0x005, c.uvec),
      (0x006, c.fflags.zeroExtend 64), (0x007, c.frm.zeroExtend 64), (0x008, c.srgen), (0x009, c.spc.zeroExtend 64),
      (0x00A, 0), (0x00B, toWord (h.hbLeft.toNat * 2 ^ 32 + h.hbInterval.toNat)), (0x00C, c.repidx.zeroExtend 64),
      (0x00D, toWord (0x8000 + 256 * kc.val + cc.val)), (0x00E, 0), (0x00F, 0),
      (0x010, 0), (0x011, 0), (0x012, 0xFFFF), (0x013, 0x1F87), (0x014, toWord s.now), (0x180, c.cringSel.zeroExtend 64),
      (0x181, e.pc), (0x182, if op = 0 then toWord (e.seq.toNat * 2 ^ 48 + (if e.open_ then 2 ^ 32 else 0) + e.word.toNat)
        else if op ≤ 4 then e.ops.getD (op - 1) 0 else 0)]
    let user : List (BitVec 12 × Word) := [(0x005, ~~~2), (0x006, 0x3F), (0x007, 7), (0x008, ones), (0x009, 0xFF), (0x180, 0x7F)]
    let kernel : List (BitVec 12 × Word) := [(0x000, ones), (0x001, 0xFFFF_0FFF), (0x002, ones), (0x003, 0x174),
      (0x004, ~~~0xFF), (0x00B, 0xFFFF_FFFF), (0x00C, 0x3F)]
    let readOnly : List (BitVec 12) := [0x00D, 0x00E, 0x00F, 0x010, 0x011, 0x012, 0x013, 0x014, 0x181, 0x182]
    let matrix : List (BitVec 12) := [0x100, 0x101, 0x140, 0x141, 0x142, 0x143, 0x144, 0x148, 0x149, 0x14A, 0x14B, 0x14C, 0x14D,
      0x14E]
    let windows : List (BitVec 12) := [0x800, 0x801, 0x802, 0x803, 0x804]
    let writes := fun (i : Instr) (n : BitVec 12) (mask v : Word) => Completes i s fun u =>
      u = { s with ctxs := u.ctxs, facets := u.facets } ∧ OtherCtxs s u s.cur ∧ (n ≠ 0x00B → u.facets = s.facets) ∧
      (∀ j, j ≠ ownerKey (.crest kc) → u.facets.get Facet.initial j = s.facets.get Facet.initial j) ∧
      SetsX d (read s n) s.c u.c ∧ u.c.pc = follows s ∧ u.c.run = s.c.run ∧ u.c.v = s.c.v ∧ u.c.k = s.c.k ∧
      (let new := (read s n &&& ~~~mask) ||| (v &&& mask)
       read u n = if n = 0x008 ∧ new = 0 then 0x9E37_79B9_7F4A_7C15 else new) ∧
      ∀ m, m ≠ n → (n = 0x180 → m ≠ 0x181 ∧ m ≠ 0x182) → read u m = read s m
    let all := fun (n : BitVec 12) => ([.srw d a n, .srs d a n, .src d a n] : List Instr)
    (∀ p ∈ reads, WritesX (.srr d p.1) s d p.2) ∧
    (s.c.kernel = true → ∀ n ∈ windows, ∀ i ∈ .srr d n :: all n, WritesX i s d 0) ∧
    (s.c.kernel = true → ∀ i ∈ all 0x00A, WritesX i s d 0) ∧
    (s.c.kernel = false → ∀ n ∈ windows, ∀ i ∈ .srr d n :: all n, Traps i s 0x04 word) ∧
    (∀ p ∈ user ++ kernel, p ∈ user ∨ s.c.kernel = true →
      let old := read s p.1
      ((p.1 = 0x007 → x.toNat % 8 < 6) → writes (.srw d a p.1) p.1 p.2 x) ∧
      ((p.1 = 0x007 → (old ||| x).toNat % 8 < 6) → writes (.srs d a p.1) p.1 p.2 (old ||| x)) ∧
      ((p.1 = 0x007 → (old &&& ~~~x).toNat % 8 < 6) → writes (.src d a p.1) p.1 p.2 (old &&& ~~~x))) ∧
    (6 ≤ x.toNat % 8 → Traps (.srw d a 0x007) s 0x01 word) ∧
    (6 ≤ (read s 0x007 ||| x).toNat % 8 → Traps (.srs d a 0x007) s 0x01 word) ∧
    (6 ≤ (read s 0x007 &&& ~~~x).toNat % 8 → Traps (.src d a 0x007) s 0x01 word) ∧
    (s.c.kernel = false → ∀ n ∈ 0x00A :: kernel.map Prod.fst, ∀ i ∈ all n, Traps i s 0x04 word) ∧
    (∀ n ∈ readOnly, ∀ i ∈ all n, Traps i s 0x01 word) ∧
    (∀ n ∈ matrix, ∀ i ∈ .srr d n :: all n, Traps i s 0x03 word) ∧
    (∀ n : BitVec 12, n ∉ reads.map Prod.fst → n ∉ matrix → n ∉ windows → ∀ i ∈ .srr d n :: all n, Traps i s 0x01 word)

/-- R157, R129, R134, R146, R186, R187, R255 and R259: what a crest core has no unit for. The beads, the heartbeat and the
matrix engine's instructions trap FEATURE to the emulation vector; mutexes, semaphores, the barrier, the tag table, spilling
and the indexed vector accesses trap PROT. Each with the word. -/
def Sys2Proof.Claims.CrestTraps : Prop :=
  ∀ (s : State) (kc : Fin 32) (cc : Fin 2) (d a b : BitVec 5) (k : BitVec 3) (z : BitVec 1) (w : BitVec 2) (t : BitVec 8),
    s.cur = .crest kc cc → s.latch.rep = none →
    let word := s.latch.word.zeroExtend 64
    (∀ i ∈ ([.beadStart d a b, .beadEnd, .beadWait a, .beadLive d, .hbeat, .mmLoadw a b t, .mmSwap, .mmStream a b t,
        .mmDrain a b t, .mmZero a, .mmRdrow d a, .mmWait, .mmSave, .mmRest, .mmSync, .mmSeq a, .bzLocate d, .bzFix d a,
        .bzRetry d, .bzClear a, .bzInject a b, .bzStat d a, .ttLoad a t, .ttSlice t, .ttRd d b t, .ttInval t] : List Instr),
      Traps i s 0x03 word) ∧
    (∀ i ∈ ([.semP b, .semV b, .semTry d b, .semRd d b, .tagLook d a b, .tagSet a b, .tagClr d a, .tagFlush d a,
        .vldx d a b k z w, .vstx d a b k w] : List Instr), Traps i s 0x07 word) ∧
    (b.toNat < 16 → a.toNat ≤ 4 →
      ∀ i ∈ ([.mtxLock b, .mtxTry d b, .mtxUnlock b, .barArrive d b, .barWait a b, .barTest d a b, .barCfg a b] : List Instr),
        Traps i s 0x07 word) ∧
    (s.c.kernel = true → Traps (.cpyQuiesce a) s 0x07 word)

/-! ### Floating point (R65 to R81, R111 to R117) -/

/-- R75: a value that a format holds rounds to itself in every mode, raises no flag and draws nothing: every encoding of every
format but LQ2 that is no NaN. -/
def Sys2Proof.Claims.RoundingIsExactOnCodes : Prop :=
  ∀ (fmt rm raw : Nat) (gen : Word), fmt ≤ 12 → fmt ≠ 7 → raw < 2 ^ fmtBits fmt → (decodeFmt fmt raw).isNan = false →
    round fmt rm false (decodeFmt fmt raw) gen = ⟨raw, 0, gen⟩

/-- R73 to R76: what Round() makes of a finite value in a floating-point format. The magnitude m * 2^e is cut at the spacing of the
format there, the subnormal step below the least normal, and moves by the mode; SR draws once for an inexact value. If it is
then no greater than the largest finite value the code holds it, with inexact, and underflow below the least normal, if
anything was lost. Else it has overflowed: the infinity or the largest value by mode and sat, E4M3's NaN, or E2M1's 6. A value
that is exact until it overflows draws nothing (log entry 69). -/
def Sys2Proof.Claims.RoundingFinite : Prop :=
  ∀ (fmt : Nat) (f : FloatFmt) (rm : Nat) (sat neg : Bool) (m : Nat) (e : Int) (gen : Word),
    floatFmt fmt = some f → rm ≤ 5 → 0 < m →
    let least : Int := 1 - f.bias
    let top : Int := Nat.log2 m + e
    let q := max top least - f.frac
    let unit := 2 ^ (q - e).toNat
    let t := m * 2 ^ (e - q).toNat / unit
    let rest := m % unit
    let r := t + (Away rm neg t rest unit gen).toNat
    let large := 2 ^ (f.frac + 1) - if f.special = .e4m3 then 2 else 1
    let lq : Int := (2 ^ f.exp - if f.special = .ieee then 2 else 1 : Nat) - f.bias - f.frac
    let out := round fmt rm sat (.fin neg m e false) gen
    let largest := IsNumber (decodeFmt fmt out.code) neg large lq
    out.code < 2 ^ fmtBits fmt ∧ out.gen = (if rm = 5 ∧ rest ≠ 0 then drawn gen else gen) ∧
    (¬Above r q large lq → IsNumber (decodeFmt fmt out.code) neg r q ∧
      out.flags = (if rest ≠ 0 then 1 else 0) + if rest ≠ 0 ∧ top < least then 2 else 0) ∧
    (Above r q large lq → sat = true → largest ∧ out.flags = 0x21) ∧
    (Above r q large lq → sat = false → out.flags = 0x05 ∧
      (f.special = .ieee → if rm = 1 ∨ rm = 2 ∧ neg = false ∨ rm = 3 ∧ neg = true then largest
        else decodeFmt fmt out.code = .inf neg) ∧
      (f.special = .e4m3 → out.code = 0x7F) ∧ (f.special = .e2m1 → largest))

/-- R75 and R76: Round() of a NaN and of an infinity, to every format. -/
def Sys2Proof.Claims.RoundingSpecials : Prop :=
  ∀ (fmt rm : Nat) (sat neg signal : Bool) (gen : Word), fmt ≤ 12 → fmt ≠ 7 → rm ≤ 5 →
    let canonical := [0x7FF8_0000_0000_0000, 0x7FC0_0000, 0x7E00, 0x7FC0, 0x7F, 0x7E, 0, 0, 0xFF, 0, 0, 0, 0]
    let always := fmt = 6 ∨ 9 ≤ fmt
    let large := [0x7FEF_FFFF_FFFF_FFFF, 0x7F7F_FFFF, 0x7BFF, 0x7F7F, 0x7E, 0x7B, 0x7]
    let infinity := [0x7FF0_0000_0000_0000, 0x7F80_0000, 0x7C00, 0x7F80, 0, 0x7C, 0]
    let sign := if neg then 2 ^ (fmtBits fmt - 1) else 0
    let bounds : List (Nat × Nat) := [(0x80, 0x7F), (0, 0xFF), (0x8000_0000, 0x7FFF_FFFF),
      (0x8000_0000_0000_0000, 0x7FFF_FFFF_FFFF_FFFF)]
    let bound := bounds.getD (fmt - 9) (0, 0)
    let inf := round fmt rm sat (.inf neg) gen
    let held := fmt < 4 ∨ fmt = 5
    round fmt rm sat (.nan signal) gen =
      ⟨canonical.getD fmt 0, if always ∨ signal = true then 0x10 else 0, gen⟩ ∧
    (held → sat = false → inf = ⟨sign + infinity.getD fmt 0, 0, gen⟩) ∧
    (fmt ≤ 6 → sat = true → inf = ⟨sign + large.getD fmt 0, 0x21, gen⟩) ∧
    (fmt = 4 → sat = false → inf = ⟨0x7F, 0x05, gen⟩) ∧ (fmt = 6 → sat = false → inf = ⟨sign + 7, 0x05, gen⟩) ∧
    (fmt = 8 → inf = if sat then ⟨0xFE, 0x20, gen⟩ else ⟨0xFF, 0x04, gen⟩) ∧
    (9 ≤ fmt → inf = ⟨if neg then bound.1 else bound.2, if sat then 0x20 else 0x10, gen⟩)

/-- R73 to R76: Round() of a finite value to an integer format: to a whole number by the mode, then the nearest bound of the range
if it is outside, with invalid or clamped; inexact alone if anything was lost. -/
def Sys2Proof.Claims.RoundingIntegers : Prop :=
  ∀ (fmt rm : Nat) (lo hi : Int) (sat neg : Bool) (m : Nat) (e : Int) (gen : Word),
    (fmt, lo, hi) ∈ ([(9, -128, 127), (10, 0, 255), (11, -2147483648, 2147483647),
      (12, -9223372036854775808, 9223372036854775807)] : List (Nat × Int × Int)) → rm ≤ 5 →
    let unit := 2 ^ (-e).toNat
    let t := m * 2 ^ e.toNat / unit
    let rest := m % unit
    let r := t + (Away rm neg t rest unit gen).toNat
    let v : Int := if neg then -(r : Int) else r
    let out := round fmt rm sat (.fin neg m e false) gen
    let bad : BitVec 6 := if sat then 0x20 else 0x10
    out.gen = (if rm = 5 ∧ rest ≠ 0 then drawn gen else gen) ∧ out.code < 2 ^ fmtBits fmt ∧
    ((out.code : Int) - if v < lo then lo else if hi < v then hi else v) % 2 ^ fmtBits fmt = 0 ∧
    out.flags = if v < lo ∨ hi < v then bad else if rest ≠ 0 then 1 else 0

/-- R77: Round() of a finite value to E8M0, with |x| = m * 2^e and 2^l ≤ m < 2^(l+1): the exponent l + e or the one above by the
mode, the sign ignored, and nothing drawn. -/
def Sys2Proof.Claims.RoundingScales : Prop :=
  ∀ (rm : Nat) (sat neg : Bool) (m l : Nat) (e : Int) (gen : Word), rm ≤ 5 → 2 ^ l ≤ m → m < 2 ^ (l + 1) →
    let f : Int := l + e
    let k := if rm = 1 ∨ rm = 2 then f
      else if rm = 3 then (if m = 2 ^ l then f else f + 1)
      else if 3 * 2 ^ l < 2 * m then f + 1
      else if 2 * m < 3 * 2 ^ l then f
      else if rm = 4 ∨ f % 2 = 1 then f + 1 else f
    let out := round 8 rm sat (.fin neg m e false) gen
    (127 < k → out = if sat then ⟨0xFE, 0x20, gen⟩ else ⟨0xFF, 0x04, gen⟩) ∧
    (k < -127 → out = ⟨0, 0x03, gen⟩) ∧
    (-127 ≤ k → k ≤ 127 → out = ⟨(k + 127).toNat, if m = 2 ^ l ∧ k = f then 0 else 1, gen⟩) ∧
    round 8 rm sat (.zero neg) gen = ⟨0, 0x02, gen⟩

/-- R78: the exact sum of a list of values and what it raises. A NaN makes a NaN, invalid if one signals; so do infinities of both
signs, with invalid; one infinity stays. Zeros of one sign keep it, any other zero sum is +0, or -0 under RDN. That a quiet NaN keeps
opposite infinities from raising invalid is DEDUCED (log entry 70), that R78 and not R148 rules zeros +0 under RDN a DESIGN CHOICE
(log entry 76). -/
def Sys2Proof.Claims.ExactSums : Prop :=
  ∀ (rm : Nat) (vs : List Val), vs ≠ [] →
    let sum := sumExact rm vs
    let nan := vs.any Val.isNan
    let zeros := fun (neg : Bool) => ∀ v ∈ vs, ∃ e, v = .fin neg 0 e false
    (nan = true → sum = ⟨.nan false, if vs.any Val.isSignalling then 0x10 else 0⟩) ∧
    (nan = false → .inf false ∈ vs → .inf true ∈ vs → sum = ⟨.nan false, 0x10⟩) ∧
    (∀ neg, nan = false → .inf neg ∈ vs → .inf (!neg) ∉ vs → sum = ⟨.inf neg, 0⟩) ∧
    ∀ e0, (∀ v ∈ vs, FiniteFrom e0 v) →
      let total := fun (e : Int) => (vs.map (unitsOf e)).sum
      (total e0 ≠ 0 → ∃ neg m e, sum = ⟨.fin neg m e false, 0⟩ ∧
        ∀ e1, e1 ≤ e0 → e1 ≤ e → unitsOf e1 (.fin neg m e false) = total e1) ∧
      (∀ neg, zeros neg → sum = ⟨.zero neg, 0⟩) ∧
      (total e0 = 0 → (∀ neg, ¬zeros neg) → sum = ⟨.zero (rm = 2), 0⟩)

/-- R78: the exact product, quotient, square root and a * b + c, rounded once, and the invalid cases: a signalling NaN, 0 × ∞, 0 / 0,
∞ / ∞, the root of a value below -0; a finite nonzero value over zero is an infinity with divide-by-zero. -/
def Sys2Proof.Claims.ExactProducts : Prop :=
  (∀ (a b c : Val) (rm : Nat),
    let nan : Exact := ⟨.nan false, if a.isSignalling || b.isSignalling then 0x10 else 0⟩
    let p := mulExact a b
    ((a.isNan || b.isNan) = true → p = nan ∧ divExact a b = nan) ∧
    (c.isNan = true → fmaExact rm a b c = ⟨.nan false, p.flags ||| if c.isSignalling then 0x10 else 0⟩) ∧
    (c.isNan = false → fmaExact rm a b c = if p.val.isNan then p else sumExact rm [p.val, c])) ∧
  (∀ (n n' : Bool) (m m' : Nat) (e e' : Int),
    let x := Val.fin n m e false
    let y := Val.fin n' m' e' false
    let sign := n != n'
    let invalid : Exact := ⟨.nan false, 0x10⟩
    mulExact x y = ⟨.fin sign (m * m') (e + e') false, 0⟩ ∧ mulExact (.inf n) (.inf n') = ⟨.inf sign, 0⟩ ∧
    mulExact (.inf n) y = (if m' = 0 then invalid else ⟨.inf sign, 0⟩) ∧
    mulExact x (.inf n') = (if m = 0 then invalid else ⟨.inf sign, 0⟩) ∧
    divExact (.inf n) (.inf n') = invalid ∧ divExact (.inf n) y = ⟨.inf sign, 0⟩ ∧ divExact x (.inf n') = ⟨.zero sign, 0⟩ ∧
    (m' = 0 → divExact x y = if m = 0 then invalid else ⟨.inf sign, 0x08⟩) ∧
    (m = 0 → 0 < m' → divExact x y = ⟨.zero sign, 0⟩) ∧
    (0 < m → 0 < m' → m' < 2 ^ 64 → ∃ k q, q ≤ e - e' ∧
      let num := m * 2 ^ (e - e' - q).toNat
      k * m' ≤ num ∧ num < (k + 1) * m' ∧ RoundsAs (divExact x y) sign k q (k * m' = num)) ∧
    sqrtExact (.inf n) = (if n then invalid else ⟨.inf false, 0⟩) ∧ (m = 0 → sqrtExact x = ⟨.zero n, 0⟩) ∧
    (0 < m → n = true → sqrtExact x = invalid) ∧
    (0 < m → n = false → ∃ k q, 2 * q ≤ e ∧
      let v := m * 2 ^ (e - 2 * q).toNat
      k * k ≤ v ∧ v < (k + 1) * (k + 1) ∧ RoundsAs (sqrtExact x) false k q (k * k = v))) ∧
  (∀ s, sqrtExact (.nan s) = ⟨.nan false, if s then 0x10 else 0⟩) ∧
  ∀ (x : Exact) (fmt rm : Nat) (gen : Word), let r := round fmt rm false x.val gen
    x.round fmt rm gen = ⟨r.code, x.flags ||| r.flags, r.gen⟩

/-- R112: the scalar operations that round, in their two types, with the mode from frm or the field; fdiv and fsqrt keep a
facet's context busy for 12 cycles in .s and 20 in .d (R101); a field above 5 traps ILLEGAL. The exact results and the rounding
are those of R75 and R78. -/
def Sys2Proof.Claims.ScalarRoundingOperations : Prop :=
  ∀ (s : State) (d a b : BitVec 5) (y : BitVec 1) (m : BitVec 3) (t : BitVec 1), s.latch.rep = none →
    let rm := if y = 1 then s.c.frm.toNat else m.toNat
    let fmt := if t = 1 then 0 else 1
    let value := fun (r : BitVec 5) => decodeFmt fmt ((s.c.getX r).toNat % 2 ^ fmtBits fmt)
    let long := if t = 1 then 20 else 12
    let gives := fun (n : Nat) (i : Instr) (x : Exact) =>
      let r := x.round fmt rm s.c.srgen
      FloatResult n i s d (toWord r.code) r.flags r.gen
    let word := s.latch.word.zeroExtend 64
    ((y = 1 ∨ m.toNat ≤ 5) →
      gives 0 (.fadd d a b y m t) (sumExact rm [value a, value b]) ∧
      gives 0 (.fsub d a b y m t) (sumExact rm [value a, (value b).neg]) ∧
      gives 0 (.fmul d a b y m t) (mulExact (value a) (value b)) ∧
      gives long (.fdiv d a b y m t) (divExact (value a) (value b)) ∧
      gives long (.fsqrt d a y m t) (sqrtExact (value a)) ∧
      gives 0 (.fmadd d a b y m t) (fmaExact rm (value a) (value b) (value d))) ∧
    (y = 0 → 5 < m.toNat →
      ∀ i ∈ ([.fadd d a b y m t, .fsub d a b y m t, .fmul d a b y m t, .fdiv d a b y m t, .fsqrt d a y m t,
        .fmadd d a b y m t] : List Instr), Traps i s 0x01 word)

/-- R113 and R114: the scalar operations that do not round. A NaN operand of fmin and fmax gives the other one, two give the
canonical NaN, which fneg and fabs also give; the comparisons are false on a NaN; flt and fle raise invalid for any NaN, the
others for a signalling one; fclass gives the bit of its operand's class and raises nothing. -/
def Sys2Proof.Claims.ScalarPlainOperations : Prop :=
  ∀ (s : State) (d a b : BitVec 5) (t : BitVec 1), s.latch.rep = none →
    let fmt := if t = 1 then 0 else 1
    let ex := if t = 1 then 11 else 8
    let fr := if t = 1 then 52 else 23
    let x := (s.c.getX a).toNat % 2 ^ fmtBits fmt
    let y := (s.c.getX b).toNat % 2 ^ fmtBits fmt
    let p := decodeFmt fmt x
    let q := decodeFmt fmt y
    let canonical := (2 ^ ex - 1) * 2 ^ fr + 2 ^ (fr - 1)
    let invalid := fun (c : Bool) => if c then (16 : BitVec 6) else 0
    let pick := fun (least : Bool) =>
      if p.isNan && q.isNan then canonical else if p.isNan then y else if q.isNan then x
      else if least then (if compareVal true p q ≤ 0 then x else y) else (if 0 ≤ compareVal true p q then x else y)
    let top := 2 ^ (ex + fr)
    let signal := p.isSignalling || q.isSignalling
    let nan := p.isNan || q.isNan
    let e := x / 2 ^ fr % 2 ^ ex
    let m := x % 2 ^ fr
    let neg := top ≤ x
    let cls := if e = 2 ^ ex - 1 then (if m = 0 then (if neg then 0 else 7) else if m < 2 ^ (fr - 1) then 8 else 9)
      else if e = 0 then (if m = 0 then (if neg then 3 else 4) else if neg then 2 else 5) else if neg then 1 else 6
    let gives := fun (i : Instr) (v : Nat) (f : BitVec 6) => FloatResult 0 i s d (toWord v) f s.c.srgen
    let truth := fun (c : Bool) => if c then 1 else 0
    gives (.fmin d a b t) (pick true) (invalid signal) ∧ gives (.fmax d a b t) (pick false) (invalid signal) ∧
    gives (.fneg d a t) (if p.isNan then canonical else if neg then x - top else x + top) (invalid p.isSignalling) ∧
    gives (.fabs d a t) (if p.isNan then canonical else x % top) (invalid p.isSignalling) ∧
    gives (.feq d a b t) (truth (!nan && compareVal false p q = 0)) (invalid signal) ∧
    gives (.flt d a b t) (truth (!nan && compareVal false p q < 0)) (invalid nan) ∧
    gives (.fle d a b t) (truth (!nan && compareVal false p q ≤ 0)) (invalid nan) ∧
    gives (.fclass d a t) (2 ^ cls) 0

/-- R115 to R117: cvt rounds the value of its source format to its destination format, saturating or not; INT32 and INT8 come
back sign-extended, the others with zeros above. A reserved format code, LQ2, or a rounding field above 5 traps ILLEGAL. -/
def Sys2Proof.Claims.Conversion : Prop :=
  ∀ (s : State) (d a : BitVec 5) (g : BitVec 4) (sat : BitVec 1) (m : BitVec 3) (f : BitVec 4) (y : BitVec 1),
    s.latch.rep = none →
    let rm := if y = 1 then s.c.frm.toNat else m.toNat
    let named := fun (c : BitVec 4) => c.toNat ≤ 12 ∧ c ≠ 7
    let i := Instr.cvt d a g sat m f y
    let r := round g.toNat rm (sat = 1) (decodeFmt f.toNat ((s.c.getX a).toNat % 2 ^ fmtBits f.toNat)) s.c.srgen
    let v : Word := if g = 11 then (BitVec.ofNat 32 r.code).signExtend 64
      else if g = 9 then (BitVec.ofNat 8 r.code).signExtend 64 else toWord r.code
    (named g → named f → (y = 1 ∨ m.toNat ≤ 5) → FloatResult 0 i s d v r.flags r.gen) ∧
    (¬named g ∨ ¬named f ∨ (y = 0 ∧ 5 < m.toNat) → Traps i s 0x01 (s.latch.word.zeroExtend 64))

/-! ### The vector unit (R137 to R155) -/

/-- R138 and R140: the integer lane operations, in lanes of 8, 16, 32 and 64 bits. -/
def Sys2Proof.Claims.VectorInteger : Prop :=
  ∀ (s : State) (d a b : BitVec 5) (k : BitVec 3) (z : BitVec 1) (w : BitVec 2), s.latch.rep = none →
    let n := 8 * 2 ^ w.toNat
    let x := elem (s.c.getV a) n
    let y := elem (s.c.getV b) n
    let sg := signedOf n
    let wrap := fun (i : Int) => (i % 2 ^ n).toNat
    let writes := fun (i : Instr) (f : Nat → Nat) => WritesV i s d n k z f
    writes (.vadd d a b k z w) (fun j => x j + y j) ∧ writes (.vsub d a b k z w) (fun j => wrap (sg (x j) - sg (y j))) ∧
    writes (.vmul d a b k z w) (fun j => x j * y j) ∧
    writes (.vmulh d a b k z w) (fun j => wrap (sg (x j) * sg (y j) / 2 ^ n)) ∧
    writes (.vand d a b k z w) (fun j => x j &&& y j) ∧ writes (.vor d a b k z w) (fun j => x j ||| y j) ∧
    writes (.vxor d a b k z w) (fun j => x j ^^^ y j) ∧
    writes (.vsll d a b k z w) (fun j => x j * 2 ^ (y j % n)) ∧ writes (.vsrl d a b k z w) (fun j => x j / 2 ^ (y j % n)) ∧
    writes (.vsra d a b k z w) (fun j => wrap (sg (x j) / 2 ^ (y j % n))) ∧
    writes (.vmin d a b k z w) (fun j => if sg (x j) ≤ sg (y j) then x j else y j) ∧
    writes (.vmax d a b k z w) (fun j => if sg (x j) ≤ sg (y j) then y j else x j) ∧
    writes (.vminu d a b k z w) (fun j => min (x j) (y j)) ∧ writes (.vmaxu d a b k z w) (fun j => max (x j) (y j)) ∧
    writes (.vabs d a k z w) (fun j => (sg (x j)).natAbs) ∧
    WritesV (.vmerge d a b k w) s d n 0 0 (fun j => if on s k j then x j else y j)

/-- R140, R141 and R149: the comparisons of lanes, which write a mask register, and the instructions on mask registers; a mask
field above 7 traps ILLEGAL (R86). That fn bit 7 clears the inactive bits of a mask destination is DEDUCED (log entry 68). -/
def Sys2Proof.Claims.MasksAndComparisons : Prop :=
  ∀ (s : State) (d a b : BitVec 5) (k : BitVec 3) (z : BitVec 1) (w : BitVec 2), s.latch.rep = none →
    let n := 8 * 2 ^ w.toNat
    let x := elem (s.c.getV a) n
    let y := elem (s.c.getV b) n
    let sg := signedOf n
    let word := s.latch.word.zeroExtend 64
    let low := fun (r : BitVec 5) => r.setWidth 3
    let writes := fun (i : Instr) (p : Nat → Bool) => WritesK i s (low d) (512 / n) k z p
    let p := s.c.getK (low a)
    let q := s.c.getK (low b)
    (d.toNat ≤ 7 →
      writes (.vcmpEq d a b k z w) (fun j => x j = y j) ∧ writes (.vcmpNe d a b k z w) (fun j => x j ≠ y j) ∧
      writes (.vcmpLt d a b k z w) (fun j => sg (x j) < sg (y j)) ∧ writes (.vcmpLtu d a b k z w) (fun j => x j < y j) ∧
      writes (.vcmpLe d a b k z w) (fun j => sg (x j) ≤ sg (y j)) ∧ writes (.vcmpLeu d a b k z w) (fun j => x j ≤ y j) ∧
      WritesWholeK (.kset d a) s (low d) (s.c.getX a)) ∧
    (d.toNat ≤ 7 → a.toNat ≤ 7 → WritesWholeK (.knot d a) s (low d) (~~~p) ∧ WritesWholeK (.kmov d a) s (low d) p) ∧
    (d.toNat ≤ 7 → a.toNat ≤ 7 → b.toNat ≤ 7 →
      WritesWholeK (.kand d a b) s (low d) (p &&& q) ∧ WritesWholeK (.kor d a b) s (low d) (p ||| q) ∧
      WritesWholeK (.kxor d a b) s (low d) (p ^^^ q)) ∧
    (a.toNat ≤ 7 →
      WritesX (.kpopc d a) s d (toWord ((List.range 64).filter fun j => p.getLsbD j).length) ∧
      ∃ v, v ≤ 64 ∧ WritesX (.kfirst d a) s d (toWord v) ∧ (∀ j, j < v → p.getLsbD j = false) ∧ (v < 64 → p.getLsbD v = true)) ∧
    (7 < d.toNat → ∀ i ∈ ([.vcmpEq d a b k z w, .vcmpNe d a b k z w, .vcmpLt d a b k z w, .vcmpLtu d a b k z w,
      .vcmpLe d a b k z w, .vcmpLeu d a b k z w, .kset d a, .kand d a b, .kor d a b, .kxor d a b, .knot d a,
      .kmov d a] : List Instr), Traps i s 0x01 word) ∧
    (7 < a.toNat → Traps (.kpopc d a) s 0x01 word ∧ Traps (.kfirst d a) s 0x01 word)

/-- R139 and R141: the floating-point lane operations, in .s, .bf, .hf and .d, with the mode of the selector: frm, RNE, RTZ, SR;
vfdiv and vfsqrt keep a facet's context busy for 16 cycles in .s, 8 in .bf and .hf, 24 in .d. That fn bit 7 clears the inactive bits
of the mask that a comparison writes is DEDUCED (log entry 68). -/
def Sys2Proof.Claims.VectorFloat : Prop :=
  ∀ (s : State) (d a b : BitVec 5) (k : BitVec 3) (z : BitVec 1) (t r : BitVec 2), s.latch.rep = none →
    let fmt := [1, 3, 2, 0].getD t.toNat 0
    let n := fmtBits fmt
    let rm := [s.c.frm.toNat, 0, 1, 5].getD r.toNat 0
    let long := [16, 8, 8, 24].getD t.toNat 0
    let code := fun (v : BitVec 5) (j : Nat) => elem (s.c.getV v) n j
    let val := fun (v : BitVec 5) (j : Nat) => decodeFmt fmt (code v j)
    let rounds := fun (c : Nat) (i : Instr) (x : Nat → Exact) => RoundsLanes c i s d fmt rm k z x
    let plain := fun (i : Instr) (x : Nat → Nat × Flags) => Completes i s fun u =>
      OnlyIssuer s u ∧ SetsV d n k z (fun j => (x j).1) s.c u.c ∧ RaisesFrom s k (512 / n) (fun j => (x j).2) u.c ∧
      u.c = { s.c with v := u.c.v, fflags := u.c.fflags, pc := follows s }
    let compares := fun (i : Instr) (x : Nat → Bool × Flags) => Completes i s fun u =>
      OnlyIssuer s u ∧ SetsK (d.setWidth 3) (512 / n) k z (fun j => (x j).1) s.c u.c ∧
      RaisesFrom s k (512 / n) (fun j => (x j).2) u.c ∧ u.c = { s.c with k := u.c.k, fflags := u.c.fflags, pc := follows s }
    rounds 0 (.vfadd d a b k z t r) (fun j => sumExact rm [val a j, val b j]) ∧
    rounds 0 (.vfsub d a b k z t r) (fun j => sumExact rm [val a j, (val b j).neg]) ∧
    rounds 0 (.vfmul d a b k z t r) (fun j => mulExact (val a j) (val b j)) ∧
    rounds 0 (.vfma d a b k z t r) (fun j => fmaExact rm (val a j) (val b j) (val d j)) ∧
    rounds long (.vfdiv d a b k z t r) (fun j => divExact (val a j) (val b j)) ∧
    rounds long (.vfsqrt d a k z t r) (fun j => sqrtExact (val a j)) ∧
    plain (.vfmin d a b k z t) (fun j => minMaxFloat true fmt (code a j) (code b j)) ∧
    plain (.vfmax d a b k z t) (fun j => minMaxFloat false fmt (code a j) (code b j)) ∧
    plain (.vfneg d a k z t) (fun j => signFloat true fmt (code a j)) ∧
    plain (.vfabs d a k z t) (fun j => signFloat false fmt (code a j)) ∧
    (d.toNat ≤ 7 →
      compares (.vfcmpEq d a b k z t) (fun j => compareFloat 0 fmt (code a j) (code b j)) ∧
      compares (.vfcmpLt d a b k z t) (fun j => compareFloat 1 fmt (code a j) (code b j)) ∧
      compares (.vfcmpLe d a b k z t) (fun j => compareFloat 2 fmt (code a j) (code b j)) ∧
      compares (.vfcmpUn d a b k z t) (fun j => compareFloat 3 fmt (code a j) (code b j))) ∧
    (7 < d.toNat → ∀ i ∈ ([.vfcmpEq d a b k z t, .vfcmpLt d a b k z t, .vfcmpLe d a b k z t, .vfcmpUn d a b k z t] :
      List Instr), Traps i s 0x01 (s.latch.word.zeroExtend 64))

/-- R113, R141 and R148: how floating-point values compare, and what the plain operations of FP64, FP32, FP16 and BF16 make of their
encodings: least and greatest of two and of a list, sign, comparison. NaNs lose against numbers, and two give the canonical NaN;
-0 is below +0 for the least and the greatest and equal to it for a comparison. -/
def Sys2Proof.Claims.FloatOrder : Prop :=
  (∀ (z : Bool) (a b : Val) (e0 : Int), FiniteFrom e0 a → FiniteFrom e0 b →
    let d := unitsOf e0 a - unitsOf e0 b
    (d < 0 → compareVal z a b = -1) ∧ (0 < d → compareVal z a b = 1) ∧
    (d = 0 → compareVal z a b = if z && (a.sign != b.sign) then (if a.sign then -1 else 1) else 0)) ∧
  (∀ (z n : Bool) (b : Val), b.isNan = false → compareVal z (.inf n) (.inf n) = 0 ∧
    (b ≠ .inf n → compareVal z (.inf n) b = (if n then -1 else 1) ∧ compareVal z b (.inf n) = if n then 1 else -1)) ∧
  ∀ fmt : Nat, fmt < 4 →
    let canonical := [0x7FF8_0000_0000_0000, 0x7FC0_0000, 0x7E00, 0x7FC0].getD fmt 0
    let top := 2 ^ (fmtBits fmt - 1)
    let val := decodeFmt fmt
    let nan := fun (x : Nat) => (val x).isNan
    let signal := fun (x : Nat) => (val x).isSignalling
    let invalid := fun (c : Bool) => if c then (0x10 : Flags) else 0
    let beats := fun (least : Bool) (x y : Nat) => let c := compareVal true (val x) (val y); if least then c ≤ 0 else 0 ≤ c
    (∀ (least : Bool) (x y : Nat), x < 2 * top → y < 2 * top →
      let c := compareVal false (val x) (val y)
      let none_ := nan x || nan y
      let quiet := invalid (signal x || signal y)
      minMaxFloat least fmt x y =
        (if nan x then (if nan y then canonical else y) else if nan y then x else if beats least x y then x else y, quiet) ∧
      signFloat true fmt x =
        (if nan x then canonical else if top ≤ x then x - top else x + top, invalid (signal x)) ∧
      signFloat false fmt x = (if nan x then canonical else x % top, invalid (signal x)) ∧
      compareFloat 0 fmt x y = (!none_ && decide (c = 0), quiet) ∧ compareFloat 1 fmt x y = (!none_ && decide (c < 0), invalid none_) ∧
      compareFloat 2 fmt x y = (!none_ && decide (c ≤ 0), invalid none_) ∧ compareFloat 3 fmt x y = (none_, quiet)) ∧
    ∀ (least : Bool) (x : Nat) (xs : List Nat), (∀ y ∈ x :: xs, y < 2 * top) →
      let r := foldMinMax least fmt x 0 (x :: xs)
      r.2 = invalid ((x :: xs).any signal) ∧ ((∀ y ∈ x :: xs, nan y = true) → r.1 = canonical) ∧
      ((∃ y ∈ x :: xs, nan y = false) →
        r.1 ∈ x :: xs ∧ nan r.1 = false ∧ ∀ y ∈ x :: xs, nan y = false → beats least r.1 y)

/-- R142 to R146: the vector loads and stores of a facet's own local memory: contiguous, strided by x[b], indexed by V[b], one
element for all. Only active lanes are accessed; a store takes a coprocessor-ring entry (R175). -/
def Sys2Proof.Claims.VectorMemory : Prop :=
  ∀ (s : State) (t : Fin 900) (f : Fin 4) (c : Fin 11) (d a b : BitVec 5) (k : BitVec 3) (z : BitVec 1) (w : BitVec 2),
    s.cur = .facet t f c → s.latch.rep = none →
    let n := 2 ^ w.toNat
    let base := s.c.getX a
    let line := fun (j : Nat) => base + toWord (n * j)
    let stride := fun (j : Nat) => base + toWord j * s.c.getX b
    let index := fun (j : Nat) => base + toWord (elem (s.c.getV b) (8 * n) j)
    let all := fun (p : Nat → Prop) => ∀ j, j < 64 / n → on s k j = true → p j
    let readable := fun (va : Nat → Word) => all fun j => LocalRead s t s.c.spc (va j) n
    let writable := fun (va : Nat → Word) => all fun j => LocalWrite s t s.c.spc (va j) n
    let loads := fun (i : Instr) (va : Nat → Word) =>
      WritesV i s d (8 * n) k z fun j => s.mem.read (lmLoc t.val (va j).toNat) n
    let stores := fun (i : Instr) (va : Nat → Word) (ops : List Word) =>
      StoresLanes i s t f k n (fun j => (va j).toNat) (elem (s.c.getV d) (8 * n)) ops
    (readable line → loads (.vld d a k z w) line) ∧ (readable stride → loads (.vlds d a b k z w) stride) ∧
    (readable index → loads (.vldx d a b k z w) index) ∧ (readable (fun _ => base) → loads (.vldb d a k z w) fun _ => base) ∧
    (RingFree s (.facet t f) →
      (writable line → stores (.vst d a k w) line [0, base, 0, 0]) ∧
      (writable stride → stores (.vsts d a b k w) stride [0, base, s.c.getX b, 0]) ∧
      (writable index → stores (.vstx d a b k w) index [0, base, 0, 0])) ∧
    (¬RingFree s (.facet t f) → ∀ i ∈ ([.vst d a k w, .vsts d a b k w, .vstx d a b k w] : List Instr),
      Completes i s fun u => OnlyIssuer s u ∧ u.c = { s.c with run := .ringBusy })

/-- R147 and R148: permuting, sliding, broadcasting, single lanes, reductions and scans over the active lanes. -/
def Sys2Proof.Claims.VectorPermuteAndReduce : Prop :=
  ∀ (s : State) (d a b : BitVec 5) (k : BitVec 3) (z : BitVec 1) (w : BitVec 2), s.latch.rep = none →
    let n := 8 * 2 ^ w.toNat
    let m := 512 / n
    let x := elem (s.c.getV a) n
    let y := elem (s.c.getV b) n
    let sg := signedOf n
    let writes := fun (i : Instr) (f : Nat → Nat) => WritesV i s d n k z f
    let act := fun (j : Nat) => j < m ∧ on s k j = true
    let lane := (s.c.getX b).toNat % m
    let to_ := fun (j : Nat) => (j : Int) + (s.c.getX b).toInt
    let extreme := fun (i : Instr) (none_ : Int) (le : Int → Int → Prop) => ∃ r : Int,
      WritesX i s d (BitVec.ofInt 64 r) ∧ (∀ j, act j → le r (sg (x j))) ∧
        ((∃ j, act j ∧ r = sg (x j)) ∨ (r = none_ ∧ ∀ j, ¬act j))
    writes (.vperm d a b k z w) (fun j => x (y j % m)) ∧
    writes (.vslide d a b k z w) (fun j => if 0 ≤ to_ j ∧ to_ j < m then x (to_ j).toNat else 0) ∧
    writes (.vbcast d a k z w) (fun _ => (s.c.getX a).toNat) ∧ writes (.vidx d k z w) (fun j => j) ∧
    WritesX (.vext d a b w) s d (BitVec.ofInt 64 (sg (x lane))) ∧
    WritesV (.vins d a b w) s d n 0 0 (fun j => if j = lane then (s.c.getX a).toNat else elem (s.c.getV d) n j) ∧
    WritesX (.vredAdd d a k w) s d (BitVec.ofInt 64 (sg ((activeElems s a k n m).sum % 2 ^ n))) ∧
    extreme (.vredMin d a k w) (2 ^ (n - 1) - 1) (fun r v => r ≤ v) ∧ extreme (.vredMax d a k w) (-2 ^ (n - 1)) (fun r v => v ≤ r) ∧
    writes (.vscanAdd d a k z w) (fun j => (activeElems s a k n (j + 1)).sum)

/-- R148: the floating-point reductions and scan: exact sums rounded once under frm; no active lane gives +0, or an infinity. -/
def Sys2Proof.Claims.VectorFloatReductions : Prop :=
  ∀ (s : State) (d a : BitVec 5) (k : BitVec 3) (z : BitVec 1) (t : BitVec 2), s.latch.rep = none →
    let fmt := [1, 3, 2, 0].getD t.toNat 0
    let n := fmtBits fmt
    let m := 512 / n
    let rm := s.c.frm.toNat
    let codes := activeElems s a k n m
    let sum := (sumExact rm (codes.map (decodeFmt fmt))).round fmt rm s.c.srgen
    let infinity := [0x7F80_0000, 0x7F80, 0x7C00, 0x7FF0_0000_0000_0000].getD t.toNat 0
    let least := foldMinMax true fmt (codes.headD 0) 0 codes
    let most := foldMinMax false fmt (codes.headD 0) 0 codes
    (codes = [] →
      FloatResult 0 (.vredFadd d a k t) s d 0 0 s.c.srgen ∧
      FloatResult 0 (.vredFmin d a k t) s d (toWord infinity) 0 s.c.srgen ∧
      FloatResult 0 (.vredFmax d a k t) s d (toWord (infinity + 2 ^ (n - 1))) 0 s.c.srgen) ∧
    (codes ≠ [] →
      FloatResult 0 (.vredFadd d a k t) s d (toWord sum.code) sum.flags sum.gen ∧
      FloatResult 0 (.vredFmin d a k t) s d (toWord least.1) least.2 s.c.srgen ∧
      FloatResult 0 (.vredFmax d a k t) s d (toWord most.1) most.2 s.c.srgen) ∧
    RoundsLanes 0 (.vscanFadd d a k z t) s d fmt rm k z fun j =>
      sumExact rm ((activeElems s a k n (j + 1)).map (decodeFmt fmt))

/-- R150 to R152: vcvt converts the lanes that both formats have, 64 at most, and zeroes the elements above them; vpack
narrows the lanes of two registers, by their low half or by saturation, and vunpack widens half a register. -/
def Sys2Proof.Claims.VectorConversion : Prop :=
  ∀ (s : State) (d a b : BitVec 5) (f g : BitVec 4) (sat : BitVec 1) (k : BitVec 3) (z : BitVec 1) (rm : BitVec 3) (w : BitVec 2)
    (h u : BitVec 1), s.latch.rep = none →
    let named := fun (c : BitVec 4) => c.toNat ≤ 12 ∧ c ≠ 7
    let sb := fmtBits f.toNat
    let db := fmtBits g.toNat
    let m := min 64 (min (512 / sb) (512 / db))
    let n := 8 * 2 ^ w.toNat
    let half := n / 2
    let narrow := fun (v : Nat) => if sat = 1 then
        (max (-2 ^ (half - 1)) (min (signedOf n v) (2 ^ (half - 1) - 1)) % 2 ^ half).toNat else v % 2 ^ half
    let word := s.latch.word.zeroExtend 64
    (named f → named g → rm.toNat ≤ 5 → ∃ gen : Nat → Word,
      let r := fun j => round g.toNat rm.toNat (sat = 1) (decodeFmt f.toNat (elem (s.c.getV a) sb j)) (gen j)
      gen 0 = s.c.srgen ∧ (∀ j, j < m → gen (j + 1) = if on s k j then (r j).gen else gen j) ∧
      Completes (.vcvt d a f sat k z g rm) s fun v =>
        OnlyIssuer s v ∧ (∀ i, i ≠ d → v.c.getV i = s.c.getV i) ∧
        (∀ j, j < 512 / db → elem (v.c.getV d) db j =
          if m ≤ j then 0 else if on s k j then (r j).code % 2 ^ db else if z = 1 then 0 else elem (s.c.getV d) db j) ∧
        RaisesFrom s k m (fun j => (r j).flags) v.c ∧
        v.c = { s.c with v := v.c.v, fflags := v.c.fflags, srgen := gen m, pc := follows s }) ∧
    (¬named f ∨ ¬named g ∨ 5 < rm.toNat → Traps (.vcvt d a f sat k z g rm) s 0x01 word) ∧
    (w ≠ 0 →
      WritesV (.vpack d a b k z sat w) s d half k z (fun j =>
        narrow (if j < 512 / n then elem (s.c.getV a) n j else elem (s.c.getV b) n (j - 512 / n))) ∧
      WritesV (.vunpack d a h k z u w) s d n k z (fun j =>
        let v := elem (s.c.getV a) half (h.toNat * (512 / n) + j)
        if u = 1 then (signedOf half v % 2 ^ n).toNat else v)) ∧
    (w = 0 → Traps (.vpack d a b k z sat w) s 0x01 word ∧ Traps (.vunpack d a h k z u w) s 0x01 word)

/-! ### The matrix engine (R187 to R232) -/

/-- R193, R194, R197 to R203, R205 and R220 to R225: what the joint instructions put into the matrix queue once all four
facets have issued them alike, with the scalar values they keep. mm.drain, mm.seq, mm.save, mm.rest, bz.fix and bz.retry let
their issuers wait. mm.save and mm.rest are the kernel's, in a handler with MSV = 0 too; mm.save does so where an issuer has MSV = 0
(where they differ, DESIGN CHOICE, log entry 72), and with MSV = 1 in all four it retires at once. -/
def Sys2Proof.Claims.JointInstructionsQueue : Prop :=
  ∀ (s : State) (t : Fin 900) (f : Fin 4) (d a b : BitVec 5) (id : BitVec 8), s.latch.rep = none →
    let x := s.c.getX a
    let y := s.c.getX b
    let n := id.toNat
    let queues := fun (i : Instr) (vals : List Word) (op : MmOp) (tensors : List Nat) (wait : Bool) =>
      EntersQueue i s t f vals op tensors wait
    (id ≠ 0 →
      queues (.mmLoadw a b id) [0, x, y] (.loadw n (bits x 31 0) (bits y 31 0) (bits y 35 32)) [n] false ∧
      queues (.mmStream a b id) [0, x, y]
        (.stream n (bits x 31 0) (bits x 63 32) (bits y 8 0) (bits y 25 16) (bit y 63)) [n] false ∧
      (bits x 30 28 < 6 → queues (.mmDrain a b id) [0, x, y]
        (.drain n (bits x 8 0) (bits x 25 16) (bits x 30 28) (bit x 31) (bits y 31 0) (bits y 63 32)) [n] true)) ∧
    queues .mmSwap [0, 0, 0] .swap [] false ∧
    queues (.mmZero a) [0, x, 0] (.zero (bits x 8 0) (bits x 25 16)) [] false ∧
    (x.toNat % 32 = 0 → x.toNat < 0x3C_0000 → queues (.mmSeq a) [0, x, 0] (.seq x.toNat) [] true) ∧
    queues (.bzFix d a) [0, x, 0] (.fix d x) [] true ∧ queues (.bzRetry d) [0, 0, 0] (.retry d) [] true ∧
    (s.c.kernel = true ∨ bit x 2 = false → queues (.bzClear a) [0, x, 0] (.clear x) [] false) ∧
    (s.c.kernel = true ∨ bit (s.mm t.val).bz.site 1 = true → queues (.bzInject a b) [0, x, y] (.inject x y) [] false) ∧
    (s.c.kernel = true → queues .mmRest [0, 0, 0] .rest [] true) ∧
    (s.c.kernel = true → (∃ g : Fin 4, (s.ctx (.facet t g 0)).msv = false) → queues .mmSave [0, 0, 0] .save [] true) ∧
    (s.c.kernel = true → (∀ g : Fin 4, (s.ctx (.facet t g 0)).msv = true) →
      TakesEffect .mmSave s t f [0, 0, 0] (.queued .save true) (s.tile t.val).tensor)

/-- R194 and R209: mm.sync only joins the four facets; tt.load puts a well-formed record of local memory into the tensor table,
tt.slice cuts an unsliced one to this rank's part, tt.inval clears an entry. -/
def Sys2Proof.Claims.JointInstructionsAtRelease : Prop :=
  ∀ (s : State) (t : Fin 900) (f : Fin 4) (a : BitVec 5) (id : BitVec 8), s.latch.rep = none →
    let x := s.c.getX a
    let old := (s.tile t.val).tensor
    let c := s.ctx (.facet t 0 0)
    let r := BitVec.ofNat 512 (s.mem.read (lmLoc t.val x.toNat) 64)
    let put := fun (v : Vec) (n : Nat) => if n = id.toNat then v else old n
    TakesEffect .mmSync s t f [0, 0, 0] .sync old ∧
    (id ≠ 0 → x.toNat % 64 = 0 → x.toNat < 0x3C_0000 → s.softErrors = [] → recOk r = true →
      TakesEffect (.ttLoad a id) s t f [0, x, 0] (.ttLoad id.toNat x.toNat) (put r)) ∧
    (id ≠ 0 → recValid (old id.toNat) = true → recSliced (old id.toNat) = false →
      TakesEffect (.ttSlice id) s t f [0, 0, 0] (.ttSlice id.toNat)
        (put (sliceRec c.gangw.toNat c.gangh.toNat c.rank.toNat (old id.toNat)))) ∧
    (id ≠ 0 → TakesEffect (.ttInval id) s t f [0, 0, 0] (.ttInval id.toNat) (put 0))

/-- R193: where facet 3 brings another word, all four facets trap CLASPMIS with bit 3 of einfo set and nothing is performed;
a facet that is not the last to come parks at the clasp. -/
def Sys2Proof.Claims.ClaspMismatch : Prop :=
  ∀ (s : State) (t : Fin 900), s.cur = .facet t 3 0 → s.latch.rep = none → s.c.kt = false → RingFree s (.facet t 3) →
    let e := fun (g : Nat) => (s.mm t.val).clasp.toList.getD g none
    (∀ x y z, e 0 = some x → e 1 = some y → e 2 = some z → y.agrees x = true → z.agrees x = true →
      x.word ≠ s.latch.word → (∀ g : Fin 4, (s.ctx (.facet t g 0)).frozen = false ∧ (s.ctx (.facet t g 0)).kt = false) →
      Completes .mmSync s fun u =>
        (∀ g : Fin 4, Entered (s.ctx (.facet t g 0)) (u.ctx (.facet t g 0)) 0 0x0E 8 ∧ (u.ctx (.facet t g 0)).run = .ready) ∧
        (u.mm t.val).queue = (s.mm t.val).queue ∧ u.tiles = s.tiles ∧ ∀ g, g < 4 → (u.mm t.val).clasp.toList.getD g none = none) ∧
    (e 0 = none → Completes .mmSync s fun u => OtherCtxs s u s.cur ∧ u.c = { s.c with run := .parked .clasp } ∧
      (u.mm t.val).queue = (s.mm t.val).queue ∧ u.tiles = s.tiles ∧ u.mem = s.mem)

/-- R202, R209, R221 and R225: mm.rdrow reads an accumulator row or traps MMBOUND with role 4 (DEDUCED, log 48); mm.wait
waits for the queue, tt.rd gives a doubleword of a valid record, bz.locate the failing row and column, bz.stat a counter. -/
def Sys2Proof.Claims.SingleMatrixInstructions : Prop :=
  ∀ (s : State) (t : Fin 900) (f : Fin 4) (d a n : BitVec 5) (id : BitVec 8), s.cur = .facet t f 0 → s.latch.rep = none →
    let x := s.c.getX a
    let m := s.mm t.val
    let r := (s.tile t.val).tensor id.toNat
    let z := m.bz
    let one := bit z.row 63 = true ∧ bit z.row 62 = false ∧ bits z.row 61 52 = 1 ∧ bits z.col 37 32 = 1
    (d.toNat < 31 → x.toNat < 512 → m.queue = [] → Completes (.mmRdrow d a) s fun u =>
      OnlyIssuer s u ∧ (∀ i, i ≠ d → i ≠ d + 1 → u.c.getV i = s.c.getV i) ∧
      (∀ j : Fin 16, elem (u.c.getV d) 32 j.val = ((m.row x.toNat).cols[j.val]).toNat ∧
        elem (u.c.getV (d + 1)) 32 j.val = ((m.row x.toNat).cols[16 + j.val]).toNat) ∧
      u.c = { s.c with v := u.c.v, pc := follows s }) ∧
    (d.toNat < 31 → 512 ≤ x.toNat → Traps (.mmRdrow d a) s 0x10 (toWord (4 * 2 ^ 56 + x.toNat % 2 ^ 32))) ∧
    (d.toNat = 31 → Traps (.mmRdrow d a) s 0x01 (s.latch.word.zeroExtend 64)) ∧
    (m.queue = [] → GoesTo .mmWait s (follows s)) ∧
    (∀ q e, m.queue = q ++ [e] → e.op ≠ .qfence → Parks .mmWait s (.matrixWait e.id)) ∧
    (id ≠ 0 → n.toNat ≤ 7 → WritesX (.ttRd d n id) s d
      (if r.toNat / 2 ^ 24 % 2 = 1 then toWord (r.toNat / 2 ^ (64 * n.toNat)) else 0)) ∧
    (∀ c, c < 32 → one → bits z.col 31 0 = 2 ^ c →
      WritesX (.bzLocate d) s d (toWord (c * 2 ^ 48 + bits z.row 8 0 * 2 ^ 32 + bits z.delta 31 0))) ∧
    (¬one → WritesX (.bzLocate d) s d 0xFFFF_FFFF_FFFF_FFFF) ∧
    (x.toNat % 8 = 4 → WritesX (.bzStat d a) s d (toWord (s.tile t.val).events)) ∧
    (x.toNat % 8 = 5 → WritesX (.bzStat d a) s d (toWord z.fixes)) ∧
    (x.toNat % 8 = 6 → WritesX (.bzStat d a) s d (toWord z.retries)) ∧
    (x.toNat % 8 = 7 → WritesX (.bzStat d a) s d (toWord z.injects)) ∧
    (∀ q : Fin 4, x.toNat % 8 = q.val → WritesX (.bzStat d a) s d
      (toWord (((s.tile t.val).sliceEvents[q]).filter fun c => s.now < c + windowCycles (s.tile t.val).bzwin).length))

/-- R160 and R91: a joint, bezel or tensor-table instruction of a bead traps PROT; tensor id 0 and a rounding field of
mm.drain above 5 ILLEGAL; mm.save, mm.rest and bz.clear of bit 2 PRIV at user privilege. -/
def Sys2Proof.Claims.MatrixTraps : Prop :=
  ∀ (s : State) (t : Fin 900) (f : Fin 4) (k : Fin 11) (d a b : BitVec 5) (id : BitVec 8), s.cur = .facet t f k → s.latch.rep = none →
    let word := s.latch.word.zeroExtend 64
    (k ≠ 0 → ∀ i ∈ ([.mmLoadw a b id, .mmSwap, .mmStream a b id, .mmDrain a b id, .mmZero a, .mmRdrow d a, .mmWait, .mmSave,
      .mmRest, .mmSync, .mmSeq a, .bzLocate d, .bzFix d a, .bzRetry d, .bzClear a, .bzInject a b, .bzStat d a, .ttLoad a id,
      .ttSlice id, .ttRd d b id, .ttInval id] : List Instr), Traps i s 0x07 word) ∧
    (k = 0 → ∀ i ∈ ([.mmLoadw a b 0, .mmStream a b 0, .mmDrain a b 0, .ttLoad a 0, .ttSlice 0, .ttRd d b 0, .ttInval 0] :
      List Instr), Traps i s 0x01 word) ∧
    (k = 0 → 6 ≤ bits (s.c.getX a) 30 28 → Traps (.mmDrain a b id) s 0x01 word) ∧
    (k = 0 → s.c.kernel = false → Traps .mmSave s 0x04 word ∧ Traps .mmRest s 0x04 word ∧
      (bit (s.c.getX a) 2 = true → Traps (.bzClear a) s 0x04 word))

/-- R195, R197, R198, R209, R224 and R225: at the queue's head mm.swap exchanges the planes, mm.zero clears rows,
references and mmwm.V and starts a batch, bz.inject adds to an accumulator (no flag: DESIGN CHOICE, log entry 74),
bz.clear empties the record; an mm.loadw is a late TTBAD (einfo: DEDUCED, log 48) of each issuer where its record is not
valid, a late MMBOUND where its weights have an axis of length 0 (here without mm.save and the pre-emption handler), and
discards the entries behind it. -/
def Sys2Proof.Claims.MatrixEntries : Prop :=
  ∀ (s : State) (t : Fin 900) (e : MmEntry) (rest : List MmEntry),
    let m := s.mm t.val
    m.queue = e :: rest → (∀ y ∈ rest, y.id ≠ e.id) → e.stopping = false → e.flags = 0 → s.freeze = false →
    let runs := fun (p : Mm → Prop) => Completes (.matrixEntryStart t) s fun u =>
      u = { s with ctxs := u.ctxs, mms := u.mms, nis := u.nis, tiles := u.tiles } ∧ OtherMms s u t.val ∧ (∀ a, u.ctx a = s.ctx a) ∧
      (u.mm t.val).queue = rest ∧ p (u.mm t.val)
    (e.op = .swap → runs fun n => n = { m with queue := rest, active := m.shadow, shadow := m.active }) ∧
    (∀ r0 k, e.op = .zero r0 k → 0 < k → r0 + k ≤ 512 → runs fun n =>
      (∀ i, n.row i = if r0 ≤ i ∧ i < r0 + k then AccRow.initial else m.row i) ∧ n.bz.batch = some (r0, k) ∧
      n.bz.colCheck = true ∧ n.bz.retry.base = .zero ∧ n.bz.retry.items = [] ∧
      n = { m with queue := rest, rows := n.rows, wm := n.wm, bz := n.bz } ∧ n.wm = m.wm &&& ~~~0x8000_0000_0000_0000) ∧
    (∀ x v, e.op = .inject x v → bits x 31 30 = 1 → runs fun n =>
      (∀ i, (n.row i).ref = if i = bits x 8 0 then (addFp32 (m.row i).ref (v.setWidth 32)).1 else (m.row i).ref) ∧
      ∀ i, (n.row i).cols = (m.row i).cols) ∧
    (∀ x, e.op = .clear x → bit x 0 = true → bit x 1 = false → bit x 2 = false → runs fun n =>
      n = { m with
        queue := rest
        bz := { m.bz with row := 0, col := 0, delta := 0, boundTol := 0, boundRow := 0, boundCol := 0 } }) ∧
    (∀ id kb nb af, e.op = .loadw id kb nb af → (∀ y ∈ m.queue, y.op ≠ .save ∧ y.op ≠ .rest ∧ y.op ≠ .qfence) →
      (∀ g : Fin 4, m.clasp[g] = none ∧ ((s.ctx (.facet t g 0)).pe = true → e.kts.getLsbD g.val = true)) →
      let w := e.recs.getD 0 0
      let late := fun (code : Byte) (p : Word → Prop) => Completes (.matrixEntryStart t) s fun u => (u.mm t.val).queue = [] ∧
        ∃ info, p info ∧ ∀ g : Fin 4, (u.ctx (.facet t g 0)).late =
          (s.ctx (.facet t g 0)).late ++ [⟨code, info, some e.seqs[g], some e.id, true⟩]
      (recValid w = false → late 0x12 fun info => info = toWord (2 ^ 56 + id % 2 ^ 32)) ∧
      (recValid w = true → recFmt w ∈ [1, 2, 3, 4, 5, 6, 7, 9] → af ∈ [1, 2, 3, 4, 5, 6, 9] → (∃ i : Fin 4, recD w i.val = 0) →
        late 0x10 fun info => bits info 63 56 = 1))

/-- R197, R199, R200, R214 and R218: the head loads a plane, streams rows and drains. A drain whose rows agree with their
references retires its issuers and is then written; another takes BEZEL in each, here with bzsite.uen = 0 and queue 0
closed, and writes no byte outside the tile's kernel reserve, where the entries save their banks. Absent weights have
absent checksum entries (log entry 81), a NaN in rel fails a row with m = +0 (log entry 85; DESIGN CHOICE both). -/
def Sys2Proof.Claims.MatrixArithmetic : Prop :=
  ∀ (s : State) (t : Fin 900) (e : MmEntry) (rest : List MmEntry),
    let m := s.mm t.val
    let r := e.recs.getD 0 0
    m.queue = e :: rest → (∀ y ∈ rest, y.id ≠ e.id) → e.stopping = false → s.freeze = false → s.softErrors = [] →
    let run := fun (p : State → Mm → Prop) => Completes (.matrixEntryStart t) s fun u => p u (u.mm t.val)
    (∀ id kb nb af, e.op = .loadw id kb nb af → e.flags = 0 → Loadable s t r kb nb af → run fun u n =>
      EntryLeaves s u t rest ∧ u.mem = s.mem ∧ (∀ a, u.ctx a = s.ctx a) ∧ Loaded s t r id kb nb af n.shadow ∧
        n = { m with queue := rest, shadow := n.shadow }) ∧
    (∀ id row0 kb ar k ov, e.op = .stream id row0 kb ar k ov → m.active.sound = true → m.active.afmt = recFmt r →
      Streamable s t r ⟨id, row0, kb, ar, k, ov⟩ m.active.wfmt m.geom → run fun u n =>
        EntryLeaves s u t rest ∧ u.mem = s.mem ∧ Collects s u t ∧ Streamed s t r ⟨id, row0, kb, ar, k, ov⟩ m.active m n ∧
          n = { m with queue := rest, rows := n.rows, wm := n.wm, geom := n.geom, bz := n.bz }) ∧
    (∀ id ar k rm sat row0 col0, e.op = .drain id ar k rm sat row0 col0 → m.active.valid = true →
      let x : DrainOp := ⟨id, ar, k, rm, sat, row0, col0⟩
      Drainable r x m.geom →
      (e.pos = 0 → Agrees m x → run fun u n =>
        u = { s with ctxs := u.ctxs, mms := u.mms } ∧ n = { m with queue := { e with pos := 1 } :: rest, wm := n.wm, bz := n.bz } ∧
        bits n.wm 56 48 = ar ∧ bits n.wm 41 32 = 0 ∧
        (bit n.wm 63 = true ↔ bit m.wm 63 = true ∨ ar ≤ bits m.wm 24 16 ∧ bits m.wm 24 16 + bits m.wm 9 0 ≤ ar + k) ∧
        ∀ g : Fin 4, let c := s.ctx (.facet t g 0)
          c.run = .parked (.matrix e.id) → u.ctx (.facet t g 0) = { c with pc := c.pc + 4, run := .ready }) ∧
      (e.pos = 0 → ¬Agrees m x → bit m.bz.site 0 = false → run fun _ n => n.queue = rest ∧ n.rows = m.rows ∧ bit n.bz.row 63 = true) ∧
      (e.pos = 0 → ¬Agrees m x → bit m.bz.site 0 = false → (s.queue 0).open_ = false → run fun u _ =>
        ∀ l, l < lmLoc t.val 0x3C_0000 ∨ lmLoc t.val 0x40_0000 ≤ l → u.mem.byte l = s.mem.byte l) ∧
      (e.pos = 0 → ¬Agrees m x → bit m.bz.site 0 = false → ∀ g : Fin 4, let c := s.ctx (.facet t g 0)
        c.run = .parked (.matrix e.id) → c.kt = false → (s.queue 0).waiters = [] → run fun u _ =>
          ∃ info, Entered c (u.ctx (.facet t g 0)) 0 0x0F info ∧ (u.ctx (.facet t g 0)).run = .ready) ∧
      (e.pos ≠ 0 → rm ≤ 4 → run fun u n =>
        EntryLeaves s u t rest ∧ Collects s u t ∧ Drained s u t r x m ∧ bits n.wm 41 32 = k ∧
          n = { m with queue := rest, wm := n.wm }))

/-- R205 and R206: an mm.seq reads its descriptor when it starts, and a bad one is MMBOUND of role 5; each time it then
runs one mm.loadw, mm.swap and mm.stream, or after an n-block's last k-block mm.drain; after the last its issuers retire
and seqpos is 0. Its sums are modulo 2^32 (DESIGN CHOICE, log entry 79). -/
def Sys2Proof.Claims.SequencerSteps : Prop :=
  ∀ (s : State) (t : Fin 900) (e : MmEntry) (rest : List MmEntry) (desc : Nat) (d ra rw rc : Vec),
    let m := s.mm t.val
    m.queue = e :: rest → (∀ y ∈ rest, y.id ≠ e.id) → e.stopping = false → s.freeze = false → s.softErrors = [] →
    e.op = .seq desc →
    let f := recBytes d
    let kn := f 14 2
    let total := f 12 2 * (kn + 1)
    let rm := f 3 1 / 2 % 8
    let bad := f 0 1 = 0 ∨ f 1 1 = 0 ∨ f 2 1 = 0 ∨ f 12 2 = 0 ∨ kn = 0 ∨ f 8 2 = 0 ∨ 512 < f 10 2 + f 8 2 ∨ 6 ≤ rm
    let step := bits m.seqpos 31 0
    let i := step / (kn + 1)
    let k := step % (kn + 1)
    let at_ := fun (n : Nat) => toWord (2 ^ 63 + n)
    let run := fun (p : State → Mm → Prop) => Completes (.matrixEntryStart t) s fun u => p u (u.mm t.val)
    let rec_ := fun (off : Nat) => (s.tile t.val).tensor (f off 1)
    (e.pos = 0 → d = BitVec.ofNat 512 (s.mem.read (lmLoc t.val desc) 32) → ¬bad → run fun u n =>
      u = { s with mms := u.mms } ∧ OtherMms s u t.val ∧
        n = { m with
          queue := { e with pos := 1, held := [d, rec_ 0, rec_ 1, rec_ 2] } :: rest
          seqpos := if bit m.seqpos 63 then m.seqpos else at_ 0 }) ∧
    (e.pos = 0 → d = BitVec.ofNat 512 (s.mem.read (lmLoc t.val desc) 32) → bad → ∀ g : Fin 4,
      let c := s.ctx (.facet t g 0)
      c.run = .parked (.matrix e.id) → c.kt = false → run fun u n => n.queue = rest ∧
        ∃ info : Word, bits info 63 56 = 5 ∧ Entered c (u.ctx (.facet t g 0)) 0 0x10 info) ∧
    (e.pos ≠ 0 → e.held = [d, ra, rw, rc] → step < total →
      let kb := (f 20 4 + k) % 2 ^ 32
      let nb := (f 16 4 + i) % 2 ^ 32
      let x : StreamOp := ⟨f 0 1, f 4 4, kb, f 10 2, f 8 2, decide (k = 0) && decide (f 3 1 % 2 = 0)⟩
      let y : DrainOp := ⟨f 2 1, f 10 2, f 8 2, rm, decide (f 3 1 / 16 % 2 = 1), f 24 4, (f 28 4 + i * m.geom) % 2 ^ 32⟩
      (k < kn → Loadable s t rw kb nb (recFmt ra) → Streamable s t ra x (recFmt rw) m.geom → run fun u n =>
        u = { s with mms := u.mms } ∧ OtherMms s u t.val ∧ Loaded s t rw (f 1 1) kb nb (recFmt ra) n.active ∧
          n.shadow = m.active ∧ Streamed s t ra x n.active m n ∧ n.seqpos = at_ (step + 1) ∧
          ∃ flags, n.queue = { e with flags := e.flags ||| flags } :: rest) ∧
      (k = kn → m.active.valid = true → Drainable rc y m.geom → Agrees m y → rm ≤ 4 → run fun u n =>
        Drained s u t rc y m ∧ n.rows = m.rows ∧
        (step + 1 < total → n.seqpos = at_ (step + 1) ∧ (∀ a, u.ctx a = s.ctx a) ∧
          ∃ flags, n.queue = { e with flags := e.flags ||| flags } :: rest) ∧
        (step + 1 = total → n.seqpos = 0 ∧ n.queue = rest ∧ Retires s u t e.id id)))

/-- R222 and R223: bz.fix adds the row delta to the located element, clears F and gives 0; or changes nothing and gives 1
with nothing located or a retry under way, 2 for deltas too far apart (or a NaN bound: log entry 85), 3 for another word;
it raises no flag (log entry 74; DESIGN CHOICE both). bz.retry, which loads every plane again (log entry 20), gives 1
without a record; else it runs a step of it each time, and then gives 0, the shadow plane invalid and one more retry
counted. -/
def Sys2Proof.Claims.FixAndRetry : Prop :=
  ∀ (s : State) (t : Fin 900) (e : MmEntry) (rest : List MmEntry) (d : BitVec 5),
    let m := s.mm t.val
    let z := m.bz
    m.queue = e :: rest → (∀ y ∈ rest, y.id ≠ e.id) → e.stopping = false → s.freeze = false → s.softErrors = [] →
    let run := fun (p : State → Mm → Prop) => Completes (.matrixEntryStart t) s fun u => p u (u.mm t.val)
    let gives := fun (v : Word) (p : Mm → Prop) => run fun u n =>
      EntryLeaves s u t rest ∧ u.mem = s.mem ∧ u.tiles = s.tiles ∧ Retires s u t e.id (Ctx.setX · d v) ∧ p n
    let same := fun (n : Mm) => n = { m with queue := rest }
    let row := bits z.row 8 0
    let one := fun (c : Nat) => c < 32 ∧ bit z.row 63 = true ∧ bit z.row 62 = false ∧ bits z.row 61 52 = 1 ∧ bits z.col 37 32 = 1 ∧
      bits z.col 31 0 = 2 ^ c
    let located := fun (c : Nat) => toWord (c * 2 ^ 48 + row * 2 ^ 32 + bits z.delta 31 0)
    let rd := decodeFmt 1 (bits z.delta 31 0)
    let cd := decodeFmt 1 (bits z.delta 63 32)
    let near := rd.isFinite = true ∧ cd.isFinite = true ∧ z.bounds.isNan = false ∧ compareVal false (distance rd cd) z.bounds ≤ 0
    let record := z.retry
    let next := record.steps[record.progress]?
    (∀ l, e.op = .fix d l →
      (record.going = true ∨ bit z.row 63 = false ∨ bit z.row 62 = true ∨ bits z.row 61 52 ≠ 1 ∨ bits z.col 37 32 ≠ 1 →
        gives 1 same) ∧
      (∀ c, one c → record.going = false → l ≠ located c → gives 3 same) ∧
      (∀ c, one c → record.going = false → l = located c → ¬near → gives 2 same) ∧
      (∀ c : Fin 32, one c.val → record.going = false → l = located c.val → near → gives 0 fun n =>
        (∀ i (j : Fin 32), (n.row i).cols[j] = if i = row ∧ j = c then
          (addFp32 (m.row i).cols[j] (z.delta.setWidth 32)).1 else (m.row i).cols[j]) ∧
        (∀ i, (n.row i).ref = (m.row i).ref) ∧
        n = { m with
          queue := rest, rows := n.rows, bz := { z with row := z.row &&& ~~~0x8000_0000_0000_0000, fixes := z.fixes + 1 } })) ∧
    (e.op = .retry d →
      let playable := record.base ≠ .empty ∧ record.broken = false ∧ record.overflowed = false
      (¬playable → gives 1 same) ∧
      (playable → next = none → gives 0 fun n => n = { m with
        queue := rest, shadow := { m.shadow with valid := false }
        bz := { z with retries := z.retries + 1, retry := { record with progress := 0, going := false } } }) ∧
      (∀ r0 k c ov, playable → z.batch = some (r0, k) → 0 < k → r0 + k ≤ 512 → next = some (none, c, ov) → run fun u n =>
        u = { s with mms := u.mms } ∧ (∀ i, n.row i = if r0 ≤ i ∧ i < r0 + k then AccRow.initial else m.row i) ∧
          n.bz.retry = { record with progress := record.progress + 1, going := true } ∧ n.queue = { e with pos := 1 } :: rest) ∧
      (∀ r0 k x c ov, playable → z.batch = some (r0, k) → next = some (some x, c, ov) →
        let w := (s.tile t.val).tensor x.wt
        let a := (s.tile t.val).tensor x.at_
        let kb := (x.kb + c) % 2 ^ 32
        let y : StreamOp := ⟨x.at_, x.row0, (x.akb + c) % 2 ^ 32, r0, k, ov⟩
        x.af = recFmt a → Loadable s t w kb x.nb x.af → Streamable s t a y (recFmt w) m.geom → run fun u n =>
          u = { s with mms := u.mms } ∧ Loaded s t w x.wt kb x.nb x.af n.active ∧ n.shadow = m.active ∧
            (∀ i, i < k → ∀ j : Fin 32, j.val < n.active.n → (n.row (r0 + i)).cols[j] =
              inOrder n.active (if ov then 0 else (m.row (r0 + i)).cols[j])
                (fun b => if y.kb * n.active.k + b < recD a 0 then some (elemIn s t a (y.kb * n.active.k + b) (x.row0 + i)) else none)
                (fun b => n.active.weight b j.val) fun g => n.active.scaleAt g j.val) ∧
            n.bz.retry = { record with progress := record.progress + 1, going := true } ∧
            ∃ flags, n.queue = { e with pos := 1, flags := e.flags ||| flags } :: rest))

/-! ### The copy engine (R55 to R58, R233 to R249, R261) -/

/-- R234 to R236 and R175: cpy.push and cpy.try enter the request of four registers at the tail of its queue (bit 48 of its
first word) and take a ring entry, on a crest core too (DEDUCED, log entry 25); on a full queue cpy.push parks and cpy.try gives 1; a
register above x28 traps ILLEGAL. Here the request is no qfence. -/
def Sys2Proof.Claims.CopyPush : Prop :=
  ∀ (s : State) (d a : BitVec 5) (q : Fin 2), s.latch.rep = none →
    let o := ownerOf s.cur
    let words := [s.c.xn a.toNat, s.c.xn (a.toNat + 1), s.c.xn (a.toNat + 2), s.c.xn (a.toNat + 3)]
    let w := s.c.xn a.toNat
    let old := (s.ni o).cq[q]
    let entered := fun (u : State) => ∃ r : CopyReq,
      r.words = words ∧ r.agent = s.cur ∧ r.id = s.nextId ∧ r.spc = s.c.spc ∧ r.priv = s.c.kernel ∧ r.ring = (s.ni o).seq ∧
      r.phase = .queued ∧ u = { s with ctxs := u.ctxs, nis := u.nis, nextId := s.nextId + 1 } ∧ OtherCtxs s u s.cur ∧
      OtherNis s u o ∧ TakesRing s o words true { u.ni o with cq := (s.ni o).cq } ∧
      ∀ p : Fin 2, (u.ni o).cq[p] = if p = q then old ++ [r] else (s.ni o).cq[p]
    (a.toNat ≤ 28 → bits w 48 48 = q.val → bits w 7 0 ≠ 6 → RingFree s o → old.length < 8 →
      (Completes (.cpyPush a) s fun u => entered u ∧ u.c = { s.c with pc := follows s }) ∧
      (Completes (.cpyTry d a) s fun u => entered u ∧ SetsX d 0 s.c u.c ∧ u.c = { s.c with x := u.c.x, pc := follows s })) ∧
    (a.toNat ≤ 28 → bits w 48 48 = q.val → bits w 7 0 ≠ 6 → 8 ≤ old.length →
      Parks (.cpyPush a) s (.copyFull q.val) ∧ WritesX (.cpyTry d a) s d 1) ∧
    (28 < a.toNat → Traps (.cpyPush a) s 0x01 (s.latch.word.zeroExtend 64) ∧
      Traps (.cpyTry d a) s 0x01 (s.latch.word.zeroExtend 64))

/-- R240, R243 and R245: a flat copy and a flat fill inside one block of a tile's own local memory. Every byte of the
destination holds the source's byte, or byte (A mod 8) of the pattern at address A, and no other byte is different. -/
def Sys2Proof.Claims.FlatCopyAndFill : Prop :=
  ∀ (s : State) (t : Fin 900) (f : Fin 4) (k : Fin 11) (q : Fin 2) (r : CopyReq),
    let o := Owner.facet t f
    let n := bits (r.w 3) 31 0
    let a := (r.w 1).toNat
    let b := (r.w 2).toNat
    let done := fun (u : State) (dst : Nat) =>
      u = { s with mem := u.mem, nis := u.nis, tiles := u.tiles } ∧ CopyDone s u t f q r n 0 ∧ OtherTiles s u t.val ∧
      u.tile t.val = { s.tile t.val with stamps := (u.tile t.val).stamps } ∧ OtherBytes s u (lmLoc t.val dst) n
    (CopyHead s t f k q r 1 → bits (r.w 0) 23 8 = 0 → InBlock r a n → InBlock r b n →
      Completes (.copy o q) s fun u => done u b ∧
        u.mem.read (lmLoc t.val b) n = s.mem.read (lmLoc t.val a) n) ∧
    (CopyHead s t f k q r 4 → bits (r.w 0) 23 16 = 0 → InBlock r a n →
      Completes (.fill o q) s fun u => done u a ∧
        ∀ i, i < n → u.mem.byte (lmLoc t.val (a + i)) = (r.w 2).extractLsb' (8 * ((a + i) % 8)) 8)

/-- R243 and R256: an mcast of n bytes to a rectangle of one tile writes them at its offset there, if a window of that tile
grants the write. -/
def Sys2Proof.Claims.MulticastCopy : Prop :=
  ∀ (s : State) (t v : Fin 900) (f : Fin 4) (k : Fin 11) (q : Fin 2) (r : CopyReq),
    let n := bits (r.w 3) 31 0
    let a := (r.w 1).toNat
    let off := (r.w 2).toNat
    CopyHead s t f k q r 5 → InBlock r a n → InBlock r off n → bits (r.w 3) 41 32 = v.val → bits (r.w 3) 52 48 = 0 →
    bits (r.w 3) 60 56 = 0 → TakesAccesses s v → (∃ j : Fin 4, WindowGrants (s.tile v.val).win[j] off n false true) →
    Completes (.mcast (.facet t f) q) s fun u =>
      u = { s with mem := u.mem, nis := u.nis, tiles := u.tiles } ∧ CopyDone s u t f q r 1 0 ∧ OtherTiles s u v.val ∧
      u.tile v.val = { s.tile v.val with stamps := (u.tile v.val).stamps } ∧ OtherBytes s u (lmLoc v.val off) n ∧
      u.mem.read (lmLoc v.val off) n = s.mem.read (lmLoc t.val a) n

/-- R241 and R242 on tensors of 32-bit integers: a gather of one row of one element copies the row that its index names, a
scatter copies to that row, an index of -1 copies nothing; a reduce.add of one element adds modulo 2^32. -/
def Sys2Proof.Claims.GatherScatterReduce : Prop :=
  ∀ (s : State) (t : Fin 900) (f : Fin 4) (k : Fin 11) (q : Fin 2) (r : CopyReq) (p first : Nat),
    let o := Owner.facet t f
    let src := (s.tile t.val).tensor (bits (r.w 0) 15 8)
    let dst := (s.tile t.val).tensor (bits (r.w 0) 23 16)
    let idx := (s.tile t.val).tensor (bits (r.w 1) 7 0)
    let at_ := fun (v : Vec) (i j : Nat) => s.mem.read (lmLoc t.val (intOffset v i j)) 4
    let i := at_ idx p 0
    let done := fun (u : State) (count loc v : Nat) =>
      u = { s with mem := u.mem, nis := u.nis, tiles := u.tiles } ∧ CopyDone s u t f q r count 0 ∧ OtherTiles s u t.val ∧
      u.tile t.val = { s.tile t.val with stamps := (u.tile t.val).stamps } ∧ OtherBytes s u loc 4 ∧ u.mem.read loc 4 = v
    let one := recD src 0 = 1 ∧ recD dst 0 = 1 ∧ recRank idx = 1 ∧ bits (r.w 3) 31 0 = 1 ∧ bits (r.w 1) 63 32 = p ∧
      bits (r.w 2) 31 0 = first ∧ IntTensor idx p 0
    (CopyHead s t f k q r 2 → one → i < 2 ^ 31 → IntTensor src 0 i → IntTensor dst 0 first →
      Completes (.gather o q) s fun u => done u 1 (lmLoc t.val (intOffset dst 0 first)) (at_ src 0 i)) ∧
    (CopyHead s t f k q r 3 → one → i < 2 ^ 31 → IntTensor src 0 first → IntTensor dst 0 i →
      Completes (.scatter o q) s fun u => done u 1 (lmLoc t.val (intOffset dst 0 i)) (at_ src 0 first)) ∧
    (CopyHead s t f k q r 2 → one → IntTensor src 0 0 → IntTensor dst 0 first → i = 0xFFFF_FFFF →
      Completes (.gather o q) s fun u => u = { s with nis := u.nis } ∧ CopyDone s u t f q r 1 0) ∧
    (CopyHead s t f k q r 7 → bits (r.w 3) 31 0 = 1 → bits (r.w 3) 63 32 = 1 →
      let a := intOffset src (bits (r.w 1) 31 0) (bits (r.w 1) 63 32)
      let b := intOffset dst (bits (r.w 2) 31 0) (bits (r.w 2) 63 32)
      IntTensor src (bits (r.w 1) 31 0) (bits (r.w 1) 63 32) → IntTensor dst (bits (r.w 2) 31 0) (bits (r.w 2) 63 32) →
      Completes (.reduceAdd o q) s fun u =>
        done u 1 (lmLoc t.val b) ((s.mem.read (lmLoc t.val b) 4 + s.mem.read (lmLoc t.val a) 4) % 2 ^ 32))

/-- R56, R58, R132, R238, R239, R248, R250 and R261: a qfence that names only its own queue completes at its head; a tlbinv of the
kernel with bit 8 of its third word empties every translation cache; the last semaphore-V of a request raises the count of
the tile that it names; a completion goes to its context's mailbox once an entry is free. -/
def Sys2Proof.Claims.CopyEvents : Prop :=
  ∀ (s : State) (t : Fin 900) (f : Fin 4) (k : Fin 11) (q : Fin 2) (r : CopyReq),
    let o := Owner.facet t f
    let n := s.ni o
    (CopyHead s t f k q r 6 → bits (r.w 1) 8 0 = 0 → n.spilled = false →
      Completes (.qfence o q) s fun u => u = { s with nis := u.nis } ∧ CopyDone s u t f q r 0 0) ∧
    (CopyHead s t f k q r 9 → r.priv = true → s.net = [] → bit (r.w 2) 8 = true →
      Completes (.tlbinv o q) s fun u =>
        u = { s with nis := u.nis, tiles := u.tiles } ∧ CopyDone s u t f q r (bits (r.w 3) 31 0) 0 ∧
        ∀ m, (u.tile m) = { s.tile m with tlb := [] }) ∧
    (∀ j : Fin 32, n.cq[q] = [r] → r.phase = .signalling → r.targets = [(t.val, none)] → bits (r.w 0) 55 51 = j.val →
      let x := (s.tile t.val).sems[j]
      x.waiters = [] → x.count.toNat < 65535 →
      Completes (.semaphoreV o q) s fun u =>
        u = { s with nis := u.nis, tiles := u.tiles } ∧ OtherNis s u o ∧ OtherTiles s u t.val ∧
        u.tile t.val = { s.tile t.val with sems := (s.tile t.val).sems.set j.val { x with count := x.count + 1 } } ∧
        (bit (r.w 0) 56 = true → (u.ni o).cq[q] = [{ r with targets := [], phase := .completing }])) ∧
    (n.cq[q] = [r] → r.phase = .completing → r.agent = .facet t f k → bit (r.w 0) 57 = false →
      (n.mail.filter fun e => !e.reserve).length < 31 →
      Completes (.completion o q) s fun u =>
        u = { s with nis := u.nis } ∧ OtherNis s u o ∧ (u.ni o).cq[q] = [] ∧
        (u.ni o).mail = n.mail ++ [{ ctx := k.val, hi := r.info, held := false, reserve := false
                                     lo := toWord (bits (r.w 0) 47 32 + bits (r.w 0) 7 0 * 2 ^ 16 + r.status.toNat * 2 ^ 24 +
                                       r.count % 2 ^ 32 * 2 ^ 32) }]) ∧
    (n.cq[q] = [r] → r.phase = .completing → 31 ≤ (n.mail.filter fun e => !e.reserve).length →
      exec (.completion o q) s = .next s)

/-- R244: a port request to the host link (port 12) hands its buffer over whole; here of bytes inside one block. -/
def Sys2Proof.Claims.HostPortRequest : Prop :=
  ∀ (s : State) (t : Fin 900) (f : Fin 4) (k : Fin 11) (q : Fin 2) (r : CopyReq) (reply : BitVec 8),
    let n := bits (r.w 2) 63 32
    let a := (r.w 1).toNat
    (s.ni (.facet t f)).cq[q] = [r] → r.words.length = 4 → r.agent = .facet t f k → r.spc = 0 → r.phase = .queued →
    s.freeze = false → (s.ni (.facet t f)).quiescing = false → (s.facet t f).fenced = false → s.softErrors = [] →
    bits (r.w 0) 7 0 = 8 → bits (r.w 0) 31 27 = 0 → bit (r.w 0) 56 = true → bit (r.w 0) 58 = true → r.after = [] →
    bit (r.w 0) 59 = false → bit (r.w 0) 60 = false → bits (r.w 2) 3 0 = 12 → bits (r.w 3) 15 14 = 1 →
    InBlock r a n → reply = 0 →
    Completes (.port (.facet t f) q reply) s fun u =>
      u = { s with nis := u.nis, host := { s.host with sent := s.host.sent ++ [s.mem.bytes (lmLoc t.val a) n] } } ∧
      CopyDone s u t f q r n 0

/-- R262 to R264: cpy.quiesce of the kernel with nothing active writes the facet's queued requests and mailbox entries, with their
tags, to R263's places in the spill area and empties queues and mailbox, which then refuses messages; the tile's fourth facet to
spill also writes the tile-wide state there. No other byte is different, the area's reserved ones among them (DESIGN CHOICE, log entry
35). Here the mailbox holds at most its 32 entries. While a request
is signalling it waits. At user privilege it traps PRIV. -/
def Sys2Proof.Claims.Quiesce : Prop :=
  ∀ (s : State) (t : Fin 900) (f : Fin 4) (k : Fin 11) (a : BitVec 5), s.cur = .facet t f k → s.latch.rep = none →
    let o := Owner.facet t f
    (s.c.kernel = true → bit (s.c.getX a) 0 = false → (∀ q : Fin 2, ∀ r ∈ (s.ni o).cq[q], r.phase = .queued) →
      Completes (.cpyQuiesce a) s fun u =>
        (u.ni o).cq = Vector.replicate 2 [] ∧ (u.ni o).mail = [] ∧ (u.ni o).quiescing = true ∧ (u.ni o).spilled = true ∧
        OtherNis s u o ∧ u.c.pc = follows s ∧ u.c.x = s.c.x ∧ u.gangs = s.gangs ∧ u.queues = s.queues) ∧
    (s.c.kernel = true → bit (s.c.getX a) 0 = false → (∀ q : Fin 2, ∀ r ∈ (s.ni o).cq[q], r.phase = .queued) →
      (∀ q : Fin 2, (s.ni o).cq[q].length ≤ 8) → (s.ni o).mail.length ≤ 32 →
      let at_ := fun (off : Nat) => lmLoc t.val (0x3F_9000 + off)
      let last := ∀ g, g ≠ f → (s.ni (.facet t g)).spilled = true
      let within := fun (off base n : Nat) => base ≤ off ∧ off < base + n
      let mine := fun (off : Nat) => within off (0x4400 + 0x200 * f.val) 0x200 ∨ within off (0x4C00 + 0x200 * f.val) 0x200 ∨
        within off (0x5C00 + 32 * f.val) 32 ∨ within off (0x5D70 + 32 * f.val) 32
      let wide := fun (off : Nat) => within off 0 0x4400 ∨ within off 0x5400 0x780 ∨ within off 0x5C80 0xF0
      Completes (.cpyQuiesce a) s fun u =>
        let holds := fun (off n v : Nat) => u.mem.read (at_ off) n = v
        (∀ (q : Fin 2) (i : Nat) (r : CopyReq), (s.ni o).cq[q][i]? = some r →
          let p := 8 * (2 * f.val + q.val) + i
          (∀ j, j < 4 → holds (0x4C00 + 32 * p + 8 * j) 8 (r.w j).toNat) ∧ holds (0x5D70 + 2 * p) 1 r.spc.toNat ∧
            holds (0x5D70 + 2 * p + 1) 1 (16 * f.val + ctxNo r.agent)) ∧
        (∀ (i : Nat) (e : MailEntry), (s.ni o).mail[i]? = some e →
          let p := 32 * f.val + i
          holds (0x4400 + 16 * p) 8 e.lo.toNat ∧ holds (0x4400 + 16 * p + 8) 8 e.hi.toNat ∧
            holds (0x5C00 + p) 1 ((16 * f.val + e.ctx) % 256)) ∧
        (last →
          let y := s.tile t.val
          (u.tile t.val).spilled = true ∧ (∀ n, n < 256 → holds (60 * n) 60 ((y.tensor n).toNat % 256 ^ 60)) ∧
          (∀ n, n < 512 → holds (0x3C00 + 4 * n) 4 (y.tags.get 0 n).toNat) ∧
          (∀ n, n < 1920 → holds (0x5400 + n) 1 (y.stamp (2 * n) % 16 + y.stamp (2 * n + 1) % 16 * 16)) ∧
          (∀ i : Fin 4, holds (0x5C80 + 8 * i.val) 8 y.win[i].toNat) ∧
          (∀ i : Fin 16, holds (0x5CA0 + i.val) 1 (match y.mutexes[i].owner with
            | some w => 0x80 + w.toNat
            | none => 0)) ∧
          (∀ i : Fin 32, holds (0x5CB0 + 4 * i.val) 4 (y.sems[i].count.toNat + if y.sems[i].ovf then 2 ^ 16 else 0)) ∧
          (∀ i : Fin 16, holds (0x5D30 + 4 * i.val) 4 y.channels[i].count.toNat)) ∧
        ∀ l, (∀ off, l = at_ off → ¬mine off ∧ ¬(last ∧ wide off)) → u.mem.byte l = s.mem.byte l) ∧
    (∀ r rest, s.c.kernel = true → bit (s.c.getX a) 0 = false → (s.ni o).cq[0] = r :: rest → r.phase = .signalling →
      Completes (.cpyQuiesce a) s fun u =>
        u = { s with ctxs := u.ctxs, nis := u.nis } ∧ OtherNis s u o ∧ u.ni o = { s.ni o with quiescing := true } ∧
        OtherCtxs s u s.cur ∧ u.c = { s.c with run := .parked .quiesce }) ∧
    (s.c.kernel = false → Traps (.cpyQuiesce a) s 0x04 (s.latch.word.zeroExtend 64))

/-- R262 to R264: cpy.quiesce of the kernel with bit 0 of x[a] set takes the facet's mailbox, the overflow entries first, and its queued
requests back from the spill area, ahead of what has come since, and ends the refusals; the tile's first facet to reload takes the
tile-wide state back too. The user-level interrupts that waited pend again. What the area has no field for is as the spill kept it
(DESIGN CHOICE, log entry 35); memory stands. -/
def Sys2Proof.Claims.QuiesceReload : Prop :=
  ∀ (s : State) (t : Fin 900) (f : Fin 4) (k : Fin 11) (a : BitVec 5), s.cur = .facet t f k → s.latch.rep = none →
    s.c.kernel = true → bit (s.c.getX a) 0 = true →
    let o := Owner.facet t f
    let n := s.ni o
    let x := n.kept
    let get := fun (off m : Nat) => s.mem.read (lmLoc t.val (0x3F_9000 + off)) m
    let word := fun (off : Nat) => toWord (get off 8)
    Completes (.cpyQuiesce a) s fun u =>
      let mail := fun (i : Nat) => (u.ni o).mail[i]?
      u.mem = s.mem ∧ u.c.pc = follows s ∧ u.c.x = s.c.x ∧ OtherNis s u o ∧ OtherTiles s u t.val ∧
      (u.ni o).quiescing = false ∧ (u.ni o).spilled = false ∧
      (∀ i e, x.past[i]? = some e → i < 2 →
        let slot := 0x5B80 + 32 * f.val + 16 * i
        mail i = some { e with lo := word slot, hi := word (slot + 8) }) ∧
      (∀ i e, x.mail[i]? = some e → i < 32 →
        let p := 32 * f.val + i
        mail (x.past.length + i) = some { e with
          lo := word (0x4400 + 16 * p), hi := word (0x4400 + 16 * p + 8), ctx := get (0x5C00 + p) 1 % 16 }) ∧
      (∀ i e, n.mail[i]? = some e → mail (x.past.length + x.mail.length + i) = some e) ∧
      (∀ (q : Fin 2) i r, x.cq[q][i]? = some r → i < 8 → r.mark = false →
        let p := 8 * (2 * f.val + q.val) + i
        ∀ c : Fin 11, get (0x5D70 + 2 * p + 1) 1 % 16 = c.val →
          (u.ni o).cq[q][i]? = some { r with
            words := [0, 1, 2, 3].map fun j => word (0x4C00 + 32 * p + 8 * j)
            spc := BitVec.ofNat 8 (get (0x5D70 + 2 * p) 1), agent := .facet t f c }) ∧
      (∀ (q : Fin 2) i r, n.cq[q][i]? = some r → (u.ni o).cq[q][x.cq[q].length + i]? = some r) ∧
      (∀ c : Fin 11, (u.ctx (.facet t f c)).pending =
        (x.pending.filter fun y => y.1 = c).map (fun y => y.2) ++ (s.ctx (.facet t f c)).pending) ∧
      ((s.tile t.val).spilled = false → u.tiles = s.tiles) ∧
      ((s.tile t.val).spilled = true →
        let y := u.tile t.val
        y.spilled = false ∧ y.tlb = [] ∧
        (∀ m, m < 256 → y.tensor m = if get (60 * m) 60 = 0 then 0 else recSeal (BitVec.ofNat 512 (get (60 * m) 60))) ∧
        (∀ m, m < 512 → (y.tags.get 0 m).toNat = get (0x3C00 + 4 * m) 4) ∧
        (∀ m, m < 3840 → y.stamp m = get (0x5400 + m / 2) 1 / 16 ^ (m % 2) % 16) ∧
        (∀ i : Fin 4, y.win[i] = word (0x5C80 + 8 * i.val) &&& 0xF03F_FFFF_003F_FFFF) ∧
        (∀ i : Fin 16, let v := get (0x5CA0 + i.val) 1
          y.mutexes[i] = ⟨if 0x80 ≤ v then some (BitVec.ofNat 6 v) else none, []⟩) ∧
        (∀ i : Fin 32, let v := get (0x5CB0 + 4 * i.val) 4
          y.sems[i] = ⟨BitVec.ofNat 16 v, decide (v / 2 ^ 16 % 2 = 1), []⟩) ∧
        ∀ i : Fin 16, y.channels[i] =
          { (s.tile t.val).channels[i] with count := BitVec.ofNat 32 (get (0x5D30 + 4 * i.val) 4) })

/-! ### Messages, mailboxes and the tag table (R250 to R259) -/

/-- R253, R254 and R265: a message to a tile's mailbox goes on its way with the sender's place in its header, and takes a ring
entry; the .rel forms do so as a release (R51); msg.mcast sends one to each tile of a rectangle, here of two. A kind outside
0x80 to 0xEF traps PROT, a place that no tile has LMRANGE, x31 as the pair ILLEGAL. -/
def Sys2Proof.Claims.Messages : Prop :=
  ∀ (s : State) (t : Fin 900) (f : Fin 4) (k : Fin 11) (a b : BitVec 5), s.cur = .facet t f k → s.latch.rep = none →
    let o := Owner.facet t f
    let w := s.c.getX a
    let v := s.c.getX b
    let hi := s.c.xn (b.toNat + 1)
    let lo := toWord (bits v 23 0 + (t.val * 2 ^ 16 + ctxid s.cur) * 2 ^ 32)
    let good := b.toNat ≤ 30 ∧ bit w 63 = false ∧ bits w 9 0 < 900 ∧ bits w 27 24 ≤ 10 ∧ 0x80 ≤ bits v 23 16 ∧ bits v 23 16 ≤ 0xEF ∧
      s.c.spc = 0 ∧ RingFree s o ∧ (s.facet t f).fenced = false
    let one := bits w 52 48 = 1 ∧ bits w 60 56 = 0 ∧ bits w 9 0 % 30 < 29
    let message := fun (i tile : Nat) (dest : Owner) => ({
      id := s.nextId + i, group := s.nextId, sender := some s.cur, kernel := s.c.kernel, dest := dest, ctx := bits w 27 24
      lo := lo, hi := hi, destWord := (w &&& ~~~0x3FF) ||| toWord tile, ring := some (s.ni o).seq, refusals := [] } : Message)
    let sends := fun (u : State) (ms : List Message) =>
      u = { s with ctxs := u.ctxs, nis := u.nis, msgs := s.msgs ++ ms, nextId := s.nextId + ms.length } ∧ OtherCtxs s u s.cur ∧
      u.c = { s.c with pc := follows s } ∧ OtherNis s u o ∧ TakesRing s o [w, v, hi] true (u.ni o)
    let first : Nat := bits w 9 0
    (∀ to_ : Fin 900, to_.val = first → good →
      let dest := Owner.facet to_ ⟨bits w 17 16 % 4, by omega⟩
      Completes (.msgSend a b) s (fun u => sends u [message 0 first dest]) ∧
      (Releases s → Completes (.msgSendRel a b) s fun u => sends u [message 0 first dest])) ∧
    (good → ¬NothingOpen s s.cur → Parks (.msgSendRel a b) s .order) ∧
    (∀ x y : Fin 900, x.val = first → y.val = first + 1 → good → one →
      let g : Fin 4 := ⟨bits w 17 16 % 4, by omega⟩
      let both := [message 0 first (.facet x g), message 1 (first + 1) (.facet y g)]
      Completes (.msgMcast a b) s (fun u => sends u both) ∧
      (Releases s → Completes (.msgMcastRel a b) s fun u => sends u both)) ∧
    (good → one → ¬NothingOpen s s.cur → Parks (.msgMcastRel a b) s .order) ∧
    (b.toNat ≤ 30 → bit w 63 = false → 900 ≤ bits w 9 0 ∨ 10 < bits w 27 24 → Traps (.msgSend a b) s 0x19 w) ∧
    (b.toNat ≤ 30 → bit w 63 = false → bits w 9 0 < 900 → bits w 27 24 ≤ 10 → s.c.spc = 0 →
      bits v 23 16 < 0x80 ∨ 0xEF < bits v 23 16 → Traps (.msgSend a b) s 0x07 (s.latch.word.zeroExtend 64)) ∧
    (b.toNat = 31 → Traps (.msgSend a b) s 0x01 (s.latch.word.zeroExtend 64))

/-- R250, R254 and R264: a message is delivered to the tail of its mailbox where the destination has a gang, is not fenced,
spilling or spilled, and has room in 31 entries; otherwise it is refused and its sender takes a late NACK. -/
def Sys2Proof.Claims.MessageDelivery : Prop :=
  ∀ (s : State) (m : Message) (t u : Fin 900) (f g : Fin 4) (k : Fin 11),
    let o := Owner.facet u g
    let n := s.ni o
    s.msgs = [m] → s.net = [] → m.dest = o → m.sender = some (.facet t f k) → m.ring = none → m.refusals = [] → m.ctx ≤ 10 →
    let takes := (s.tile u.val).gang ≠ none ∧ (s.facet u g).fenced = false ∧ n.quiescing = false ∧ (s.tile u.val).spilled = false ∧
      (n.mail.filter fun e => !e.reserve).length < 31
    (takes → Completes (.messageDelivery m.id) s fun v =>
      v = { s with msgs := [], nis := v.nis } ∧ OtherNis s v o ∧
      v.ni o = { n with mail := n.mail ++ [{ ctx := m.ctx, lo := m.lo, hi := m.hi, held := false, reserve := false }] }) ∧
    (¬takes → bit m.destWord 63 = false → bits m.destWord 9 0 = u.val →
      Completes (.messageDelivery m.id) s fun v =>
        v = { s with msgs := [], ctxs := v.ctxs } ∧ OtherCtxs s v (.facet t f k) ∧
        (v.ctx (.facet t f k)).late = (s.ctx (.facet t f k)).late ++ [⟨0x08, m.destWord, none, some m.id, false⟩])

/-- R252: mbox.wait goes on once the context has an entry and parks until then; mbox.pop takes its oldest entry into two
registers, or gives all ones and 0; mbox.cnt gives its own entries and the mailbox's occupied ones. -/
def Sys2Proof.Claims.Mailbox : Prop :=
  ∀ (s : State) (d : BitVec 5), s.latch.rep = none →
    let o := ownerOf s.cur
    let mine := (s.ni o).mail.filter fun e => e.ctx = ctxNo s.cur && !e.held
    let pair := fun (c' : Ctx) (lo hi : Word) => ∀ r, c'.getX r = if r = d + 1 then hi else if r = d ∧ r ≠ 0 then lo else s.c.getX r
    (mine = [] → Parks .mboxWait s .mailbox) ∧ (mine ≠ [] → GoesTo .mboxWait s (follows s)) ∧
    (d.toNat ≤ 30 → mine = [] → Completes (.mboxPop d) s fun u =>
      OnlyIssuer s u ∧ pair u.c 0xFFFF_FFFF_FFFF_FFFF 0 ∧ u.c = { s.c with x := u.c.x, pc := follows s }) ∧
    (∀ before e after, d.toNat ≤ 30 → (s.ni o).mail = before ++ e :: after →
      (∀ x ∈ before, x.ctx ≠ ctxNo s.cur ∨ x.held = true) → e.ctx = ctxNo s.cur → e.held = false → e.reserve = false →
      Completes (.mboxPop d) s fun u =>
        u = { s with ctxs := u.ctxs, nis := u.nis } ∧ OtherCtxs s u s.cur ∧ OtherNis s u o ∧
        u.ni o = { s.ni o with mail := before ++ after } ∧ pair u.c e.lo e.hi ∧
        u.c = { s.c with x := u.c.x, pc := follows s }) ∧
    (d.toNat = 31 → Traps (.mboxPop d) s 0x01 (s.latch.word.zeroExtend 64)) ∧
    WritesX (.mboxCnt d) s d (toWord (mine.length % 64 + (s.ni o).mail.length % 64 * 2 ^ 8))

/-- R258 and R259: the tag table of a tile. tag.set fills a slot and clears every other slot with its size code and key;
tag.look gives the slot that holds an address, or all ones; tag.clr empties a slot and gives its word; tag.flush gives the
first valid dirty slot from a number on, with its word, and clears its dirty bit. A size code above 8 traps ILLEGAL. -/
def Sys2Proof.Claims.TagTable : Prop :=
  ∀ (s : State) (t : Fin 900) (f : Fin 4) (k : Fin 11) (d a b : BitVec 5), s.cur = .facet t f k → s.latch.rep = none →
    let x := s.c.getX a
    let y := s.c.getX b
    let tags := (s.tile t.val).tags
    let slot := fun (u : State) (n : Nat) => (u.tile t.val).tags.get 0 n
    let key := fun (code : Nat) (va : Word) => BitVec.ofNat 32 (2 ^ 31 + code * 2 ^ 26 + va.toNat / 2 ^ (8 + code) % 2 ^ 26)
    let clean : BitVec 32 := ~~~0x4000_0000
    let n := bits x 8 0
    let changes := fun (u : State) =>
      u = { s with ctxs := u.ctxs, tiles := u.tiles } ∧ OtherTiles s u t.val ∧ OtherCtxs s u s.cur ∧
      u.tile t.val = { s.tile t.val with tags := (u.tile t.val).tags }
    let w := key (bits x 19 16) y
    (bits x 19 16 ≤ 8 → (tags.cells.map fun c => c.1).Nodup → Completes (.tagSet a b) s fun u =>
      changes u ∧ u.c = { s.c with pc := follows s } ∧
      slot u n = (w ||| if bit x 24 then 0x4000_0000 else 0) ∧
      ∀ m, m ≠ n → slot u m = if slot s m &&& clean = w then 0 else slot s m) ∧
    (∀ m v, bits y 3 0 ≤ 8 → tags.cells = [(m, v)] → v &&& clean = key (bits y 3 0) x → WritesX (.tagLook d a b) s d (toWord m)) ∧
    (bits y 3 0 ≤ 8 → (∀ c ∈ tags.cells, c.2 &&& clean ≠ key (bits y 3 0) x) →
      WritesX (.tagLook d a b) s d 0xFFFF_FFFF_FFFF_FFFF) ∧
    (Completes (.tagClr d a) s fun u =>
      changes u ∧ SetsX d ((slot s n).zeroExtend 64) s.c u.c ∧ u.c = { s.c with x := u.c.x, pc := follows s } ∧
      ∀ m, slot u m = if m = n then 0 else slot s m) ∧
    (∀ m v rest, tags.cells = (m, v) :: rest → n ≤ m → bit v 31 = true → bit v 30 = true →
      Completes (.tagFlush d a) s fun u =>
        changes u ∧ SetsX d (toWord (v.toNat * 2 ^ 32 + m)) s.c u.c ∧ u.c = { s.c with x := u.c.x, pc := follows s } ∧
        slot u m = v &&& clean) ∧
    ((∀ c ∈ tags.cells, n ≤ c.1 → bit c.2 31 = false ∨ bit c.2 30 = false) →
      WritesX (.tagFlush d a) s d 0xFFFF_FFFF_FFFF_FFFF) ∧
    (8 < bits x 19 16 → Traps (.tagSet a b) s 0x01 (s.latch.word.zeroExtend 64)) ∧
    (8 < bits y 3 0 → Traps (.tagLook d a b) s 0x01 (s.latch.word.zeroExtend 64))

/-! ### Work queues and fault records (R276 to R282, R361, R399) -/

/-- R277 to R279 and R399: q.push and q.try put the 64 bytes at x[a] at the end of an open queue that admits the gang's region, on
chip while there is room and the scree is empty, else in the scree slot, and give the ticket; a waiting dequeuer is handed
the item; with no place q.push traps QUOTA and q.try gives -1, and Q is set; without admission both trap PROT. -/
def Sys2Proof.Claims.QueuePush : Prop :=
  ∀ (s : State) (t : Fin 900) (f : Fin 4) (k : Fin 11) (d a b : BitVec 5), s.cur = .facet t f k → s.latch.rep = none →
    let va := s.c.getX a
    let n := bits (s.c.getX b) 11 0
    let q := s.queue n
    let item := BitVec.ofNat 512 (s.mem.read (lmLoc t.val va.toNat) 64)
    let admitted := q.open_ = true ∧ bit q.flags 2 = true ∧ GangRegion s t q.rid
    let gives := fun (u : State) (v : Word) => SetsX d v s.c u.c ∧ u.c = { s.c with x := u.c.x, pc := follows s }
    let slot := q.scree + toWord (64 * ((q.shead + q.scount) % q.quota))
    LocalRead s t 0 va 64 → Releases s →
    (∀ i ∈ ([.qPush d a b, .qTry d a b] : List Instr),
      (admitted → q.scount = 0 → q.items.length < 64 → q.waiters = [] → Completes i s fun u =>
        OnlyQueue s u n ∧ OtherCtxs s u s.cur ∧ gives u (q.pushes.setWidth 64) ∧
        u.queue n = { q with items := q.items ++ [item], pushes := q.pushes + 1 }) ∧
      (∀ w rest, admitted → q.scount = 0 → q.items = [] → q.waiters = w :: rest → w.agent ≠ s.cur → Completes i s fun u =>
        u = { s with ctxs := u.ctxs, queues := u.queues, mem := u.mem } ∧ OtherQueues s u n ∧ OtherBytes s u w.loc 64 ∧
        u.mem.read w.loc 64 = item.toNat ∧ u.queue n = { q with waiters := rest, pushes := q.pushes + 1 } ∧
        Answered w.d [q.pushes.setWidth 64] (s.ctx w.agent) (u.ctx w.agent) ∧ gives u (q.pushes.setWidth 64) ∧
        ∀ x, x ≠ s.cur → x ≠ w.agent → u.ctx x = s.ctx x) ∧
      (∀ pa, admitted → q.items.length = 64 → q.scount < q.quota → q.waiters = [] → s.unitPa slot 1 = .ok pa →
        Completes i s fun u =>
          u = { s with ctxs := u.ctxs, queues := u.queues, mem := u.mem } ∧ OtherQueues s u n ∧ OtherCtxs s u s.cur ∧
          OtherBytes s u pa 64 ∧ u.mem.read pa 64 = item.toNat ∧ gives u (q.pushes.setWidth 64) ∧
          u.queue n = { q with scount := q.scount + 1, pushes := q.pushes + 1 }) ∧
      (¬admitted → Traps i s 0x07 (toWord n))) ∧
    (admitted → q.items.length = 64 → q.quota ≤ q.scount → q.waiters = [] →
      (Completes (.qTry d a b) s fun u =>
        OnlyQueue s u n ∧ OtherCtxs s u s.cur ∧ gives u 0xFFFF_FFFF_FFFF_FFFF ∧ u.queue n = { q with refused := true }) ∧
      (s.c.kt = false → Completes (.qPush d a b) s fun u =>
        OtherQueues s u n ∧ OtherCtxs s u s.cur ∧ u.queue n = { q with refused := true } ∧
        Entered s.c u.c 0 0x0C (toWord n)))

/-- R277 and R280: q.deq and q.tdeq write the oldest item at x[a] and give its ticket, and the scree's oldest item moves on chip;
of an empty queue q.tdeq gives -1, and q.deq parks at the tail of its waiters. Without admission both trap PROT. -/
def Sys2Proof.Claims.QueueTake : Prop :=
  ∀ (s : State) (t : Fin 900) (f : Fin 4) (k : Fin 11) (d a b : BitVec 5), s.cur = .facet t f k → s.latch.rep = none →
    let va := s.c.getX a
    let n := bits (s.c.getX b) 11 0
    let q := s.queue n
    let loc := lmLoc t.val va.toNat
    let admitted := q.open_ = true ∧ bit q.flags 4 = true ∧ GangRegion s t q.rid
    let slot := q.scree + toWord (64 * (q.shead % q.quota))
    LocalWrite s t 0 va 64 →
    (∀ i ∈ ([.qDeq d a b, .qTdeq d a b] : List Instr),
      (∀ (item : Vec) (rest : List Vec), admitted → q.items = item :: rest → q.waiters = [] →
        let took := fun (u : State) (q' : Queue) =>
          u = { s with ctxs := u.ctxs, queues := u.queues, mem := u.mem } ∧ OtherQueues s u n ∧ OtherCtxs s u s.cur ∧
          OtherBytes s u loc 64 ∧ u.mem.read loc 64 = item.toNat ∧
          SetsX d ((q.pushes - BitVec.ofNat 32 (q.items.length + q.scount)).setWidth 64) s.c u.c ∧
          u.c = { s.c with x := u.c.x, pc := follows s } ∧ u.queue n = q'
        (q.scount = 0 → Completes i s fun u => took u { q with items := rest }) ∧
        (∀ m pa, q.scount = m + 1 → q.items.length = 64 → s.unitPa slot 0 = .ok pa → Completes i s fun u =>
          took u { q with
            items := rest ++ [BitVec.ofNat 512 (s.mem.read pa 64)], shead := q.shead + 1, scount := m, stuck := false })) ∧
      (¬admitted → Traps i s 0x07 (toWord n))) ∧
    (admitted → q.items = [] → WritesX (.qTdeq d a b) s d 0xFFFF_FFFF_FFFF_FFFF) ∧
    (admitted → q.items = [] → Completes (.qDeq d a b) s fun u =>
      OnlyQueue s u n ∧ OtherCtxs s u s.cur ∧ u.c = { s.c with run := .parked .queue } ∧
      u.queue n = { q with waiters := q.waiters ++ [⟨s.cur, d, loc⟩] })

/-- R278: a misaligned item address traps ALIGN, and an aperture address PROT. -/
def Sys2Proof.Claims.QueueAddresses : Prop :=
  ∀ (s : State) (d a b : BitVec 5), s.latch.rep = none →
    let va := s.c.getX a
    ∀ i ∈ ([.qPush d a b, .qTry d a b, .qDeq d a b, .qTdeq d a b] : List Instr),
      (va.toNat % 64 ≠ 0 → Traps i s 0x05 va) ∧ (va.toNat % 64 = 0 → bits va 63 60 = 15 → Traps i s 0x07 va)

/-- R281 and R282: q.stat gives a queue's word and clears Q; q.reset of the kernel, a release, discards the items, completes
the waiters with -2 and loads the 32 bytes at x[a], or closes the queue where x[a] = 0; at user privilege it traps PRIV. -/
def Sys2Proof.Claims.QueueStatAndReset : Prop :=
  ∀ (s : State) (t : Fin 900) (f : Fin 4) (k : Fin 11) (d a b : BitVec 5), s.cur = .facet t f k → s.latch.rep = none →
    let va := s.c.getX a
    let n := bits (s.c.getX b) 11 0
    let q := s.queue n
    let v := s.mem.read (lmLoc t.val va.toNat) 32
    (q.items.length ≤ 64 → q.scount < 2 ^ 32 → Completes (.qStat d b) s fun u =>
      OnlyQueue s u n ∧ OtherCtxs s u s.cur ∧ u.queue n = { q with refused := false } ∧
      SetsX d (toWord (q.open_.toNat + 2 * q.refused.toNat + 2 ^ 16 * q.items.length + 2 ^ 24 * min q.waiters.length 255 +
        2 ^ 32 * q.scount)) s.c u.c ∧ u.c = { s.c with x := u.c.x, pc := follows s }) ∧
    (∀ w, s.c.kernel = true → va = 0 → Releases s → q.waiters = [w] → w.agent ≠ s.cur →
      Completes (.qReset a b) s fun u =>
        OnlyQueue s u n ∧ u.queue n = Queue.initial ∧ u.c = { s.c with pc := follows s } ∧
        Answered w.d [0xFFFF_FFFF_FFFF_FFFE] (s.ctx w.agent) (u.ctx w.agent) ∧
        ∀ x, x ≠ s.cur → x ≠ w.agent → u.ctx x = s.ctx x) ∧
    (s.c.kernel = true → va ≠ 0 → LocalRead s t 0 va 32 → Releases s → q.waiters = [] →
      Completes (.qReset a b) s fun u =>
        OnlyQueue s u n ∧ OtherCtxs s u s.cur ∧ u.c = { s.c with pc := follows s } ∧
        u.queue n = {
          open_ := v / 2 ^ 112 % 2 = 1, flags := BitVec.ofNat 8 (v / 2 ^ 112), rid := BitVec.ofNat 16 (v / 2 ^ 96)
          scree := toWord v, quota := v / 2 ^ 64 % 2 ^ 32, items := [], shead := 0, scount := 0, pushes := 0, refused := false
          waiters := [], stuck := false }) ∧
    (s.c.kernel = false → Traps (.qReset a b) s 0x04 (s.latch.word.zeroExtend 64))

/-- R361: an open queue 0 with room takes a held fault record, with the count of records lost in bytes 26 and 27, and the count
starts again; a closed one takes none, and one that refuses it at its quota has Q set (R281). -/
def Sys2Proof.Claims.FaultRecordReoffer : Prop :=
  ∀ (s : State),
    let q := s.queue 0
    (∀ r, s.mgmt.records.held = [r] → s.resetting = false → q.open_ = true → q.scount = 0 → q.items.length < 64 → q.waiters = [] →
      Completes .faultRecordReoffer s fun u =>
        u = { s with mgmt := u.mgmt, queues := u.queues } ∧ OtherQueues s u 0 ∧ u.mgmt = { s.mgmt with records := ⟨[], 0⟩ } ∧
        ∃ item, u.queue 0 = { q with items := q.items ++ [item], pushes := q.pushes + 1 } ∧
          ∀ j, j < 32 → elem item 16 j = if j = 13 then s.mgmt.records.lost % 2 ^ 16 else elem r 16 j) ∧
    (q.open_ = false → exec .faultRecordReoffer s = .next s) ∧
    (s.mgmt.records.held ≠ [] → s.resetting = false → q.open_ = true → q.items.length = 64 → q.quota ≤ q.scount → q.waiters = [] →
      Completes .faultRecordReoffer s fun u =>
        u = { s with queues := u.queues } ∧ OtherQueues s u 0 ∧ u.queue 0 = { q with refused := true }) ∧
    (s.mgmt.records.held = [] → exec .faultRecordReoffer s = .next s)

/-! ### Cairn (R295 to R310) -/

/-- R295, R299 and R305: cn.put, a release, puts an element into the local shard of its context, present at once while the
round's put budget lasts, and held for a later round after that. A closed pool, or one that does not admit the gang's
region, traps PROT with its number; a full shard QUOTA. -/
def Sys2Proof.Claims.CairnPut : Prop :=
  ∀ (s : State) (t : Fin 900) (f : Fin 4) (k : Fin 11) (a b : BitVec 5) (n : BitVec 6),
    s.cur = .facet t f k → s.latch.rep = none → Releases s →
    let key := s.c.getX a
    let payload := s.c.getX b
    let goes := fun (u : State) => OtherCtxs s u s.cur ∧ u.c = { s.c with pc := follows s }
    (s.pool n.toNat = none → Traps (.cnPut a b n) s 0x07 (toWord n.toNat)) ∧
    ∀ p, s.pool n.toNat = some p →
      let die := t.val % 30 / 15 + 2 * (t.val / 450)
      let i := (die + 4 - n.toNat % 4) % 4 % min p.s 4 + 4 * (t.val % max (p.s / 4) 1)
      let admitted := bit p.flags 1 = true ∧ GangRegion s t p.rid
      (¬admitted → Traps (.cnPut a b n) s 0x07 (toWord n.toNat)) ∧
      ∀ x, p.shards[i]? = some x →
        (admitted → 4096 + p.quota ≤ x.chip.length + x.scree.length + x.held.length →
          Traps (.cnPut a b n) s 0x0C (toWord n.toNat)) ∧
        (admitted → x.chip.length + x.scree.length + x.held.length < 4096 + p.quota → p.s = 1 ∨ x.admitted < p.p →
          ChipInOrder p x → Completes (.cnPut a b n) s fun u =>
            goes u ∧ ∃ chip, GoesIn key payload x.chip chip ∧
              OnlyPool s u n.toNat { p with
                counter := p.counter + 2, shards := p.shards.set i { x with chip := chip, admitted := x.admitted + 1 } }) ∧
        (admitted → x.chip.length + x.scree.length + x.held.length < 4096 + p.quota → p.s ≠ 1 → p.p ≤ x.admitted →
          Completes (.cnPut a b n) s fun u =>
            goes u ∧ ∃ e : PoolElem, e.key = key ∧ e.payload = payload ∧
              OnlyPool s u n.toNat { p with
                counter := p.counter + 1, shards := p.shards.set i { x with held := x.held ++ [e] } })

/-- R300, R302 and R306: cn.take and cn.ttake of a pool of one shard take its least element, with the round in the status, or
find it empty; of a pool of several shards with nothing published, cn.take waits for the next round, in the order in which takes came
there (R313), and cn.ttake gives
result 2; where a shard has published an element, a steal goes to the one with the least key. A closed pool, or one that
does not admit the gang's region, traps PROT. -/
def Sys2Proof.Claims.CairnTake : Prop :=
  ∀ (s : State) (t : Fin 900) (f : Fin 4) (k : Fin 11) (d : BitVec 5) (n : BitVec 6) (wait : Bool),
    s.cur = .facet t f k → s.latch.rep = none → d.toNat ≤ 29 →
    let i : Instr := if wait then .cnTake d n else .cnTtake d n
    (s.pool n.toNat = none → Traps i s 0x07 (toWord n.toNat)) ∧
    ∀ p, s.pool n.toNat = some p →
      let admitted := bit p.flags 3 = true ∧ GangRegion s t p.rid
      let status := fun (res : Nat) => toWord (p.round % 2 ^ 32 * 2 ^ 16 + res * 2 ^ 62)
      let die := t.val % 30 / 15 + 2 * (t.val / 450)
      let at_ := (die + 4 - n.toNat % 4) % 4 % min p.s 4 + 4 * (t.val % max (p.s / 4) 1)
      let none_ := p.s ≠ 1 ∧ ∃ x, p.shards[at_]? = some x ∧ x.chip = [] ∧ x.scree = []
      (¬admitted → Traps i s 0x07 (toWord n.toNat)) ∧
      (∀ x e rest, admitted → OneShard p x → x.chip = e :: rest → Completes i s fun u =>
        OtherCtxs s u s.cur ∧ Answered d [e.key, e.payload, status 0] s.c u.c ∧
        OnlyPool s u n.toNat { p with shards := [{ x with chip := rest, removed := x.removed + 1 }] }) ∧
      (∀ x, admitted → OneShard p x → x.chip = [] → x.held = [] → Completes i s fun u =>
        OnlyIssuer s u ∧ Answered d [0, 0, status 1] s.c u.c) ∧
      (∀ x, admitted → none_ → p.shards[at_]? = some x → (∀ y ∈ p.shards, y.summary.count = 0) → Completes i s fun u =>
        OtherCtxs s u s.cur ∧
        if wait then
          u.c = { s.c with run := .parked .cairn } ∧
          OnlyPool s u n.toNat { p with shards := p.shards.set at_ { x with waits := joinsBySince x.waits ⟨s.cur, d, true, s.now⟩ } }
        else OnlyIssuer s u ∧ Answered d [0, 0, status 2] s.c u.c) ∧
      (∀ j y m, admitted → none_ → p.shards[j]? = some y → 0 < y.summary.count → y.summary.least = some m →
        (∀ h z m', p.shards[h]? = some z → z.summary.least = some m' → m.toNat ≤ m'.toNat ∧ (h < j → m.toNat < m'.toNat)) →
        Completes i s fun u =>
          OtherCtxs s u s.cur ∧ u.c = { s.c with run := .blocked } ∧
          OnlyPool s u n.toNat { p with steals := p.steals ++ [⟨⟨s.cur, d, wait, s.now⟩, at_, j, p.threshold.isNone⟩] })

/-- R299, R300 and R306: a steal is served at its victim, the result marked stolen with the victim's number; with nothing there
and no threshold, a cn.take waits at its local shard and a cn.ttake gives result 2. -/
def Sys2Proof.Claims.CairnSteal : Prop :=
  ∀ (s : State) (n : Fin 64) (p : Pool) (y : Steal) (x : Shard), s.pool n.val = some p → p.steals = [y] → p.s ≠ 1 →
    p.limit = 0 → p.shards[y.victim]? = some x → y.victim < 16 → x.scree = [] → (x.chip.map fun e => e.order).Nodup →
    let a := y.take.agent
    let round := p.round % 2 ^ 32 * 2 ^ 16
    (∀ e rest, x.chip = e :: rest → x.removed < p.q → (∀ b h, p.threshold = some (b, h) → e.key.toNat ≤ b.toNat) →
      Completes (.cairnSteal n) s fun u =>
        OtherCtxs s u a ∧ Answered y.take.d [e.key, e.payload, toWord (y.victim + 2 ^ 9 + round)] (s.ctx a) (u.ctx a) ∧
        OnlyPool s u n.val { p with
          steals := [], shards := p.shards.set y.victim { x with chip := rest, removed := x.removed + 1 } }) ∧
    (x.chip = [] → p.threshold = none → y.take.wait = false → Completes (.cairnSteal n) s fun u =>
      OtherCtxs s u a ∧ Answered y.take.d [0, 0, toWord (round + 2 * 2 ^ 62)] (s.ctx a) (u.ctx a) ∧
      OnlyPool s u n.val { p with steals := [] }) ∧
    (∀ l, p.shards[y.from_]? = some l → x.chip = [] → p.threshold = none → y.take.wait = true →
      Completes (.cairnSteal n) s fun u =>
        OtherCtxs s u a ∧ u.ctx a = { s.ctx a with run := .parked .cairn } ∧
        OnlyPool s u n.val { p with steals := [], shards := p.shards.set y.from_ { l with waits := joinsBySince l.waits y.take } })

/-- R307: cn.stat gives a shard's published least and h-th key (all ones for none) or its counts, or the pool's round and
bound; 0 on a closed pool and beyond its shards. -/
def Sys2Proof.Claims.CairnStat : Prop :=
  ∀ (s : State) (d b : BitVec 5) (n : BitVec 6), s.latch.rep = none →
    let sel := bits (s.c.getX b) 5 4
    let j := bits (s.c.getX b) 3 0
    let gives := fun (v : Word) => WritesX (.cnStat d b n) s d v
    (s.pool n.toNat = none → gives 0) ∧
    ∀ p, s.pool n.toNat = some p →
      (sel = 3 → p.s = 1 → gives (toWord (1 + 2 ^ 16 + p.round % 2 ^ 32 * 2 ^ 32))) ∧
      (sel = 3 → p.s ≠ 1 → p.s * (p.h + p.p + p.q) < 2 ^ 16 →
        gives (toWord (1 + p.s * (p.h + p.p + p.q) * 2 ^ 16 + p.round % 2 ^ 32 * 2 ^ 32))) ∧
      (sel ≠ 3 → p.s ≤ j → gives 0) ∧
      ∀ x, j < p.s → p.shards[j]? = some x →
        (sel = 0 → gives (x.summary.least.getD 0xFFFF_FFFF_FFFF_FFFF)) ∧
        (sel = 1 → gives (x.summary.hth.getD 0xFFFF_FFFF_FFFF_FFFF)) ∧
        (sel = 2 → x.summary.count < 2 ^ 32 →
          gives (toWord (x.summary.count * 2 ^ 32 + min x.summary.inflight 65535 * 2 ^ 16)))

/-- R296 and R308: cn.open of the kernel opens a closed pool with the descriptor at x[a], round 0 and every shard empty; a bad
descriptor traps ILLEGAL, an open pool PROT. cn.close, a release, closes a pool, its waiting take ending with result 3. At
user privilege both trap PRIV. -/
def Sys2Proof.Claims.CairnOpenAndClose : Prop :=
  ∀ (s : State) (t : Fin 900) (f : Fin 4) (k : Fin 11) (a : BitVec 5) (n : BitVec 6),
    s.cur = .facet t f k → s.latch.rep = none →
    let va := s.c.getX a
    let v := s.mem.read (lmLoc t.val va.toNat) 64
    let word := s.latch.word.zeroExtend 64
    (s.c.kernel = true → LocalRead s t 0 va 64 → Releases s →
      (descOk v = false → Traps (.cnOpen a n) s 0x01 word) ∧
      (descOk v = true → s.pool n.toNat ≠ none → Traps (.cnOpen a n) s 0x07 (toWord n.toNat)) ∧
      (descOk v = true → s.pool n.toNat = none → Completes (.cnOpen a n) s fun u =>
        OtherCtxs s u s.cur ∧ u.c = { s.c with pc := follows s } ∧
        OnlyPool s u n.toNat {
          s := v % 2 ^ 8, h := v / 2 ^ 8 % 2 ^ 8, p := v / 2 ^ 16 % 2 ^ 8, q := v / 2 ^ 24 % 2 ^ 8, period := v / 2 ^ 32 % 2 ^ 32
          limit := v / 2 ^ 64 % 2 ^ 32, rid := BitVec.ofNat 16 (v / 2 ^ 96), flags := BitVec.ofNat 8 (v / 2 ^ 112)
          scree := toWord (v / 2 ^ 128), quota := v / 2 ^ 192 % 2 ^ 32, opened := s.now, round := 0, threshold := none
          shards := List.replicate (v % 2 ^ 8)
            { chip := [], scree := [], held := [], waits := [], admitted := 0, removed := 0, summary := ⟨none, none, 0, 0⟩ }
          counter := 0, tasks := 0, steals := [] })) ∧
    (∀ p w, s.c.kernel = true → Releases s → s.pool n.toNat = some p → (p.shards.flatMap fun x => x.waits) = [w] →
      p.steals = [] → w.agent ≠ s.cur → Completes (.cnClose n) s fun u =>
        u = { s with ctxs := u.ctxs, pools := u.pools } ∧ OtherPools s u n.toNat ∧ u.pool n.toNat = none ∧
        u.c = { s.c with pc := follows s } ∧
        Answered w.d [0, 0, toWord (p.round % 2 ^ 32 * 2 ^ 16 + 3 * 2 ^ 62)] (s.ctx w.agent) (u.ctx w.agent) ∧
        ∀ x, x ≠ s.cur → x ≠ w.agent → u.ctx x = s.ctx x) ∧
    (s.c.kernel = true → Releases s → s.pool n.toNat = none → GoesTo (.cnClose n) s (follows s)) ∧
    (s.c.kernel = false → Traps (.cnOpen a n) s 0x04 word ∧ Traps (.cnClose n) s 0x04 word)

/-- R298, R302 and R313: once its period is over, a pool's next round begins: every shard publishes and has fresh budgets; where
all are empty the waiting take ends with agreed empty. Before that nothing happens. -/
def Sys2Proof.Claims.RoundBoundary : Prop :=
  ∀ (s : State) (n : Fin 64) (p : Pool), s.pool n.val = some p →
    let due := p.opened + p.period * (p.round + 1) ≤ s.now
    (¬due → exec (.roundBoundary n) s = .next s) ∧
    (∀ x, due → OneShard p x → x.waits = [] → Completes (.roundBoundary n) s fun u =>
      u.ctxs = s.ctxs ∧
      OnlyPool s u n.val { p with
        round := p.round + 1
        shards := [{ x with
          admitted := 0, removed := 0
          summary := ⟨x.chip.head?.map (fun e => e.key), none, x.chip.length, x.held.length⟩ }] }) ∧
    (∀ w, due → (∀ x ∈ p.shards, x.chip = [] ∧ x.scree = [] ∧ x.held = []) → (p.shards.flatMap fun x => x.waits) = [w] →
      p.s = 1 ∨ NoTaskWaits s → Completes (.roundBoundary n) s fun u =>
        OtherCtxs s u w.agent ∧
        Answered w.d [0, 0, toWord ((p.round + 1) % 2 ^ 32 * 2 ^ 16 + 2 ^ 62)] (s.ctx w.agent) (u.ctx w.agent) ∧
        OnlyPool s u n.val { p with
          round := p.round + 1, threshold := none
          shards := p.shards.map fun x => { x with admitted := 0, removed := 0, waits := [], summary := ⟨none, none, 0, 0⟩ } })

/-! ### Task graphs (R284 to R292) -/

/-- R287 to R289: task.next takes the task that its pool yields, if its type fits the arena: state running, the allotment
and the task recorded, its address, offset and arguments in six registers. With nothing in flight it gives 0 and reason
0; without waiting, reason 1 when no task is ready and 2 behind a head task; else it parks at the tail of the tile's
order. A context that holds a task traps PROT with it, a gang without a pool PROT, a run past x31 ILLEGAL. The allocator
lies in the tile record as log entry 16 says (DESIGN CHOICE). -/
def Sys2Proof.Claims.TaskNext : Prop :=
  ∀ (s : State) (t : Fin 900) (f : Fin 4) (k : Fin 11) (d a : BitVec 5) (n : Nat) (g : Gang),
    s.cur = .facet t f k → s.latch.rep = none →
    let word := s.latch.word.zeroExtend 64
    let slot := 8 * (11 * f.val + k.val)
    let held := recordAt s t (0x3A0 + slot) 8
    let head := recordAt s t 0x108 8
    let base := recordAt s t 0x100 4
    let limit := recordAt s t 0x104 4
    let empty := ∀ i, i < 44 → recordAt s t (0x3A0 + 8 * i) 8 = 0
    let only := fun (u : State) => u = { s with ctxs := u.ctxs, tiles := u.tiles } ∧ OtherCtxs s u s.cur
    (26 < d.toNat → Traps (.taskNext d a) s 0x01 word) ∧
    (d.toNat ≤ 26 → (s.tile t.val).gang = some n → s.gangs.find n = some g → g.pool = 0xFF → Traps (.taskNext d a) s 0x07 word) ∧
    (d.toNat ≤ 26 → (s.tile t.val).gang = some n → s.gangs.find n = some g → g.pool ≠ 0xFF → held ≠ 0 →
      Traps (.taskNext d a) s 0x07 (toWord held)) ∧
    ∀ p x, d.toNat ≤ 26 → PoolGang s t n g p x → held = 0 →
      (∀ e rest pa, x.chip = e :: rest → head = 0 → empty → s.unitPa e.payload 2 = .ok pa →
        let type := s.mem.read (pa + 18) 1
        let entry := recordAt s t (0x140 + 4 * type) 4
        let size := (entry % 2 ^ 22 + 255) / 256 * 256
        type < 64 → 2 ^ 31 ≤ entry → base + size ≤ limit → Completes (.taskNext d a) s fun u =>
          u = { s with ctxs := u.ctxs, pools := u.pools, tiles := u.tiles, mem := u.mem } ∧ OtherCtxs s u s.cur ∧
          (∀ m, u.tile m = s.tile m) ∧ OtherPools s u g.pool ∧
          u.pool g.pool = some { p with shards := [{ x with chip := rest, removed := x.removed + 1 }] } ∧
          Answered d [e.payload, toWord base, toWord (s.mem.read (pa + 32) 8), toWord (s.mem.read (pa + 40) 8),
            toWord (s.mem.read (pa + 48) 8), toWord (s.mem.read (pa + 56) 8)] s.c u.c ∧
          u.mem.read (pa + 16) 1 = 3 ∧ recordAt u t (0x240 + slot) 8 = base + size * 2 ^ 32 ∧
          recordAt u t (0x3A0 + slot) 8 = e.payload.toNat ∧
          ∀ l, l ≠ pa + 16 → (l < recordLoc t (0x240 + slot) ∨ recordLoc t (0x248 + slot) ≤ l) →
            (l < recordLoc t (0x3A0 + slot) ∨ recordLoc t (0x3A8 + slot) ≤ l) → u.mem.byte l = s.mem.byte l) ∧
      (x.chip = [] → head = 0 → p.tasks = 0 → Completes (.taskNext d a) s fun u =>
        only u ∧ (∀ m, u.tile m = s.tile m) ∧ Answered d [0, 0] s.c u.c) ∧
      (x.chip = [] → head = 0 → p.tasks ≠ 0 → bit (s.c.getX a) 0 = false → Completes (.taskNext d a) s fun u =>
        only u ∧ (∀ m, u.tile m = s.tile m) ∧ Answered d [0, 1] s.c u.c) ∧
      (head ≠ 0 → empty → limit < base + recordAt s t 0x110 4 → bit (s.c.getX a) 0 = false → Completes (.taskNext d a) s fun u =>
        only u ∧ (∀ m, u.tile m = s.tile m) ∧ Answered d [0, 2] s.c u.c) ∧
      (x.chip = [] → head = 0 → p.tasks ≠ 0 → bit (s.c.getX a) 0 = true → Completes (.taskNext d a) s fun u =>
        only u ∧ u.c = { s.c with run := .parked .task } ∧ OtherTiles s u t.val ∧
        u.tile t.val = { s.tile t.val with taskOrder := [⟨s.cur, d⟩] })

/-- R288, R290 and R294: task.done of the held task, a release, marks it done, frees its allotment and asks its die's task unit
for the decrements of its successors and join, of which the last ends the task's flight; with none it ends at once.
task.fail marks the task failed and pushes its record to the region's fault queue, with the gang's fault domain in byte 34
(R361; DEDUCED, log entry 71). Another TCB traps PROT with its
address, a misaligned one ALIGN. -/
def Sys2Proof.Claims.TaskDoneAndFail : Prop :=
  ∀ (s : State) (t : Fin 900) (f : Fin 4) (k : Fin 11) (a b : BitVec 5) (n : Nat) (g : Gang) (p : Pool) (x : Shard) (pa : Nat),
    s.cur = .facet t f k → s.latch.rep = none → PoolGang s t n g p x →
    let tcb := s.c.getX a
    let info := s.c.getX b
    let slot := 8 * (11 * f.val + k.val)
    let held := recordAt s t (0x3A0 + slot) 8
    let ends := fun (u : State) (state : Nat) =>
      OtherCtxs s u s.cur ∧ u.c = { s.c with pc := follows s } ∧ (∀ m, u.tile m = s.tile m) ∧ OtherPools s u g.pool ∧
      u.mem.read (pa + 16) 1 = state ∧ recordAt u t (0x240 + slot) 8 = 0 ∧ recordAt u t (0x3A0 + slot) 8 = 0 ∧
      ∀ l, l ≠ pa + 16 → (l < recordLoc t (0x240 + slot) ∨ recordLoc t (0x248 + slot) ≤ l) →
        (l < recordLoc t (0x3A0 + slot) ∨ recordLoc t (0x3A8 + slot) ≤ l) → u.mem.byte l = s.mem.byte l
    let nsucc := s.mem.read (pa + 20) 1
    let jptr := s.mem.read (pa + 8) 8
    let queue := s.queue g.fq
    (tcb.toNat % 128 ≠ 0 → Traps (.taskDone a) s 0x05 tcb ∧ Traps (.taskFail a b) s 0x05 tcb) ∧
    (FindsTcb s tcb pa → held ≠ tcb.toNat → Traps (.taskDone a) s 0x07 tcb ∧ Traps (.taskFail a b) s 0x07 tcb) ∧
    (FindsTcb s tcb pa → held = tcb.toNat → Releases s →
      (nsucc = 0 → jptr = 0 → Completes (.taskDone a) s fun u =>
        u = { s with ctxs := u.ctxs, mem := u.mem, pools := u.pools, tiles := u.tiles } ∧ ends u 4 ∧
        u.pool g.pool = some { p with tasks := p.tasks - 1 }) ∧
      (nsucc = 1 → jptr ≠ 0 → Completes (.taskDone a) s fun u =>
        u = { s with
          ctxs := u.ctxs, mem := u.mem, tiles := u.tiles, taskUnits := u.taskUnits, nextId := s.nextId + 2 } ∧ ends u 4 ∧
        ∀ v : Fin 4, u.taskUnits[v] = s.taskUnits[v] ++
          if v.val = t.val % 30 / 15 + 2 * (t.val / 450) then
            [⟨s.nextId, s.cur, toWord (s.mem.read (pa + 64) 8), false, none⟩,
             ⟨s.nextId + 1, s.cur, toWord jptr, true, some g.pool⟩]
          else []) ∧
      (queue.open_ = true → queue.rid = g.rid → queue.scount = 0 → queue.items.length < 64 → queue.waiters = [] →
        (g.fq = 0 → s.mgmt.records.held = []) → Completes (.taskFail a b) s fun u =>
          u = { s with ctxs := u.ctxs, mem := u.mem, pools := u.pools, tiles := u.tiles, queues := u.queues } ∧ ends u 5 ∧
          u.pool g.pool = some { p with tasks := p.tasks - 1 } ∧ OtherQueues s u g.fq ∧
          ∃ r, u.queue g.fq = { queue with items := queue.items ++ [r], pushes := queue.pushes + 1 } ∧
            recBytes r 0 1 = 1 ∧ recBytes r 1 1 = bits info 7 0 ∧ recBytes r 2 2 = n % 2 ^ 16 ∧ recBytes r 4 2 = t.val ∧
            recBytes r 6 2 = 16 * f.val + k.val ∧ recBytes r 8 8 = tcb.toNat ∧ recBytes r 16 8 = info.toNat ∧
            recBytes r 24 10 = 0 ∧ recBytes r 34 1 = g.fdom % 2 ^ 8 ∧ recBytes r 35 29 = 0))

/-- R286, R288 and R291: task.rearm releases a done or failed TCB, or fails it with a record of type 1 where its pool is not
open; task.spawn writes the counters and arms a TCB that is not ready, held or running, releases it when both are 0, and
adds 1 to the join of jptr where bit 63 asks for it. Any other state traps REARMBUSY with the address. -/
def Sys2Proof.Claims.TaskRearmAndSpawn : Prop :=
  ∀ (s : State) (t : Fin 900) (f : Fin 4) (k : Fin 11) (a b : BitVec 5) (pa : Nat), s.cur = .facet t f k →
    s.latch.rep = none →
    let tcb := s.c.getX a
    FindsTcb s tcb pa → Releases s →
    let v := s.c.getX b
    let state := s.mem.read (pa + 16) 1
    let jptr := s.mem.read (pa + 8) 8
    let goes := fun (u : State) => OtherCtxs s u s.cur ∧ u.c = { s.c with pc := follows s }
    let busy := state = 1 ∨ state = 2 ∨ state = 3
    (state = 4 ∨ state = 5 → PoolTakes s pa → Completes (.taskRearm a) s fun u =>
      u = { s with ctxs := u.ctxs, mem := u.mem, pools := u.pools, tiles := u.tiles } ∧ goes u ∧ Released s u tcb pa ∧
      u.mem.read pa 8 = s.mem.read pa 8) ∧
    (state = 4 ∨ state = 5 → s.pool (s.mem.read (pa + 21) 1) = none → HoldsRecord s → Completes (.taskRearm a) s fun u =>
      u = { s with ctxs := u.ctxs, mem := u.mem, mgmt := u.mgmt } ∧ goes u ∧ u.mem.read (pa + 16) 1 = 5 ∧
      OtherBytes s u (pa + 16) 1 ∧
      ∃ r, u.mgmt = moreRecords s r ∧ recBytes r 0 2 = 0x0701 ∧ recBytes r 8 8 = tcb.toNat) ∧
    (state ≠ 4 → state ≠ 5 → Traps (.taskRearm a) s 0x17 tcb) ∧
    (¬busy → v.toNat % 2 ^ 63 ≠ 0 → bit v 63 = false ∨ jptr = 0 → Completes (.taskSpawn a b) s fun u =>
      u = { s with ctxs := u.ctxs, mem := u.mem } ∧ goes u ∧ u.mem.read pa 8 = v.toNat % 2 ^ 63 ∧
      u.mem.read (pa + 16) 1 = 0 ∧
      ∀ l, (l < pa ∨ pa + 8 ≤ l) → l ≠ pa + 16 → u.mem.byte l = s.mem.byte l) ∧
    (∀ j, ¬busy → v.toNat % 2 ^ 63 ≠ 0 → bit v 63 = true → jptr ≠ 0 → jptr % 128 = 0 → s.unitPa (toWord jptr) 2 = .ok j →
      pa + 128 ≤ j ∨ j + 128 ≤ pa → Completes (.taskSpawn a b) s fun u =>
        u = { s with ctxs := u.ctxs, mem := u.mem } ∧ goes u ∧ u.mem.read pa 8 = v.toNat % 2 ^ 63 ∧
        u.mem.read (pa + 16) 1 = 0 ∧ u.mem.read (j + 4) 4 = (s.mem.read (j + 4) 4 + 1) % 2 ^ 32 ∧
        ∀ l, (l < pa ∨ pa + 8 ≤ l) → l ≠ pa + 16 → (l < j + 4 ∨ j + 8 ≤ l) → u.mem.byte l = s.mem.byte l) ∧
    (¬busy → v = 0 → PoolTakes s pa → Completes (.taskSpawn a b) s fun u =>
      u = { s with ctxs := u.ctxs, mem := u.mem, pools := u.pools, tiles := u.tiles } ∧ goes u ∧ Released s u tcb pa ∧
      u.mem.read pa 8 = 0) ∧
    (busy → Traps (.taskSpawn a b) s 0x17 tcb)

/-- R286 and R290: the oldest decrement of a task unit wraps its counter by one, and releases the TCB when it takes the counter from
1 to 0 while the other is 0 and the TCB is armed; the last of a report ends the task's flight. -/
def Sys2Proof.Claims.TaskDecrement : Prop :=
  ∀ (s : State) (v : Fin 4) (x : Decrement) (rest : List Decrement) (pa : Nat), s.taskUnits[v] = x :: rest →
    x.tcb.toNat % 128 = 0 → s.unitPa x.tcb 2 = .ok pa → NoTaskWaits s →
    let off := if x.join then 4 else 0
    let old := s.mem.read (pa + off) 4
    let releases := old = 1 ∧ s.mem.read (pa + 4 - off) 4 = 0 ∧ s.mem.read (pa + 16) 1 = 0
    let units := fun (u : State) => ∀ w : Fin 4, u.taskUnits[w] = if w = v then rest else s.taskUnits[w]
    let counted := fun (u : State) => u.mem.read (pa + off) 4 = (old + (2 ^ 32 - 1)) % 2 ^ 32
    (¬releases → x.last = none → Completes (.taskDecrement v) s fun u =>
      u = { s with mem := u.mem, taskUnits := u.taskUnits } ∧ units u ∧ counted u ∧ OtherBytes s u (pa + off) 4) ∧
    (∀ n p, ¬releases → x.last = some n → s.pool n = some p → Completes (.taskDecrement v) s fun u =>
      u = { s with mem := u.mem, taskUnits := u.taskUnits, pools := u.pools, tiles := u.tiles } ∧ units u ∧ counted u ∧
      OtherBytes s u (pa + off) 4 ∧ (∀ m, u.tile m = s.tile m) ∧ OtherPools s u n ∧
      u.pool n = some { p with tasks := p.tasks - 1 }) ∧
    (releases → x.last = none → PoolTakes s pa → Completes (.taskDecrement v) s fun u =>
      u = { s with mem := u.mem, taskUnits := u.taskUnits, pools := u.pools, tiles := u.tiles } ∧ units u ∧ counted u ∧
      Released s u x.tcb pa ∧ u.mem.read pa 8 = 0)

/-! ### Gangs (R268 to R275) -/

/-- R272 and R288: gang.launch copies the launch record at x[a] to the dispatch unit of its crest core's die and gives the ticket; a
unit that holds 16 records takes no more, and gives -1. At user privilege it traps PRIV, on a facet PROT; a misaligned
address traps ALIGN. -/
def Sys2Proof.Claims.GangLaunch : Prop :=
  ∀ (s : State) (d a : BitVec 5), s.latch.rep = none →
    let va := s.c.getX a
    let word := s.latch.word.zeroExtend 64
    (s.c.kernel = false → Traps (.gangLaunch d a) s 0x04 word) ∧
    (∀ t f k, s.cur = .facet t f k → s.c.kernel = true → Traps (.gangLaunch d a) s 0x07 word) ∧
    ∀ (k : Fin 32) (c : Fin 2), s.cur = .crest k c → s.c.kernel = true →
      (va.toNat % 64 ≠ 0 → Traps (.gangLaunch d a) s 0x05 va) ∧
      ∀ (v : Fin 4) pa, v.val = k.val / 8 → va.toNat % 64 = 0 → bits va 63 60 ≠ 0 → bits va 63 60 ≠ 15 →
        s.check s.cur 0 va 64 0 true = .ok (.loc pa) → Releases s → s.softErrors = [] →
        let unit := s.dispatch[v]
        let same := fun (u : State) =>
          u = { s with ctxs := u.ctxs, tiles := u.tiles, dispatch := u.dispatch } ∧ OtherCtxs s u s.cur ∧
          OtherTiles s u (1000 + k.val) ∧ ∀ w : Fin 4, w ≠ v → u.dispatch[w] = s.dispatch[w]
        (unit.launches.length < 16 → s.mgmt.crashed = false → Completes (.gangLaunch d a) s fun u =>
          same u ∧ SetsX d (unit.ticket.setWidth 64) s.c u.c ∧ u.c = { s.c with x := u.c.x, pc := follows s } ∧
          u.dispatch[v] = { unit with
            ticket := unit.ticket + 1
            launches := unit.launches ++
              [{ ticket := unit.ticket, core := k, ctx := c, rec_ := BitVec.ofNat 512 (s.mem.read pa 64), checked := false
                 rid := 0, budget := 0, fdom := 0, fq := 0, terms := ⟨0, 0, 0, 0, 0⟩, image := [], tensors := [], types := [] }] }) ∧
        (16 ≤ unit.launches.length → Completes (.gangLaunch d a) s fun u =>
          same u ∧ u.dispatch = s.dispatch ∧ SetsX d 0xFFFF_FFFF_FFFF_FFFF s.c u.c ∧
          u.c = { s.c with x := u.c.x, pc := follows s })

/-- R275 and R288: gang.exit of a control context that owns no mutex, holds no task and has no live bead is a release and
ends the context; the gang is ending once its last one has. A bead, an owner, a holder and a crest core trap PROT; live
beads make it park. The held task lies as log entry 16 says (DESIGN CHOICE). -/
def Sys2Proof.Claims.GangExit : Prop :=
  ∀ (s : State), s.latch.rep = none →
    let word := s.latch.word.zeroExtend 64
    (∀ k c, s.cur = .crest k c → Traps .gangExit s 0x07 word) ∧
    (∀ t f k, s.cur = .facet t f k → k ≠ 0 → Traps .gangExit s 0x07 word) ∧
    ∀ (t : Fin 900) (f : Fin 4), s.cur = .facet t f 0 →
      let held := recordAt s t (0x3A0 + 88 * f.val) 8
      let owns := fun (m : Fin 16) => (s.tile t.val).mutexes[m].owner = some (BitVec.ofNat 6 (16 * f.val))
      let beads := ∃ k : Fin 11, k ≠ 0 ∧ (s.ctx (.facet t f k)).run ≠ .notLive
      (∀ m, owns m → (∀ j, j < m → ¬owns j) → Traps .gangExit s 0x07 (toWord m.val)) ∧
      ((∀ m, ¬owns m) → held ≠ 0 → Traps .gangExit s 0x07 (toWord held)) ∧
      ((∀ m, ¬owns m) → held = 0 → beads → Parks .gangExit s .beads) ∧
      ((∀ m, ¬owns m) → held = 0 → ¬beads → Releases s →
        ((s.tile t.val).gang = none → Completes .gangExit s fun u =>
          OnlyIssuer s u ∧ u.c = { s.c with run := .notLive }) ∧
        ∀ n g, (s.tile t.val).gang = some n → s.gangs.find n = some g → OneTile g t →
          let last := ∀ h : Fin 4, h ≠ f → (s.ctx (.facet t h 0)).run = .notLive
          (¬last → Completes .gangExit s fun u => OnlyIssuer s u ∧ u.c = { s.c with run := .notLive }) ∧
          (last → Completes .gangExit s fun u =>
            u = { s with ctxs := u.ctxs, gangs := u.gangs, mem := u.mem } ∧ OtherCtxs s u s.cur ∧
            u.c = { s.c with run := .notLive } ∧ u.gangs.find n = some { g with phase := .ending } ∧
            (∀ m, m ≠ n → u.gangs.find m = s.gangs.find m) ∧ OtherBytes s u (Config.slotTable + 32 * n) 32 ∧
            u.mem.read (Config.slotTable + 32 * n + 4) 1 = 4))

/-- R272: a launch record whose fields break the first row of the checks is refused with message 0xF3 and ILLEGAL; one
that keeps it, with a root RCB, a readable image and a budget of its size, is checked, and its region's terms are read;
one beyond its budget is refused with QUOTA. Each message carries the ticket, and its low half. -/
def Sys2Proof.Claims.LaunchCheck : Prop :=
  ∀ (s : State) (v : Fin 4) (x : Launch), s.dispatch[v].launches = [x] → x.checked = false → s.freeze = false →
    let r := x.rec_
    let refused := fun (status : Nat) => Completes (.launchCheck v x.ticket) s fun u =>
      u = { s with dispatch := u.dispatch } ∧ (∀ w : Fin 4, w ≠ v → u.dispatch[w] = s.dispatch[w]) ∧
      u.dispatch[v] = { s.dispatch[v] with
        launches := []
        out := s.dispatch[v].out ++ [⟨x.core, x.ctx, toWord (x.ticket.toNat % 2 ^ 16 + 0xF3 * 2 ^ 16 + status * 2 ^ 24),
          toWord x.ticket.toNat⟩] }
    (BadLaunch r → refused 1) ∧
    (PlainLaunch r → recBytes r 16 8 = 0 → refused 1) ∧
    ∀ root pa, PlainLaunch r → recBytes r 16 8 ≠ 0 → recBytes r 16 8 % 128 = 0 → RootAt s (toWord (recBytes r 16 8)) root →
      s.unitPa (toWord (recBytes r 0 8)) 0 = .ok pa → 0 < recBytes r 8 4 →
      recBytes r 0 8 % 0x10000 + recBytes r 8 4 ≤ 0x10000 → s.signet.rsg = false →
      (s.mem.read (root + 16) 4 < recBytes r 40 1 * recBytes r 41 1 → refused 0x0C) ∧
      (recBytes r 40 1 * recBytes r 41 1 ≤ s.mem.read (root + 16) 4 → Completes (.launchCheck v x.ticket) s fun u =>
        u = { s with dispatch := u.dispatch } ∧ (∀ w : Fin 4, w ≠ v → u.dispatch[w] = s.dispatch[w]) ∧
        u.dispatch[v] = { s.dispatch[v] with
          launches := [{ x with
            checked := true, image := s.mem.bytes pa (recBytes r 8 4), tensors := [], types := []
            rid := BitVec.ofNat 16 (s.mem.read (root + 12) 2), budget := s.mem.read (root + 16) 4
            fdom := s.mem.read (root + 10) 1, fq := s.mem.read (root + 14) 2, terms := rootTerms s root }] })

/-- R29, R80, R161, R166, R273 and R274: a checked launch of one tile binds to a free slot and a free tile: bind record,
image at cbase and zeros up to climit, control contexts at the entry point with their stacks, no other context live, and
message 0xF1. A busy tile binds nothing. The local-memory budget covers 4 MiB, and a launch elsewhere for a region of
higher priority that could bind goes first (DEDUCED, log entry 66). -/
def Sys2Proof.Claims.GangBind : Prop :=
  ∀ (s : State) (v : Fin 4) (x : Launch) (slot : Fin 256) (x0 y0 : Fin 30) (t : Fin 900), s.dispatch[v].launches = [x] →
    x.checked = true → s.freeze = false → s.mgmt.mapFail = false → t.val = y0.val * 30 + x0.val →
    let r := x.rec_
    let cbase := recBytes r 32 4
    let climit := recBytes r 36 4
    PlainLaunch r → recBytes r 40 1 = 1 → recBytes r 41 1 = 1 → 1 ≤ x.budget → 0x40_0000 ≤ x.terms.lmem → x.image.length ≤ climit - cbase →
    x.tensors = [] → s.gangs.cells = [] →
    (∀ (w : Fin 4) (y : Launch), y ∈ s.dispatch[w].launches → y.checked = true → PlainLaunch y.rec_ → recBytes y.rec_ 40 1 = 1 →
      recBytes y.rec_ 41 1 = 1 → 1 ≤ y.budget → 0x40_0000 ≤ y.terms.lmem → x.terms.prio < y.terms.prio →
      exec (.gangBind v x.ticket slot x0 y0) s = .next s) ∧
    (((s.tile t.val).gang ≠ none ∨ (s.tile t.val).lasting = true) → exec (.gangBind v x.ticket slot x0 y0) s = .next s) ∧
    ((s.tile t.val).gang = none → (s.tile t.val).lasting = false →
      (∀ (w : Fin 4) (y : Launch), y ∈ s.dispatch[w].launches → y.terms.prio ≤ x.terms.prio) →
      Completes (.gangBind v x.ticket slot x0 y0) s fun u =>
      (∀ a, (∀ f k, a ≠ .facet t f k) → u.ctx a = s.ctx a) ∧ OtherTiles s u t.val ∧ OtherMms s u t.val ∧
      (∀ w : Fin 4, w ≠ v → u.dispatch[w] = s.dispatch[w]) ∧
      u.dispatch[v] = { s.dispatch[v] with
        launches := []
        out := s.dispatch[v].out ++
          [⟨x.core, x.ctx, toWord (x.ticket.toNat % 2 ^ 16 + 0xF1 * 2 ^ 16), toWord slot.val⟩] } ∧
      (∃ g, u.gangs.cells = [(slot.val, g)] ∧ OneTile g t ∧ g.phase = .running ∧ g.rid = x.rid ∧ g.ticket = x.ticket ∧
        g.rcb = toWord (recBytes r 16 8) ∧ g.pool = 0xFF ∧ g.budget = x.budget ∧ g.terms = x.terms) ∧
      (∃ b, u.mem.bytes (Config.slotTable + 32 * slot.val) 32 = b ∧
        fromBytes (b.take 8) = x0.val + y0.val * 2 ^ 8 + 2 ^ 16 + 2 ^ 24 + 2 * 2 ^ 32 + x.rid.toNat * 2 ^ 48) ∧
      u.mem.bytes (lmLoc t.val cbase) (climit - cbase) =
        x.image ++ List.replicate (climit - cbase - x.image.length) 0 ∧
      (u.tile t.val).gang = some slot.val ∧ (u.tile t.val).region = toWord (recBytes r 16 8) ∧
      (u.tile t.val).win = #v[0xC03C_0000_0000_0000, 0, 0, 0] ∧ (∀ n, (u.tile t.val).tensor n = 0) ∧
      (∀ f : Fin 4,
        let c := u.ctx (.facet t f 0)
        c.run = .ready ∧ c.pc = toWord (cbase + recBytes r 12 4) ∧ c.kernel = false ∧
        (∀ q : BitVec 5, c.getX q = if q = 30 then toWord (0x3C_0000 - 0x1_8000 * f.val) else 0) ∧
        (u.facet t f).fenced = false ∧ (u.ni (.facet t f)).mail = []) ∧
      ∀ (f : Fin 4) (k : Fin 11),
        let c := u.ctx (.facet t f k)
        (k ≠ 0 → c.run = .notLive) ∧ c.rank = 0 ∧ c.gangid = toWord slot.val ∧ c.gangw = 1 ∧ c.gangh = 1 ∧
        c.cwin = toWord (cbase + climit * 2 ^ 32) ∧
        c.srgen = 0x9E37_79B9_7F4A_7C15 ^^^ toWord ((f.val * 11 + k.val) * 2))

/-- R272 and R275: a gang of one tile whose control contexts have exited and whose copy queues are empty ends: slot and
tile are free, the record 32 zero bytes (DESIGN CHOICE, log entry 65), and message 0xF2 goes out. A dispatch unit's
message is placed in its mailbox once it has room, 32 places on a crest core (DEDUCED, log entry 56). -/
def Sys2Proof.Claims.GangEndAndMessages : Prop :=
  (∀ (s : State) (slot : Fin 256) (g : Gang) (t : Fin 900) (v : Fin 4), s.gangs.find slot.val = some g → OneTile g t →
    g.unit_ = v.val → g.core < 32 → g.ctx < 2 →
    let done := g.phase ≠ .saved ∧ (∀ f : Fin 4, (s.ctx (.facet t f 0)).run = .notLive) ∧
      ∀ (f : Fin 4) (q : Fin 2), (s.ni (.facet t f)).cq[q] = []
    (¬done → exec (.gangEnd slot) s = .next s) ∧
    (done → Completes (.gangEnd slot) s fun u =>
      u = { s with gangs := u.gangs, mem := u.mem, tiles := u.tiles, dispatch := u.dispatch } ∧
      u.gangs.find slot.val = none ∧ (∀ m, m ≠ slot.val → u.gangs.find m = s.gangs.find m) ∧ OtherTiles s u t.val ∧
      (u.tile t.val) = { s.tile t.val with gang := none, region := 0, preempt := false } ∧
      OtherBytes s u (Config.slotTable + 32 * slot.val) 32 ∧ u.mem.read (Config.slotTable + 32 * slot.val) 32 = 0 ∧
      (∀ w : Fin 4, w ≠ v → u.dispatch[w] = s.dispatch[w]) ∧
      ∃ m, u.dispatch[v] = { s.dispatch[v] with out := s.dispatch[v].out ++ [m] } ∧ m.core.val = g.core ∧ m.ctx.val = g.ctx ∧
        m.lo = toWord (g.ticket.toNat % 2 ^ 16 + 0xF2 * 2 ^ 16) ∧ m.hi = toWord slot.val)) ∧
  ∀ (s : State) (v : Fin 4) (m : DispatchMsg), s.dispatch[v].out = [m] →
    let o := Owner.crest m.core
    let room := ((s.ni o).mail.filter fun e => !e.reserve).length < 32
    (¬room → exec (.dispatchMessage v) s = .next s) ∧
    (room → Completes (.dispatchMessage v) s fun u =>
      u = { s with dispatch := u.dispatch, nis := u.nis } ∧ (∀ w : Fin 4, w ≠ v → u.dispatch[w] = s.dispatch[w]) ∧
      u.dispatch[v] = { s.dispatch[v] with out := [] } ∧ OtherNis s u o ∧
      u.ni o = { s.ni o with
        mail := (s.ni o).mail ++ [{ ctx := m.ctx.val, lo := m.lo, hi := m.hi, held := false, reserve := false }] })

/-- R269 and R270: at a quantum's start the firmware reads the RCB of a gang's region again, here a root with values of
its own, and for a checked launch that waits too. Where the region's gangs hold more tiles than its budget now allows, it
pre-empts gangs, here the only one (R28; which ones is a DESIGN CHOICE, log entry 66). -/
def Sys2Proof.Claims.QuantumStart : Prop :=
  (∀ (s : State) (slot : Fin 256) (g : Gang) (root : Nat), s.gangs.find slot.val = some g → RootAt s g.rcb root →
    (∀ v : Fin 4, s.dispatch[v].launches = []) →
    let budget := s.mem.read (root + 16) 4
    let g' := { g with
      budget := budget, fdom := s.mem.read (root + 10) 1, fq := s.mem.read (root + 14) 2, terms := rootTerms s root }
    let reads := fun (u : State) => (∀ m, m ≠ slot.val → u.gangs.find m = s.gangs.find m) ∧ u.gangs.find slot.val = some g'
    (State.heldTiles { s with gangs := s.gangs.put slot.val g' } g.rid ≤ budget → Completes (.quantumStart slot) s fun u =>
      u = { s with gangs := u.gangs } ∧ reads u) ∧
    (∀ (t : Fin 900) (f : Fin 4), s.gangs.cells = [(slot.val, g)] → g.phase = .running → OneTile g t → budget = 0 →
      (s.ctx (.facet t f 0)).run = .ready → (s.ctx (.facet t f 0)).pe = false → Completes (.quantumStart slot) s fun u =>
        u = { s with gangs := u.gangs, tiles := u.tiles } ∧ reads u ∧ OtherTiles s u t.val ∧
        u.tile t.val = { s.tile t.val with preempt := true })) ∧
  ∀ (s : State) (slot : Fin 256) (v : Fin 4) (x : Launch) (root : Nat), s.gangs.cells = [] → s.dispatch[v].launches = [x] →
    (∀ w : Fin 4, w ≠ v → s.dispatch[w].launches = []) → x.checked = true → RootAt s (toWord (recBytes x.rec_ 16 8)) root →
    Completes (.quantumStart slot) s fun u =>
      u = { s with dispatch := u.dispatch } ∧ (∀ w : Fin 4, w ≠ v → u.dispatch[w] = s.dispatch[w]) ∧
      u.dispatch[v] = { s.dispatch[v] with launches := [{ x with
        rid := BitVec.ofNat 16 (s.mem.read (root + 12) 2), budget := s.mem.read (root + 16) 4, fdom := s.mem.read (root + 10) 1
        fq := s.mem.read (root + 14) 2, terms := rootTerms s root }] }

/-! ### The bridge of a crest core (R319 to R321, R341 to R351) -/

/-- R341 and R342: ic.get gives the two doublewords of an entry, ic.set and ic.clr, releases, replace them. A misaligned address traps
ALIGN, a run past x31 ILLEGAL, and on a facet every bridge instruction traps FEATURE. -/
def Sys2Proof.Claims.CacheEntries : Prop :=
  ∀ (s : State) (d a b : BitVec 5), s.latch.rep = none →
    let va := s.c.getX a
    let word := s.latch.word.zeroExtend 64
    (∀ t f k, s.cur = .facet t f k → ∀ i ∈ ([.txEnter a b, .txResume a, .txResumeSkip a, .icGet d a, .icSet a b, .icClr a,
      .holdAdd d a b, .txRelq d, .txRelqRel a, .txRelqStat d, .txRelqCfg a, .txClsver d a] : List Instr), Traps i s 0x03 word) ∧
    ∀ k c, CrestRuns s k c →
      (∀ pa, va.toNat % 16 = 0 → Reach s k va 16 pa →
        (d.toNat < 31 → Completes (.icGet d a) s fun u =>
          OnlyCrest s u k 0 0 ∧ SetsRun d [toWord (s.mem.read pa 8), toWord (s.mem.read (pa + 8) 8)] s.c u.c ∧
          u.c = { s.c with x := u.c.x, pc := follows s }) ∧
        (b.toNat < 31 → Releases s → Completes (.icSet a b) s fun u =>
          OnlyCrest s u k pa 16 ∧ u.mem.read pa 8 = (s.c.getX b).toNat ∧
          u.mem.read (pa + 8) 8 = (s.c.getX (b + 1)).toNat ∧ u.c = { s.c with pc := follows s }) ∧
        (Releases s → Completes (.icClr a) s fun u =>
          OnlyCrest s u k pa 16 ∧ u.mem.read pa 16 = 0 ∧ u.c = { s.c with pc := follows s })) ∧
      (va.toNat % 16 ≠ 0 → (d.toNat < 31 → Traps (.icGet d a) s 0x05 va) ∧ (b.toNat < 31 → Traps (.icSet a b) s 0x05 va) ∧
        Traps (.icClr a) s 0x05 va) ∧
      (d.toNat = 31 → Traps (.icGet d a) s 0x01 word) ∧ (b.toNat = 31 → Traps (.icSet a b) s 0x01 word)

/-- R348 and R349: hold.add changes the hold of an object by a signed 16-bit amount and gives the new one; a zombie whose hold comes
to 0 is one no longer and goes to the release queue. No object traps PROT, a result out of range QUOTA. tx.clsver adds 1 to
the version of a class, wrapping, and gives it. -/
def Sys2Proof.Claims.HoldsAndVersions : Prop :=
  ∀ (s : State) (k : Fin 32) (c : Fin 2) (d a b : BitVec 5), CrestRuns s k c →
    let v := s.c.getX a
    let q := s.relq k.val
    let by_ := signedOf 16 (bits (s.c.getX b) 15 0)
    (Plain v → Traps (.holdAdd d a b) s 0x07 v ∧ Traps (.txClsver d a) s 0x07 v) ∧
    (∀ pa, Obj s k v 24 pa → Releases s →
      let hold := s.mem.read (pa + 14) 2
      let zombie := s.mem.read (pa + 12) 1 % 2 = 1
      let next := (hold : Int) + by_
      (next < 0 ∨ 0xFFFF < next → TrapsAfter (.holdAdd d a b) s k 0x0C v) ∧
      (0 < next ∨ (next = 0 ∧ ¬zombie) → next ≤ 0xFFFF → Completes (.holdAdd d a b) s fun u =>
        OnlyCrest s u k (pa + 14) 2 ∧ u.mem.read (pa + 14) 2 = next.toNat ∧ SetsX d (toWord next.toNat) s.c u.c ∧
        u.c = { s.c with x := u.c.x, pc := follows s }) ∧
      (next = 0 → zombie → q.count = 0 → q.chip.length < 64 → Completes (.holdAdd d a b) s fun u =>
        u = { s with ctxs := u.ctxs, tiles := u.tiles, mem := u.mem, dirty := u.dirty, relqs := u.relqs } ∧ OtherCtxs s u s.cur ∧
        OtherTiles s u (1000 + k.val) ∧ u.mem.read (pa + 14) 2 = 0 ∧ u.mem.read (pa + 12) 1 = s.mem.read (pa + 12) 1 - 1 ∧
        (∀ l, l ≠ pa + 12 → (l < pa + 14 ∨ pa + 16 ≤ l) → u.mem.byte l = s.mem.byte l) ∧ SetsX d 0 s.c u.c ∧
        u.c = { s.c with x := u.c.x, pc := follows s } ∧ u.relq k.val = { q with chip := q.chip ++ [v] } ∧
        ∀ j, j ≠ k.val → u.relq j = s.relq j) ∧
      (s.mem.read (pa + 13) 1 ≠ 0x0B ∨ s.mem.read (pa + 16) 8 % 2 = 1 → TrapsAfter (.txClsver d a) s k 0x07 v) ∧
      (s.mem.read (pa + 13) 1 = 0x0B → s.mem.read (pa + 16) 8 % 2 = 0 → Completes (.txClsver d a) s fun u =>
        OnlyCrest s u k (pa + 16) 8 ∧ u.mem.read (pa + 16) 8 = (s.mem.read (pa + 16) 8 + 2) % 2 ^ 64 ∧
        SetsX d (toWord (s.mem.read (pa + 16) 8 + 2) |>.sshiftRight 1) s.c u.c ∧
        u.c = { s.c with x := u.c.x, pc := follows s }))

/-- R321, R350 and R351: tx.relq gives the oldest object of its core's release queue, the scree moving up behind it, or None;
tx.relq.rel lowers an object's count, and at 0 queues it or, with holds, makes it a zombie; tx.relq.stat gives the queue's word
and clears OVF and HERR; tx.relq.cfg of the kernel gives an empty queue its scree. -/
def Sys2Proof.Claims.ReleaseQueues : Prop :=
  ∀ (s : State) (k : Fin 32) (c : Fin 2) (d a : BitVec 5), CrestRuns s k c →
    let v := s.c.getX a
    let q := s.relq k.val
    let only := fun (u : State) (q' : ReleaseQueue) =>
      u = { s with ctxs := u.ctxs, relqs := u.relqs } ∧ OtherCtxs s u s.cur ∧ u.relq k.val = q' ∧
      ∀ j, j ≠ k.val → u.relq j = s.relq j
    let gives := fun (u : State) (w : Word) => SetsX d w s.c u.c ∧ u.c = { s.c with x := u.c.x, pc := follows s }
    (∀ o rest, q.chip = o :: rest → q.count = 0 → Completes (.txRelq d) s fun u => only u { q with chip := rest } ∧ gives u o) ∧
    (∀ o rest pa, q.chip = o :: rest → rest.length < 64 → q.count = 1 →
      s.unitPa (q.base + toWord (8 * (q.head % q.quota))) 0 = .ok pa → Completes (.txRelq d) s fun u =>
        only u { q with chip := rest ++ [toWord (s.mem.read pa 8)], head := q.head + 1, count := 0 } ∧ gives u o) ∧
    (q.chip = [] → q.count = 0 → Completes (.txRelq d) s fun u => OnlyIssuer s u ∧ gives u 0x03) ∧
    (q.chip.length ≤ 64 → q.count < 2 ^ 32 → Completes (.txRelqStat d) s fun u =>
      only u { q with ovf := false, herr := false } ∧
      gives u (toWord (q.chip.length + 2 ^ 7 * q.ovf.toNat + 2 ^ 8 * q.herr.toNat + 2 ^ 16 * q.lost.toNat + 2 ^ 32 * q.count))) ∧
    (Releases s → Plain v → GoesTo (.txRelqRel a) s (follows s)) ∧
    (∀ pa, Releases s → Obj s k v 16 pa →
      let count := s.mem.read (pa + 4) 4
      let hold := s.mem.read (pa + 14) 2
      let on := fun (u : State) => u.c = { s.c with pc := follows s }
      (count = 2 ^ 32 - 1 → Completes (.txRelqRel a) s fun u => OnlyCrest s u k 0 0 ∧ on u) ∧
      (1 < count → count < 2 ^ 32 - 1 → Completes (.txRelqRel a) s fun u =>
        OnlyCrest s u k (pa + 4) 4 ∧ u.mem.read (pa + 4) 4 = count - 1 ∧ on u) ∧
      (count = 1 → hold ≠ 0 → Completes (.txRelqRel a) s fun u =>
        OnlyCrest s u k (pa + 4) 9 ∧ u.mem.read (pa + 4) 4 = 0 ∧ u.mem.read (pa + 8) 4 = s.mem.read (pa + 8) 4 ∧
        u.mem.read (pa + 12) 1 = s.mem.read (pa + 12) 1 / 2 * 2 + 1 ∧ on u) ∧
      (count = 1 → hold = 0 → q.count = 0 → q.chip.length < 64 → Completes (.txRelqRel a) s fun u =>
        u = { s with ctxs := u.ctxs, tiles := u.tiles, mem := u.mem, dirty := u.dirty, relqs := u.relqs } ∧ OtherCtxs s u s.cur ∧
        OtherTiles s u (1000 + k.val) ∧ OtherBytes s u (pa + 4) 4 ∧ u.mem.read (pa + 4) 4 = 0 ∧ on u ∧
        u.relq k.val = { q with chip := q.chip ++ [v] } ∧ ∀ j, j ≠ k.val → u.relq j = s.relq j)) ∧
    (s.c.kernel = false → Traps (.txRelqCfg a) s 0x04 (s.latch.word.zeroExtend 64)) ∧
    (∀ pa, s.c.kernel = true → v.toNat % 16 = 0 → Reach s k v 16 pa → Releases s →
      let base := s.mem.read pa 8
      let quota := s.mem.read (pa + 8) 4
      let good := q.chip = [] ∧ q.count = 0 ∧ quota ≤ 2 ^ 24 ∧ base % 64 = 0 ∧ 0 < base / 2 ^ 60 ∧ base / 2 ^ 60 < 15
      (¬good → TrapsAfter (.txRelqCfg a) s k 0x07 v) ∧
      (good → Completes (.txRelqCfg a) s fun u =>
        u = { s with ctxs := u.ctxs, tiles := u.tiles, relqs := u.relqs } ∧ OtherCtxs s u s.cur ∧
        OtherTiles s u (1000 + k.val) ∧ u.c = { s.c with pc := follows s } ∧ (∀ j, j ≠ k.val → u.relq j = s.relq j) ∧
        u.relq k.val = { q with base := toWord base, quota := quota, head := 0, count := 0, lost := 0 }))

/-- R255 and R348: a HOLDREL lowers the hold of the object that it names, by its cookie, at the crest core that it is for, and is in no
mailbox; too small a hold becomes 0 and sets HERR; a zombie whose hold comes to 0 goes to the core's release queue. -/
def Sys2Proof.Claims.HoldRelease : Prop :=
  ∀ (s : State) (m : Message) (k : Fin 32) (pa : Nat), s.msgs = [m] → s.net = [] → m.dest = .crest k → m.sender = none →
    bits m.lo 23 16 = 0xE0 → bits m.hi 3 0 = 1 → s.check (.crest k 0) 0 (m.hi - 1) 16 2 true = .ok (.loc pa) → pa < 2 ^ 40 →
    s.softErrors = [] →
    let by_ := bits m.lo 15 0
    let hold := s.mem.read (pa + 14) 2
    let zombie := s.mem.read (pa + 12) 1 % 2 = 1
    let q := s.relq k.val
    0 < by_ →
    (by_ < hold ∨ (by_ = hold ∧ ¬zombie) → Completes (.holdrel m.id) s fun u =>
      u = { s with msgs := [], mem := u.mem } ∧ OtherBytes s u (pa + 14) 2 ∧ u.mem.read (pa + 14) 2 = hold - by_) ∧
    (by_ = hold → zombie → s.resetting = false → q.count = 0 → q.chip.length < 64 → Completes (.holdrel m.id) s fun u =>
      u = { s with msgs := [], mem := u.mem, relqs := u.relqs } ∧ u.mem.read (pa + 14) 2 = 0 ∧
      u.mem.read (pa + 12) 1 = s.mem.read (pa + 12) 1 - 1 ∧ OtherBytes s u (pa + 12) 4 ∧
      u.relq k.val = { q with chip := q.chip ++ [m.hi] } ∧ ∀ j, j ≠ k.val → u.relq j = s.relq j) ∧
    (hold < by_ → ¬zombie → Completes (.holdrel m.id) s fun u =>
      u = { s with msgs := [], mem := u.mem, relqs := u.relqs } ∧ OtherBytes s u (pa + 14) 2 ∧
      u.mem.read (pa + 14) 2 = 0 ∧ u.relq k.val = { q with herr := true } ∧ ∀ j, j ≠ k.val → u.relq j = s.relq j)

/-- R343 and R344: tx.enter writes the outermost frame header and None into the registers that are no parameters, and enters bytecode
mode at the function's first instruction; tx.resume and tx.resume.skip go to a bytecode address or past its instruction. A
bad function, a frame past the limit, and an even address trap as stated. -/
def Sys2Proof.Claims.EnterAndResume : Prop :=
  ∀ (s : State) (k : Fin 32) (c : Fin 2) (a b : BitVec 5), CrestRuns s k c →
    let v := s.c.getX a
    let fb := s.c.getX b
    (fb.toNat % 8 ≠ 0 → Traps (.txEnter a b) s 0x05 fb) ∧
    (fb.toNat % 8 = 0 → Plain v → Traps (.txEnter a b) s 0x16 9) ∧
    (∀ po d, fb.toNat % 8 = 0 → Obj s k v 24 po → s.mem.read (po + 13) 1 = 0x08 →
      DescAt s k (toWord (s.mem.read (po + 16) 8)) d →
      ((s.c.xn 21).toNat < fb.toNat + 8 * d.nframe → TrapsAfter (.txEnter a b) s k 0x16 10) ∧
      ∀ ph, fb.toNat + 8 * d.nframe ≤ (s.c.xn 21).toNat → Reach s k (fb - 32) (32 + 8 * d.nframe) ph →
        d.nparam ≤ d.nframe → Completes (.txEnter a b) s fun u =>
          OnlyCrest s u k ph (32 + 8 * d.nframe) ∧ u.mem.read ph 8 = 0 ∧ u.mem.read (ph + 8) 8 = (s.c.pc + 4).toNat ∧
          u.mem.read (ph + 16) 8 = (s.c.xn 20).toNat ∧ u.mem.read (ph + 24) 8 = 0 ∧
          (∀ i, i < d.nframe → u.mem.read (ph + 32 + 8 * i) 8 =
            if d.nparam ≤ i then 0x03 else s.mem.read (ph + 32 + 8 * i) 8) ∧
          u.c = { ((s.c.setXn 18 fb).setXn 20 (toWord (s.mem.read (po + 16) 8))).setXn 19 (toWord d.code) with
            bytecode := true }) ∧
    (bit v 0 = true → Completes (.txResume a) s fun u =>
      OnlyIssuer s u ∧ u.c = { s.c.setXn 19 (v &&& ~~~1) with bytecode := true }) ∧
    (bit v 0 = false → Traps (.txResume a) s 0x05 v ∧ Traps (.txResumeSkip a) s 0x05 v) ∧
    (∀ pa, bit v 0 = true → Reach s k (v - 1) 1 pa →
      let op := s.mem.read pa 1
      (0x27 ≤ op → Leaves (.txResumeSkip a) s k 0x16 2 (v - 1) 0 0 0 0) ∧
      (op < 0x27 → Completes (.txResumeSkip a) s fun u =>
        OnlyCrest s u k 0 0 ∧
        u.c = { s.c.setXn 19 (v - 1 + if op ∈ [5, 6, 7, 8, 9, 10, 0x1B, 0x1C, 0x21] then 6 else 4) with bytecode := true }))

/-! ### Bytecode (R319 to R334, R336 to R339, R346, R347) -/

/-- R328: nop, move, loadk, loadi and drop. -/
def Sys2Proof.Claims.BytecodeMoves : Prop :=
  ∀ (s : State) (k : Fin 32) (c : Fin 2) (d : Desc) (pf : Nat) (a b : BitVec 8) (n : BitVec 16), Bytecode s k c d pf →
    (Completes .tsupixNop s fun u => OnlyCrest s u k 0 0 ∧ u.c = bcNextCtx s) ∧
    (a.toNat < d.nframe →
      Puts (.tsupixLoadi n a) s k pf a.toNat (2 * n.signExtend 64) ∧ Puts (.tsupixDrop a) s k pf a.toNat 0x03 ∧
      (b.toNat < d.nframe → Puts (.tsupixMove b a) s k pf a.toNat (freg s pf b.toNat)) ∧
      ∀ p, n.toNat < d.npool → (d.pool + toWord (8 * n.toNat)).toNat % 8 = 0 → Reach s k (d.pool + toWord (8 * n.toNat)) 8 p →
        Puts (.tsupixLoadk n a) s k pf a.toNat (toWord (s.mem.read p 8)))

/-- R321 and R322: a move of an object over another raises the new one's count, writes the register, and then releases the old
one: a count of 1 comes to 0 and the object goes to the release queue, or with holds becomes a zombie. -/
def Sys2Proof.Claims.CountedWrite : Prop :=
  ∀ (s : State) (k : Fin 32) (c : Fin 2) (d : Desc) (pf pn po : Nat) (a b : BitVec 8), Bytecode s k c d pf →
    a.toNat < d.nframe → b.toNat < d.nframe → Releases s →
    let new := freg s pf b.toNat
    let old := freg s pf a.toNat
    let q := s.relq k.val
    Obj s k new 16 pn → Obj s k old 16 po → Apart pn 16 po 16 → Apart pn 16 pf 2048 → Apart po 16 pf 2048 →
    let count := s.mem.read (pn + 4) 4
    let left := s.mem.read (po + 4) 4
    let hold := s.mem.read (po + 14) 2
    count < 2 ^ 32 - 1 → 0 < left → left < 2 ^ 32 - 1 → q.count = 0 → q.chip.length < 64 →
    Completes (.tsupixMove b a) s fun u =>
      u = { s with ctxs := u.ctxs, tiles := u.tiles, mem := u.mem, dirty := u.dirty, relqs := u.relqs } ∧ OtherCtxs s u s.cur ∧
      OtherTiles s u (1000 + k.val) ∧ u.c = bcNextCtx s ∧ u.mem.read (pf + 8 * a.toNat) 8 = new.toNat ∧
      u.mem.read (pn + 4) 4 = count + 1 ∧ u.mem.read (po + 4) 4 = left - 1 ∧
      u.mem.read (po + 12) 1 = (if left = 1 ∧ hold ≠ 0 then s.mem.read (po + 12) 1 / 2 * 2 + 1 else s.mem.read (po + 12) 1) ∧
      (∀ l, (l < pn + 4 ∨ pn + 8 ≤ l) → (l < po + 4 ∨ po + 8 ≤ l) → l ≠ po + 12 →
        (l < pf + 8 * a.toNat ∨ pf + 8 * a.toNat + 8 ≤ l) → u.mem.byte l = s.mem.byte l) ∧
      u.relq k.val = { q with chip := q.chip ++ if left = 1 ∧ hold = 0 then [old] else [] } ∧
      ∀ j, j ≠ k.val → u.relq j = s.relq j

/-- R326 and R328: the arithmetic of small integers, floored division and its remainder, negation, comparison and truth; a
result that does not fit, another operand, a zero divisor, and every operation without a fast path leave by GUARD. -/
def Sys2Proof.Claims.BytecodeArithmetic : Prop :=
  ∀ (s : State) (k : Fin 32) (c : Fin 2) (d : Desc) (pf : Nat) (a b e : BitVec 8), Bytecode s k c d pf →
    a.toNat < d.nframe → b.toNat < d.nframe → e.toNat < d.nframe →
    let x := freg s pf b.toNat
    let y := freg s pf e.toNat
    let ints := bit x 0 = false ∧ bit y 0 = false
    let truth := fun (p : Prop) [Decidable p] => if p then (0x23 : Word) else 0x13
    let imm := fun (v : Word) => v = 0x03 ∨ v = 0x13 ∨ v = 0x23
    let put := fun (i : Instr) (op : Nat) (r : Int) =>
      (-(2 ^ 62) ≤ r → r < 2 ^ 62 → Puts i s k pf a.toNat (BitVec.ofInt 64 (2 * r))) ∧
      (r < -(2 ^ 62) ∨ 2 ^ 62 ≤ r → GuardA i s k pf op a.toNat 0)
    (ints → put (.tsupixAdd e b a) 0x0B (intOf x + intOf y) ∧ put (.tsupixSub e b a) 0x0C (intOf x - intOf y) ∧
      put (.tsupixMul e b a) 0x0D (intOf x * intOf y) ∧
      (y ≠ 0 → put (.tsupixFloordiv e b a) 0x0F (Int.fdiv (intOf x) (intOf y)) ∧
        put (.tsupixMod e b a) 0x10 (intOf x - intOf y * Int.fdiv (intOf x) (intOf y))) ∧
      (y = 0 → GuardA (.tsupixFloordiv e b a) s k pf 0x0F a.toNat 0 ∧ GuardA (.tsupixMod e b a) s k pf 0x10 a.toNat 0) ∧
      Puts (.tsupixLt e b a) s k pf a.toNat (truth (intOf x < intOf y)) ∧
      Puts (.tsupixLe e b a) s k pf a.toNat (truth (intOf x ≤ intOf y)) ∧
      Puts (.tsupixEq e b a) s k pf a.toNat (truth (x = y))) ∧
    (imm x → imm y → Puts (.tsupixEq e b a) s k pf a.toNat (truth (x = y))) ∧
    (¬ints → ∀ j ∈ ([(.tsupixAdd e b a, 0x0B), (.tsupixSub e b a, 0x0C), (.tsupixMul e b a, 0x0D), (.tsupixFloordiv e b a, 0x0F),
      (.tsupixMod e b a, 0x10), (.tsupixLt e b a, 0x13), (.tsupixLe e b a, 0x14)] : List (Instr × Nat)),
      GuardA j.1 s k pf j.2 a.toNat 0) ∧
    (bit x 0 = false → put (.tsupixNeg b a) 0x12 (-intOf x) ∧ Puts (.tsupixNot b a) s k pf a.toNat (truth (x = 0))) ∧
    (imm x → Puts (.tsupixNot b a) s k pf a.toNat (truth (x ≠ 0x23))) ∧
    ∀ j ∈ ([(.tsupixTruediv e b a, 0x0E), (.tsupixMatmul e b a, 0x11), (.tsupixNewdict a, 0x20), (.tsupixRaise a, 0x23)] :
      List (Instr × Nat)), GuardA j.1 s k pf j.2 a.toNat 0

/-- R328 and R329: jmp, jmpif and jmpifnot go to the offset from their own address, or on in line; foriter gives the next number and
counts, or jumps at the end of its range. -/
def Sys2Proof.Claims.BytecodeJumps : Prop :=
  ∀ (s : State) (k : Fin 32) (c : Fin 2) (d : Desc) (pf : Nat) (a : BitVec 8) (n : BitVec 16) (j : BitVec 24),
    Bytecode s k c d pf →
    let goes := fun (i : Instr) (c' : Ctx) => Completes i s fun u => OnlyCrest s u k 0 0 ∧ u.c = c'
    let off := s.c.setXn 19 (s.c.xn 19 + n.signExtend 64)
    let v := freg s pf a.toNat
    let w := freg s pf (a.toNat + 1)
    let true_ := (bit v 0 = false ∧ v ≠ 0) ∨ v = 0x23
    let false_ := v = 0 ∨ v = 0x03 ∨ v = 0x13
    (bit j 0 = false → goes (.tsupixJmp j) (s.c.setXn 19 (s.c.xn 19 + j.signExtend 64))) ∧
    (a.toNat < d.nframe → bit n 0 = false →
      (true_ → goes (.tsupixJmpif n a) off ∧ goes (.tsupixJmpifnot n a) (bcNextCtx s)) ∧
      (false_ → goes (.tsupixJmpif n a) (bcNextCtx s) ∧ goes (.tsupixJmpifnot n a) off) ∧
      (¬true_ → ¬false_ → GuardK (.tsupixJmpif n a) s k 0x18 a.toNat ∧ GuardK (.tsupixJmpifnot n a) s k 0x19 a.toNat)) ∧
    (a.toNat + 2 < d.nframe → a.toNat + 2 < 256 → bit n 0 = false →
      (bit v 0 = false → bit w 0 = false →
        (intOf w ≤ intOf v → goes (.tsupixForiter n a) off) ∧
        (intOf v < intOf w → Plain (freg s pf (a.toNat + 2)) → Completes (.tsupixForiter n a) s fun u =>
          OnlyCrest s u k (pf + 8 * a.toNat) 24 ∧ u.c = bcNextCtx s ∧ freg u pf a.toNat = v + 2 ∧
          freg u pf (a.toNat + 1) = w ∧ freg u pf (a.toNat + 2) = v)) ∧
      (bit v 0 = true ∨ bit w 0 = true → GuardK (.tsupixForiter n a) s k 0x1A a.toNat))

/-- R327: the operand checks of bytecode leave by TXILL with their detail: a frame register past the frame 3, a constant past the
pool 4, a cache slot past the table 5, an odd jump 6, native past its table 7, poptry with nothing to pop 8; an unassigned
opcode 2. -/
def Sys2Proof.Claims.BytecodeOperands : Prop :=
  ∀ (s : State) (k : Fin 32) (c : Fin 2) (d : Desc) (pf : Nat) (a b e : BitVec 8) (n : BitVec 16) (j : BitVec 24),
    Bytecode s k c d pf →
    let w := s.latch.word
    let bpc := s.c.xn 19
    let fa := s.c.xn 18 + toWord (8 * a.toNat)
    let kk := (w.extractLsb' 16 16).signExtend 64
    let fields := fun (op : Nat) => bits w 7 0 = op ∧ bits w 15 8 = a.toNat
    (d.nframe ≤ a.toNat → fields 0x03 → Leaves (.tsupixLoadi n a) s k 0x16 3 bpc 0 fa kk 0) ∧
    (d.nframe ≤ b.toNat → fields 0x01 → Leaves (.tsupixMove b a) s k 0x16 3 bpc 0 fa
      (freg s pf (bits w 23 16)) (freg s pf (bits w 31 24))) ∧
    (a.toNat < d.nframe → d.npool ≤ n.toNat → fields 0x02 → Leaves (.tsupixLoadk n a) s k 0x16 4 bpc 0 fa kk 0) ∧
    (a.toNat < d.nframe → b.toNat + 256 * e.toNat < d.npool → d.nic ≤ n.toNat → fields 0x05 →
      Leaves (.tsupixGetglobal a b e n) s k 0x16 5 bpc 0 fa (freg s pf (bits w 23 16)) (freg s pf (bits w 31 24))) ∧
    (a.toNat < d.nframe → bit n 0 = true → fields 0x18 → Leaves (.tsupixJmpif n a) s k 0x16 6 bpc 0 fa kk 0) ∧
    (bit j 0 = true → bits w 7 0 = 0x17 → Leaves (.tsupixJmp j) s k 0x16 6 bpc 0 0 ((w.extractLsb' 8 24).signExtend 64) 0) ∧
    (∀ pr, (s.c.xn 28).toNat % 8 = 0 → Reach s k (s.c.xn 28) 64 pr →
      (a.toNat < d.nframe → s.mem.read (pr + 0x20) 4 ≤ n.toNat → fields 0x26 →
        Leaves (.tsupixNative n a) s k 0x16 7 bpc 0 fa kk 0) ∧
      ((s.c.xn 22).toNat ≤ s.mem.read (pr + 0x28) 8 → bits w 7 0 = 0x25 → Leaves .tsupixPoptry s k 0x16 8 bpc 0 0
        (freg s pf (bits w 23 16)) (freg s pf (bits w 31 24)))) ∧
    Leaves (.tsupixUnassignedOpcode a) s k 0x16 2 bpc 0 0 0 0

/-- R330 and R331: call opens the frame of the function in f[b], with its header, its arguments and None in the other
registers, and goes to its code; return gives its value to x1 and the Lanivo address of an outermost frame, or to the
caller's register and address. Here no value is an object but the function. An outermost return to an address that is no
multiple of 4 drops its low bits (DESIGN CHOICE, log entry 27). -/
def Sys2Proof.Claims.CallAndReturn : Prop :=
  ∀ (s : State) (k : Fin 32) (c : Fin 2) (d : Desc) (pf : Nat) (a b n : BitVec 8) (i : BitVec 16), Bytecode s k c d pf →
    let fb := s.c.xn 18
    let ea := d.ictab + toWord (16 * i.toNat)
    (a.toNat < d.nframe → b.toNat + n.toNat < d.nframe → d.nframe ≤ 256 → i.toNat < d.nic →
      let f := freg s pf b.toNat
      (Plain f → GuardA (.tsupixCall a b n i) s k pf 0x1B a.toNat ea) ∧
      ∀ po e, Obj s k f 24 po → s.mem.read (po + 13) 1 = 0x08 → DescAt s k (toWord (s.mem.read (po + 16) 8)) e →
        let nf := 8 * d.nframe + 32
        (e.nparam ≠ n.toNat ∨ (s.c.xn 21).toNat < fb.toNat + nf + 8 * e.nframe →
          GuardA (.tsupixCall a b n i) s k pf 0x1B a.toNat ea) ∧
        (e.nparam = n.toNat → e.nparam ≤ e.nframe → fb.toNat + nf + 8 * e.nframe ≤ (s.c.xn 21).toNat →
          Reach s k fb (nf + 8 * e.nframe) pf → (∀ j, j < n.toNat → Plain (freg s pf (b.toNat + 1 + j))) →
          Completes (.tsupixCall a b n i) s fun u =>
            OnlyCrest s u k (pf + 8 * d.nframe) (32 + 8 * e.nframe) ∧
            u.mem.read (pf + nf - 32) 8 = fb.toNat ∧ u.mem.read (pf + nf - 24) 8 = (s.c.xn 19 + 6).toNat ∧
            u.mem.read (pf + nf - 16) 8 = (s.c.xn 20).toNat ∧ u.mem.read (pf + nf - 8) 8 = a.toNat ∧
            (∀ j, j < e.nframe → u.mem.read (pf + nf + 8 * j) 8 =
              if j < n.toNat then s.mem.read (pf + 8 * (b.toNat + 1 + j)) 8 else 0x03) ∧
            u.c = ((s.c.setXn 18 (fb + toWord nf)).setXn 20 (toWord (s.mem.read (po + 16) 8))).setXn 19 (toWord e.code))) ∧
    (a.toNat < d.nframe → d.nframe ≤ 256 → (∀ j, j < d.nframe → Plain (freg s pf j)) →
      ∀ ph, Reach s k (fb - 32) 32 ph →
        let r := freg s pf a.toNat
        let caller := s.mem.read ph 8
        let back := toWord (s.mem.read (ph + 8) 8)
        let loc := toWord (caller + 8 * (s.mem.read (ph + 24) 8 % 256))
        (caller = 0 → Completes (.tsupixReturn a) s fun u =>
          OnlyCrest s u k 0 0 ∧ u.c = { s.c.setXn 1 r with pc := back &&& ~~~3, bytecode := false }) ∧
        ∀ pc, caller ≠ 0 → loc.toNat % 8 = 0 → Reach s k loc 8 pc → Plain (freg s pc 0) → Apart pc 8 pf 2048 →
          Completes (.tsupixReturn a) s fun u =>
            OnlyCrest s u k pc 8 ∧ u.mem.read pc 8 = r.toNat ∧
            u.c = ((s.c.setXn 18 (toWord caller)).setXn 19 back).setXn 20 (toWord (s.mem.read (ph + 16) 8)))

/-- R332: newtuple and newlist take their object from the runtime's allocation pointer, with its header, slots and items, and
its count 1, and write it to f[a]; where it does not fit they leave by GUARD. Here no value is an object. -/
def Sys2Proof.Claims.Allocation : Prop :=
  ∀ (s : State) (k : Fin 32) (c : Fin 2) (d : Desc) (pf pr po : Nat) (a b n : BitVec 8), Bytecode s k c d pf →
    a.toNat < d.nframe → b.toNat + n.toNat ≤ d.nframe → d.nframe ≤ 256 → (s.c.xn 28).toNat % 8 = 0 →
    Reach s k (s.c.xn 28) 64 pr →
    let at_ := s.mem.read (pr + 8) 8
    let limit := s.mem.read (pr + 16) 8
    let item := fun j => s.mem.read (pf + 8 * (b.toNat + j)) 8
    let fits := fun (size : Nat) =>
      at_ % 16 = 0 ∧ at_ + size ≤ limit ∧ Reach s k (toWord at_) size po ∧ Apart po size pr 64 ∧ Apart po size pf 2048 ∧
      Apart pr 64 pf 2048
    let made := fun (u : State) (size layout : Nat) =>
      u = { s with ctxs := u.ctxs, tiles := u.tiles, mem := u.mem, dirty := u.dirty } ∧ OtherCtxs s u s.cur ∧ OtherTiles s u (1000 + k.val) ∧
      (∀ l, (l < po ∨ po + size ≤ l) → (l < pr + 8 ∨ pr + 16 ≤ l) →
        (l < pf + 8 * a.toNat ∨ pf + 8 * a.toNat + 8 ≤ l) → u.mem.byte l = s.mem.byte l) ∧
      u.c = bcNextCtx s ∧ u.mem.read (pr + 8) 8 = at_ + size ∧ u.mem.read po 8 = layout + 2 ^ 32 ∧
      u.mem.read (pf + 8 * a.toNat) 8 = at_ + 1
    let m := (max n.toNat 4 + 1) / 2 * 2
    let tuple := (16 + 8 * n.toNat + 15) / 16 * 16
    Plain (freg s pf a.toNat) → (∀ j, j < n.toNat → Plain (freg s pf (b.toNat + j))) →
    (fits tuple → Completes (.tsupixNewtuple n b a) s fun u =>
      made u tuple (s.mem.read (pr + 0x38) 4) ∧ u.mem.read (po + 8) 8 = 4 * 2 ^ 40 + n.toNat ∧
      ∀ j, j < n.toNat → u.mem.read (po + 16 + 8 * j) 8 = item j) ∧
    (fits (48 + 8 * m) → Completes (.tsupixNewlist n b a) s fun u =>
      made u (48 + 8 * m) (s.mem.read (pr + 0x3C) 4) ∧ u.mem.read (po + 8) 8 = 5 * 2 ^ 40 + 3 ∧
      u.mem.read (po + 16) 8 = 2 * n.toNat ∧ u.mem.read (po + 24) 8 = at_ + 48 ∧ u.mem.read (po + 32) 8 = 2 * m ∧
      ∀ j, j < m → u.mem.read (po + 48 + 8 * j) 8 = if j < n.toNat then item j else 0x03) ∧
    (limit < at_ + tuple → GuardA (.tsupixNewtuple n b a) s k pf 0x1E a.toNat 0) ∧
    (limit < at_ + 48 + 8 * m → GuardA (.tsupixNewlist n b a) s k pf 0x1F a.toNat 0)

/-- R337 and R338: with a mono entry that hits, getattr and setattr read and write a slot of the receiver, getglobal and setglobal the
datum of a binding whose version holds, getitem and setitem an item of a list; an empty or mega entry, or a receiver of
another layout, leaves by GUARD with the entry's address. Here no value moved is an object. -/
def Sys2Proof.Claims.InlineCaches : Prop :=
  ∀ (s : State) (k : Fin 32) (c : Fin 2) (d : Desc) (pf : Nat) (a b e : BitVec 8) (i : BitVec 16), Bytecode s k c d pf →
    a.toNat < d.nframe → b.toNat < d.nframe → e.toNat < d.nframe → i.toNat < d.nic →
    let ea := d.ictab + toWord (16 * i.toNat)
    let v := freg s pf a.toNat
    let recv := freg s pf b.toNat
    let sets := fun (j : Instr) (p : Nat) => Plain v → Plain (freg s p 0) → Completes j s fun u =>
      OnlyCrest s u k p 8 ∧ u.mem.read p 8 = v.toNat ∧ u.c = bcNextCtx s
    (∀ po layout cver target, MonoEntry s k ea 1 layout cver target → Obj s k recv (24 + 8 * (target % 2 ^ 16)) po →
      s.mem.read po 4 = layout → target % 2 ^ 16 < s.mem.read (po + 8) 4 →
      let slot := po + 16 + 8 * (target % 2 ^ 16)
      (e.toNat < d.npool → Puts (.tsupixGetattr a b e i) s k pf a.toNat (freg s slot 0)) ∧
      (e.toNat < d.npool → s.mem.read (po + 12) 1 / 4 % 2 = 0 → sets (.tsupixSetattr a b e i) slot)) ∧
    (∀ pb layout cver target, MonoEntry s k ea 3 layout cver target → target % 16 = 0 → Reach s k (toWord target) 16 pb →
      VersionHolds s k pb cver → b.toNat + 256 * e.toNat < d.npool →
      Puts (.tsupixGetglobal a b e i) s k pf a.toNat (freg s (pb + 8) 0) ∧ sets (.tsupixSetglobal a b e i) (pb + 8)) ∧
    (∀ po pi layout cver target j, MonoEntry s k ea 4 layout cver target → Obj s k recv 32 po → s.mem.read po 4 = layout →
      s.mem.read (po + 13) 1 = 0x05 → freg s pf e.toNat = toWord (2 * j) → s.mem.read (po + 16) 8 < 2 ^ 63 →
      s.mem.read (po + 16) 8 % 2 = 0 → 2 * j < s.mem.read (po + 16) 8 →
      let at_ := toWord (s.mem.read (po + 24) 8 + 8 * j)
      at_.toNat % 8 = 0 → Reach s k at_ 8 pi →
      Puts (.tsupixGetitem a b e i) s k pf a.toNat (freg s pi 0) ∧
      (s.mem.read (po + 12) 1 / 4 % 2 = 0 → sets (.tsupixSetitem a b e i) pi)) ∧
    (∀ p, ea.toNat % 16 = 0 → Reach s k ea 16 p → s.mem.read (p + 5) 1 % 4 = 0 ∨ s.mem.read (p + 5) 1 % 4 = 3 →
      e.toNat < d.npool → GuardA (.tsupixGetattr a b e i) s k pf 0x07 a.toNat ea) ∧
    (∀ po layout cver target, MonoEntry s k ea 1 layout cver target → Obj s k recv 16 po → s.mem.read po 4 ≠ layout →
      e.toNat < d.npool → GuardA (.tsupixGetattr a b e i) s k pf 0x07 a.toNat ea)

/-- R338 and R339: newobj on a hit allocates an object of the binding's layout and slot count, every slot None, its count 1. -/
def Sys2Proof.Claims.NewObject : Prop :=
  ∀ (s : State) (k : Fin 32) (c : Fin 2) (d : Desc) (pf pr po pb lay cver target : Nat) (a b e : BitVec 8) (i : BitVec 16),
    Bytecode s k c d pf → a.toNat < d.nframe → b.toNat < d.nframe → i.toNat < d.nic → (s.c.xn 28).toNat % 8 = 0 →
    Reach s k (s.c.xn 28) 64 pr → MonoEntry s k (d.ictab + toWord (16 * i.toNat)) 5 lay cver target → target % 16 = 0 →
    Reach s k (toWord target) 16 pb → VersionHolds s k pb cver → freg s pf b.toNat = freg s pb 0 →
    let at_ := s.mem.read (pr + 8) 8
    let layout := s.mem.read (pb + 8) 4
    let n := s.mem.read (pb + 12) 2
    let size := (16 + 8 * n + 15) / 16 * 16
    at_ % 16 = 0 → at_ + size ≤ s.mem.read (pr + 16) 8 → Reach s k (toWord at_) size po → Apart po size pr 64 →
    Apart po size pf 2048 → Apart pr 64 pf 2048 → Plain (freg s pf a.toNat) →
    Completes (.tsupixNewobj a b e i) s fun u =>
      u = { s with ctxs := u.ctxs, tiles := u.tiles, mem := u.mem, dirty := u.dirty } ∧ OtherCtxs s u s.cur ∧ OtherTiles s u (1000 + k.val) ∧
      (∀ l, (l < po ∨ po + size ≤ l) → (l < pr + 8 ∨ pr + 16 ≤ l) →
        (l < pf + 8 * a.toNat ∨ pf + 8 * a.toNat + 8 ≤ l) → u.mem.byte l = s.mem.byte l) ∧
      u.c = bcNextCtx s ∧ u.mem.read (pr + 8) 8 = at_ + size ∧ u.mem.read po 8 = layout + 2 ^ 32 ∧
      u.mem.read (po + 8) 8 = 7 * 2 ^ 40 + n ∧ (∀ j, j < n → u.mem.read (po + 16 + 8 * j) 8 = 0x03) ∧
      u.mem.read (pf + 8 * a.toNat) 8 = at_ + 1

/-- R346 and R347: tcall with a signature of one argument that is no tensor pushes its work item to the queue and writes the
ticket to f[a] as a small integer; a queue that does not admit the core makes it leave by GUARD with PROT. -/
def Sys2Proof.Claims.TensorCall : Prop :=
  ∀ (s : State) (k : Fin 32) (c : Fin 2) (d : Desc) (pf ps layout cver target : Nat) (a b : BitVec 8) (i : BitVec 16),
    Bytecode s k c d pf → a.toNat < d.nframe → b.toNat + 1 < d.nframe → b.toNat + 1 < 256 → i.toNat < d.nic →
    Releases s →
    let ea := d.ictab + toWord (16 * i.toNat)
    MonoEntry s k ea 6 layout cver target → target % 64 = 0 → Reach s k (toWord target) 64 ps →
    s.mem.read (ps + 2) 1 = 1 → s.mem.read (ps + 3) 1 = 0 → s.mem.read (ps + 56) 8 = s.mem.read (pf + 8 * b.toNat) 8 →
    bit (freg s pf (b.toNat + 1)) 0 = false → Plain (freg s pf a.toNat) →
    let n := s.mem.read ps 2 % 2 ^ 12
    let q := s.queue n
    let w := s.latch.word
    let item := BitVec.ofNat 512 (s.mem.read (ps + 4) 4 + 2 ^ 32 + (k.val + 2 ^ 7 * c.val) * 2 ^ 48 +
      (freg s pf (b.toNat + 1)).toNat * 2 ^ 64 + 3 * (2 ^ 128 + 2 ^ 192 + 2 ^ 256 + 2 ^ 320 + 2 ^ 384) +
      (s.c.xn 19).toNat * 2 ^ 448)
    (q.open_ = true → bit q.flags 1 = true → q.scount = 0 → q.items.length < 64 → q.waiters = [] →
      Completes (.tsupixTcall a b 1 i) s fun u =>
        u = { s with ctxs := u.ctxs, tiles := u.tiles, mem := u.mem, dirty := u.dirty, queues := u.queues } ∧ OtherCtxs s u s.cur ∧
        OtherTiles s u (1000 + k.val) ∧ OtherQueues s u n ∧ OtherBytes s u (pf + 8 * a.toNat) 8 ∧
        u.mem.read (pf + 8 * a.toNat) 8 = 2 * q.pushes.toNat ∧ u.c = bcNextCtx s ∧
        u.queue n = { q with items := q.items ++ [item], pushes := q.pushes + 1 }) ∧
    (q.open_ = false ∨ bit q.flags 1 = false → bits w 7 0 = 0x1C → bits w 15 8 = a.toNat →
      Leaves (.tsupixTcall a b 1 i) s k 0x15 0x07 (s.c.xn 19) ea (s.c.xn 18 + toWord (8 * a.toNat))
        (freg s pf (bits w 23 16)) (freg s pf (bits w 31 24)))

/-- R325, R333 and R334: tsync goes on once a tensor's hold is 0, and parks while it is not; try stores a handler record and poptry
takes one off; native leaves to the entry of its table with the address of f[a] in x1. -/
def Sys2Proof.Claims.HandlersAndNative : Prop :=
  ∀ (s : State) (k : Fin 32) (c : Fin 2) (d : Desc) (pf pr : Nat) (a : BitVec 8) (n : BitVec 16) (j : BitVec 24),
    Bytecode s k c d pf → (s.c.xn 28).toNat % 8 = 0 → Reach s k (s.c.xn 28) 64 pr →
    let v := freg s pf a.toNat
    let hs := s.c.xn 22
    (a.toNat < d.nframe → Plain v → GuardA (.tsupixTsync a) s k pf 0x22 a.toNat 0) ∧
    (∀ po, a.toNat < d.nframe → Obj s k v 16 po → s.mem.read (po + 13) 1 = 0x09 →
      (s.mem.read (po + 14) 2 = 0 → Completes (.tsupixTsync a) s fun u => OnlyCrest s u k 0 0 ∧ u.c = bcNextCtx s) ∧
      (s.mem.read (po + 14) 2 ≠ 0 → Completes (.tsupixTsync a) s fun u =>
        OnlyCrest s u k 0 0 ∧ u.c = { s.c with run := .parked (.tsync v) })) ∧
    (∀ ph, bit j 0 = false → hs.toNat % 8 = 0 → hs.toNat + 32 ≤ s.mem.read (pr + 0x30) 8 → Reach s k hs 32 ph →
      Completes (.tsupixTry j) s fun u =>
        OnlyCrest s u k ph 32 ∧ u.mem.read ph 8 = (s.c.xn 19 + j.signExtend 64).toNat ∧
        u.mem.read (ph + 8) 8 = (s.c.xn 18).toNat ∧ u.mem.read (ph + 16) 8 = (s.c.xn 20).toNat ∧ u.mem.read (ph + 24) 8 = 0 ∧
        u.c = (s.c.setXn 22 (hs + 32)).setXn 19 (s.c.xn 19 + toWord s.latch.len)) ∧
    (s.mem.read (pr + 0x28) 8 < hs.toNat → Completes .tsupixPoptry s fun u =>
      OnlyCrest s u k 0 0 ∧ u.c = (s.c.setXn 22 (hs - 32)).setXn 19 (s.c.xn 19 + toWord s.latch.len)) ∧
    (∀ pe, a.toNat < d.nframe → n.toNat < s.mem.read (pr + 0x20) 4 →
      let slot := toWord (s.mem.read (pr + 0x18) 8) + toWord (8 * n.toNat)
      slot.toNat % 8 = 0 → Reach s k slot 8 pe → s.mem.read pe 8 % 4 = 0 → Completes (.tsupixNative n a) s fun u =>
        OnlyCrest s u k 0 0 ∧ SetsRun 1 [s.c.xn 18 + toWord (8 * a.toNat), s.c.xn 19, 0, 0, 0] s.c u.c ∧
        u.c = { s.c with
          x := u.c.x, epc := s.c.xn 19 ||| 1, ecause := 0x100, einfo := n.setWidth 64, pc := toWord (s.mem.read pe 8)
          bytecode := false })

/-! ### Firmware and management (R15 to R18, R26, R27, R173, R270, R283, R365, R366, R369, R384 to R386) -/

/-- R173 and R385: a firmware call traps FEATURE on a facet and PRIV at user privilege; an unknown number answers all ones, the
firmware level, the notice context, the receive windows and the domain table as the table of calls says, and THAW thaws. The
answers to arguments that the table does not admit are the model's choice (log entry 41). -/
def Sys2Proof.Claims.FirmwareCalls : Prop :=
  ∀ (s : State) (n : BitVec 16), s.latch.rep = none →
    (∀ i ∈ ([.fwcallUnknown n, .fwcallFirmwareLevel, .fwcallRegionTeardown, .fwcallFaultDomainTeardown, .fwcallPanic, .fwcallThaw,
        .fwcallRegisterNoticeContext, .fwcallSetReceiveWindow, .fwcallReadDomainEntry] : List Instr),
      (isCrest s.cur = false → Traps i s 3 (s.latch.word.setWidth 64)) ∧
      (isCrest s.cur = true → s.c.kernel = false → Traps i s 4 (s.latch.word.setWidth 64))) ∧
    ∀ k c, Calls s k c →
      let x1 := s.c.getX 1
      let fails := fun (i : Instr) (code : Word) => Completes i s fun u =>
        u = { s with ctxs := u.ctxs, free := s.free + 1 } ∧ OtherCtxs s u s.cur ∧ ∃ x2, Replied s u.c code x2
      let sets := fun (i : Instr) (m : Mgmt) => Completes i s fun u =>
        u = { s with ctxs := u.ctxs, mgmt := m } ∧ OtherCtxs s u s.cur ∧ Replied s u.c 0 0
      fails (.fwcallUnknown n) (-1) ∧
      (Completes .fwcallFirmwareLevel s fun u => OnlyIssuer s u ∧ Replied s u.c 0 (s.mgmt.firmware.setWidth 64)) ∧
      (let id : BitVec 16 := x1.setWidth 16
       (bit id 15 = true ∧ bits id 3 0 < 2 → sets .fwcallRegisterNoticeContext { s.mgmt with noticeCtx := some id }) ∧
       (bit id 15 = false ∨ 2 ≤ bits id 3 0 → fails .fwcallRegisterNoticeContext 1)) ∧
      (x1.toNat ≤ 255 → s.c.getX 3 ≠ 0 → sets .fwcallSetReceiveWindow { s.mgmt with
        rwins := s.mgmt.rwins.put x1.toNat ⟨s.c.getX 2, s.c.getX 3, (s.c.getX 4).setWidth 16⟩ }) ∧
      (x1.toNat ≤ 255 → s.c.getX 3 = 0 → sets .fwcallSetReceiveWindow { s.mgmt with rwins := s.mgmt.rwins.del x1.toNat }) ∧
      (255 < x1.toNat → fails .fwcallSetReceiveWindow 1) ∧
      (∀ e, s.mgmt.domainTable.find x1.toNat = some e →
        Completes .fwcallReadDomainEntry s fun u => OnlyIssuer s u ∧ Replied s u.c 0 (e.setWidth 64)) ∧
      (s.mgmt.domainTable.find x1.toNat = none → fails .fwcallReadDomainEntry 6) ∧
      Completes .fwcallThaw s fun u =>
        u = { s with ctxs := u.ctxs, freeze := false, mgmt := { s.mgmt with crashed := false } } ∧
        (∀ a, a ≠ s.cur → u.ctx a = { s.ctx a with frozen := false }) ∧
        SetsRun 1 [0, 0] s.c u.c ∧ u.c = { s.c with x := u.c.x, pc := follows s, frozen := false }

/-- R283: the teardown of a region without gangs closes its queues and pools, sets stat bit 0 and tells the kernel. It is
one step, and what the message says is open (DESIGN CHOICE, log entry 40). -/
def Sys2Proof.Claims.RegionTeardown : Prop :=
  ∀ (s : State) (k : Fin 32) (c : Fin 2) (rid : BitVec 16) (p w : Nat), Calls s k c → IdleRegion s (s.c.getX 1) rid p w →
    Completes .fwcallRegionTeardown s fun u => TornDown s u k c rid w ∧ Replied s u.c 0 0

/-- R283 steps 1 and 2: the teardown ends the region's gang without saving: its contexts are not live, its matrix queue and
its facets' copy queues are empty, its tile and its slot free, the slot's record 32 zero bytes (DESIGN CHOICE, log entry 65);
no launch of the region waits any more (DESIGN CHOICE, log entry 40). Here the gang has one tile and no ready pool, and no store,
message or copy request is under way. -/
def Sys2Proof.Claims.GangTeardown : Prop :=
  ∀ (s : State) (k : Fin 32) (c : Fin 2) (t : Fin 900) (n p w : Nat) (g : Gang), Calls s k c →
    s.gangs.cells = [(n, g)] → g.rcb = s.c.getX 1 → g.tiles = [t.val] → g.pool = 0xFF → n < 256 → s.net = [] → s.msgs = [] →
    s.queues.cells = [] → s.pools.cells = [] → (∀ (f : Fin 4) (q : Fin 2), (s.ni (.facet t f)).cq[q] = []) →
    s.unitPa g.rcb 0 = .ok p →
    let slot := Config.slotTable + 32 * n
    State.unitPa { s with mem := s.mem.setBytes slot (List.replicate 32 0) } (g.rcb + 56) 1 = .ok w → Apart slot 32 w 8 →
    Completes .fwcallRegionTeardown s fun u =>
      Replied s u.c 0 0 ∧ TellsKernel s u k c ∧ u.gangs.cells = [] ∧
      (∀ f k, (u.ctx (.facet t f k)).run = .notLive) ∧ (∀ a, a ≠ s.cur → tileNo a ≠ some t.val → u.ctx a = s.ctx a) ∧
      (u.mm t.val).queue = [] ∧ (∀ f, u.ni (.facet t f) = Ni.initial ∧ (u.facet t f).fenced = false) ∧
      (u.tile t.val).gang = none ∧ (u.tile t.val).spilled = false ∧ OtherTiles s u t.val ∧
      (∀ (v : Fin 4) (x : Launch), x ∈ u.dispatch[v].launches →
        x ∈ s.dispatch[v].launches ∧ toWord (recBytes x.rec_ 16 8) ≠ s.c.getX 1) ∧
      u.mem.read slot 32 = 0 ∧ u.mem.read w 8 = 1 ∧
      ∀ l, l < slot ∨ slot + 32 ≤ l → l < w ∨ w + 8 ≤ l → u.mem.byte l = s.mem.byte l

/-- R270: the teardown of a fault domain tears down every region whose effective fault domain it is, and answers their
number; domain 0 is refused with ILLEGAL. Here the registry lists one region, a root with its own fault domain, or none.
The regions are those of the registry, of gangs and of waiting launches, and each goes as log entry 40 says (DESIGN
CHOICE); a domain above 255 is not asked here. -/
def Sys2Proof.Claims.FaultDomainTeardown : Prop :=
  ∀ (s : State) (k : Fin 32) (c : Fin 2) (rcb : Word) (rid : BitVec 16) (p w : Nat), Calls s k c →
    let d := (s.c.getX 1).toNat
    let i := Instr.fwcallFaultDomainTeardown
    let listed := s.mem.read (Config.registry + 16) 4
    (d = 0 → Completes i s fun u =>
      u = { s with ctxs := u.ctxs, free := s.free + 1 } ∧ OtherCtxs s u s.cur ∧ ∃ x2, Replied s u.c 1 x2) ∧
    (1 ≤ d → d ≤ 255 → s.gangs.cells = [] → listed = 0 → Completes i s fun u => OnlyIssuer s u ∧ Replied s u.c 0 0) ∧
    (1 ≤ d → d ≤ 255 → IdleRegion s rcb rid p w → listed = 1 → s.mem.read (Config.registry + 64) 1 = 1 →
      s.mem.read (Config.registry + 72) 8 = rcb.toNat → s.mem.read p 8 = 0 → s.mem.read (p + 8) 1 / 2 % 2 = 1 →
      (s.mem.read (p + 10) 1 = d → Completes i s fun u => TornDown s u k c rid w ∧ Replied s u.c 0 1) ∧
      (s.mem.read (p + 10) 1 ≠ d → Completes i s fun u => OnlyIssuer s u ∧ Replied s u.c 0 0))

/-- R365 and R366: a panic and a crest hardware fault are kernel crashes; the warm reboot then boots the kernel on crest
core 0, but after a second crash before THAW the device stays frozen. What the reset of a crest core does with traffic
under way, and that a hardware crash keeps the panic code, is the model's choice (log entry 42), and so is which bytes count as
dirty in the cache of a core that does not answer (log entry 75). -/
def Sys2Proof.Claims.KernelCrashes : Prop :=
  ∀ (s : State) (k : Fin 32) (c : Fin 2) (cause : BitVec 8),
    (Calls s k c → Completes .fwcallPanic s fun u => Crashed s u 1 (s.c.getX 1)) ∧
    (cause = 1 ∨ cause = 2 → Completes (.kernelCrash cause) s fun u => Crashed s u cause s.mgmt.panicCode) ∧
    (cause ≠ 1 → cause ≠ 2 → exec (.kernelCrash cause) s = .next s) ∧
    (s.mgmt.crashed = true → (s.ctx (.crest 0 0)).run = .notLive → s.mgmt.frozenTwice = false →
      Completes .warmReboot s fun u => u = { s with ctxs := u.ctxs } ∧ OtherCtxs s u (.crest 0 0) ∧
        u.ctx (.crest 0 0) = { Ctx.initial with run := .ready, estat := 1, pc := Config.kernelEntry }) ∧
    (s.mgmt.crashed = false ∨ (s.ctx (.crest 0 0)).run ≠ .notLive ∨ s.mgmt.frozenTwice = true →
      exec .warmReboot s = .next s)

/-- R26, R27, R369, R370 and R384: the takeover of the standby complex, a live update and its signature check, the Signet
alarm, and one step of the clock. Of a live update's image the standby takes over with one that the part boots and that
accepts the state table; of two alarms in one cycle the log has the smaller cause first. That the log keeps its newest 16
is the model's reading (DESIGN CHOICE, log entry 26). -/
def Sys2Proof.Claims.Management : Prop :=
  ∀ (s : State) (level agent mhz : BitVec 16), s.signet.log.length ≤ 16 → HoldsRecord s →
    (Completes .takeover s fun u => TakenOver s u s.mgmt.firmware) ∧
    (Completes (.liveUpdate true level) s fun u =>
      if (s.signet.keyed = true ∨ Config.markedUnkeyed level = true) ∧ Config.acceptsTable level s.mgmt.firmware = true then
        TakenOver s u level
      else u = s) ∧
    ((∀ e ∈ s.signet.log, e.cycle ≠ s.now) →
      (Completes (.liveUpdate false level) s fun u => Alarmed s u .signature 1 0xFFFE) ∧
      (Completes (.signetAlarm .signature agent) s fun u => Alarmed s u .signature 1 0xFFFE) ∧
      (Completes (.signetAlarm .window agent) s fun u => Alarmed s u .window 2 agent.toNat) ∧
      (Completes (.signetAlarm .tamper agent) s fun u => Alarmed s u .tamper 3 0xFFFF)) ∧
    (∀ l a, s.signet.log = l ++ [⟨.tamper, a, s.now⟩] → l.length < 15 → (∀ e ∈ l, e.cycle ≠ s.now) →
      Completes (.signetAlarm .window agent) s fun u => u.signet.log = l ++ [⟨.window, agent, s.now⟩, ⟨.tamper, a, s.now⟩]) ∧
    (let n := mhz.toNat
     let step := 2000 ≤ n ∧ n ≤ 3000 ∧ (n = s.mhz.toNat + 100 ∨ n + 100 = s.mhz.toNat)
     (step → Completes (.clockStep mhz) s fun u => u = { s with mhz := mhz }) ∧ (¬step → exec (.clockStep mhz) s = .next s))

/-- R15 to R18 and R386: a cold start ends in step 7 with the kernel ready on crest core 0, context 0, alone live, and
the map of the tiles; with router failure or too many excluded tiles it ends in step 2 with MAPFAIL, no map and nothing
live. With one excluded tile at the corner of die 0 its row is the spare one. HBM outside the firmware range keeps its
bytes (R34; DESIGN CHOICE, log entry 3), and a saved gang its slot. Without keys only firmware that the board marks
unkeyed boots (R369); other firmware leaves step 0. The model's choices: keys, alarm log and active complex stay, and what R386 writes
to the device information block is written though it stops at step 2 (log entry 54); contexts and local memory hold their reset
values (log entries 7 and 4). -/
def Sys2Proof.Claims.ColdStart : Prop :=
  ∀ (s : State) (bad : List (Nat × Nat)) (t : Fin 900),
    let dib := Config.dib
    let entry := fun (u : State) (j : Nat) => u.mem.read (dib + 0x100 + 2 * j) 2
    let starts := fun (u : State) (ends : Bool) =>
      u.mem.read (dib + 0x30) 8 = (s.mgmt.coldStarts + 1) % 2 ^ 64 ∧ u.mgmt.coldStarts = s.mgmt.coldStarts + 1 ∧
      u.mgmt.mapFail = !ends ∧ (u.mem.read (dib + 12) 1 % 2 = if ends then 0 else 1) ∧ u.gangs.cells = [] ∧
      u.signet = s.signet ∧
      (∀ l, (l < dib + 12 ∨ dib + 13 ≤ l) → (l < dib + 0x30 ∨ dib + 0x38 ≤ l) → (l < dib + 0x100 ∨ dib + 0x808 ≤ l) →
        u.mem.byte l = if Config.firmwareRange ≤ l ∧ l < Config.hbmBytes then s.mem.byte l else State.reset.mem.byte l) ∧
      (∀ a, u.ctx a = if a = .crest 0 0 ∧ ends = true then Ctx.booted else Ctx.initial) ∧
      u.mgmt.step = (if ends then 7 else 2) ∧ u.mgmt.notices = [noticeWord (if ends then 0x84 else 0x83) 0]
    let lx := t.val % 30
    let ly := t.val / 30
    (s.signet.keyed = true → s.gangs.cells = [] →
      (Completes (.coldStart [] true) s fun u => starts u true ∧
        entry u t.val = (if lx < 15 then lx else lx + 1) + 32 * if ly < 15 then ly else ly + 2) ∧
      (Completes (.coldStart [(0, 0)] true) s fun u => starts u true ∧
        entry u t.val = (if lx < 15 then lx else lx + 1) + 32 * if ly < 15 then (if lx < 15 then ly + 1 else ly) else ly + 2) ∧
      (Completes (.coldStart bad false) s fun u => starts u false ∧ entry u t.val = 0) ∧
      Completes (.coldStart [(0, 0), (1, 0), (0, 1), (1, 1)] true) s fun u => starts u false ∧ entry u t.val = 0) ∧
    (∀ n g, s.signet.keyed = true → s.gangs.cells = [(n, g)] → n < 256 → Completes (.coldStart [] true) s fun u =>
      if g.phase = .saved then
        u.gangs.cells = [(n, g)] ∧ u.mem.read (Config.slotTable + 32 * n + 4) 1 = 3 ∧
        u.mem.read (Config.slotTable + 32 * n + 16) 8 = g.save.toNat
      else u.gangs.cells = []) ∧
    (s.signet.keyed = false → Completes (.coldStart bad true) s fun u =>
      Config.markedUnkeyed s.mgmt.firmware = true ∨
        ((∀ a, u.ctx a = Ctx.initial) ∧ u.mgmt.step = 0 ∧ u.mgmt.notices = []))

/-! ### The host link (R62, R372 to R376) -/

/-- R374: each command of the management mailbox gets its reply, with the request's tag; any other command gets 0x7F with
ILLEGAL. Nothing happens while a word waits in MBOXOUT, while no request waits, or for another command. Entry 0 of the
alarm log is the oldest (DESIGN CHOICE, log entry 26); a request is taken once its reply can be written (DESIGN CHOICE,
log entry 23). -/
def Sys2Proof.Claims.MailboxCommands : Prop :=
  ∀ (s : State) (cmd : BitVec 8),
    let m := s.mgmt
    let arg := bits m.inWord 47 0
    let dib := Config.dib
    (Requests s 1 → RepliesTo .levels s 1 (1 + 2 ^ 16 + m.firmware.toNat * 2 ^ 32)) ∧
    (Requests s 2 → RepliesTo .status s 2
      (s.mem.read (dib + 12) 4 + m.step.toNat * 2 ^ 32 + if m.frozenTwice = true then 2 ^ 40 else 0)) ∧
    (Requests s 3 → (s.signet.log[arg % 16]? = none → RepliesTo .alarmlog s 3 0) ∧
      ∀ e, s.signet.log[arg % 16]? = some e →
        (arg / 16 % 2 = 1 → RepliesTo .alarmlog s 3 (e.cycle % 2 ^ 48)) ∧
        (arg / 16 % 2 = 0 → RepliesTo .alarmlog s 3 (e.agent.toNat * 2 ^ 24 + 2 ^ 40 * match e.cause with
          | .signature => 1
          | .window => 2
          | .tamper => 3))) ∧
    (Requests s 4 → RepliesTo .crash s 4
      (m.crashes.toNat + m.crashCause.toNat * 2 ^ 16 + bits m.panicCode 23 0 * 2 ^ 24)) ∧
    (Requests s 5 → RepliesTo .dibread s 5 (s.mem.read (dib + 8 * (arg % 512) + 4 * (arg / 512 % 2)) 4)) ∧
    (Requests s cmd.toNat → cmd.toNat = 0 ∨ 5 < cmd.toNat → RepliesTo (.mboxinUnknownCommand cmd) s 0x7F 1) ∧
    ∀ x ∈ ([(1, .levels), (2, .status), (3, .alarmlog), (4, .crash), (5, .dibread), (cmd.toNat, .mboxinUnknownCommand cmd)] :
      List (Nat × Instr)),
      m.inUnread = false ∨ m.outValid = true ∨ bits m.inWord 63 56 ≠ x.1 → exec x.2 s = .next s

/-- R374: the host's read of MBOXOUT clears MBOXV, and the oldest notice then goes there and raises vector 0. -/
def Sys2Proof.Claims.MailboxNotices : Prop :=
  ∀ (s : State) (w : Word) (rest : List Word),
    (Completes .mboxoutRead s fun u => u = { s with mgmt := { s.mgmt with outValid := false } }) ∧
    ∀ x ∈ ([(0x81, .kernelCrashNotice), (0x82, .signetAlarmNotice), (0x83, .mapfail), (0x84, .bringUpComplete),
      (0x85, .frozenNotice)] : List (Nat × Instr)),
      (s.mgmt.notices = w :: rest → s.mgmt.outValid = false → bits w 63 56 = x.1 → Completes x.2 s fun u =>
        u = { s with mgmt := { s.mgmt with notices := rest, outWord := w, outValid := true, msix := s.mgmt.msix ||| 1 } }) ∧
      (s.mgmt.notices = [] ∨ s.mgmt.outValid = true → exec x.2 s = .next s)

/-- R373 and R376: the host's writes of BAR0: MBOXIN while no request waits, W2BASE without its low bits, the ring's
bases while it is not enabled, RTAIL with its checks, RFIX in the error state; an offset not listed is ignored. A write
to RFIX finds no command running (DESIGN CHOICE, log entry 23). -/
def Sys2Proof.Claims.RingRegisters : Prop :=
  ∀ (s : State) (t off : BitVec 16) (v : Word),
    let h := s.host
    let host := fun (i : Instr) (h' : HostSide) => Completes i s fun u => u = { s with host := h' }
    let tail := fun (i : Instr) (t : BitVec 16) =>
      (h.err ≠ 0 ∨ bit h.rctl 0 = false → exec i s = .next s) ∧
      (h.err = 0 → bit h.rctl 0 = true →
        (256 < (t - h.rhead).toNat → host i { h with err := 0x1A }) ∧
        ((t - h.rhead).toNat ≤ 256 → host i { h with rtail := t }))
    let fix := fun (i : Instr) =>
      (h.err = 0 → exec i s = .next s) ∧
      (h.err ≠ 0 → host i { h with rhead := v.setWidth 16, rtail := v.setWidth 16, err := 0 })
    tail (.rtail t) t ∧ tail (.registerWrite 0x210 v) (v.setWidth 16) ∧ fix (.rfix v) ∧ fix (.registerWrite 0x228 v) ∧
    (bit h.rctl 0 = false →
      host (.registerWrite 0x200 v) { h with rbase := v } ∧ host (.registerWrite 0x208 v) { h with cbase := v }) ∧
    (bit h.rctl 0 = true → exec (.registerWrite 0x200 v) s = .next s ∧ exec (.registerWrite 0x208 v) s = .next s) ∧
    host (.registerWrite 0x230 v) { h with rctl := v &&& 0xF01 } ∧
    (Completes (.registerWrite 0x100 v) s fun u =>
      u = { s with mgmt := { s.mgmt with w2base := v >>> 36 <<< 36 } }) ∧
    (s.mgmt.inUnread = false → Completes (.registerWrite 0 v) s fun u =>
      u = { s with mgmt := { s.mgmt with inWord := v, inUnread := true } }) ∧
    (s.mgmt.inUnread = true → exec (.registerWrite 0 v) s = .next s) ∧
    (off ∉ ([0, 0x100, 0x200, 0x208, 0x210, 0x228, 0x230] : List (BitVec 16)) → exec (.registerWrite off v) s = .next s)

/-- R373: the host's read of a register of BAR0, an input of the agenda (log entry 1): each register's word, 0 for a write-only or
unlisted offset; a read of MBOXOUT clears MBOXV. -/
def Sys2Proof.Claims.RegisterReads : Prop :=
  ∀ (s : State) (rest : List Choice) (off : BitVec 16), s.agenda = .readRegister off :: rest →
    let m := s.mgmt
    let h := s.host
    let status := m.outValid.toNat + 2 * m.inUnread.toNat + 2 ^ 8 * m.step.toNat + 2 ^ 12 * m.mapFail.toNat +
      2 ^ 13 * m.frozenTwice.toNat
    let reads := fun (w : Word) (m' : Mgmt) =>
      step s = .next (State.tick { s with agenda := rest, host := { h with bar0 := w }, mgmt := m' } 1)
    (off = 0x008 → reads m.outWord { m with outValid := false }) ∧
    (∀ x ∈ ([(0x010, toWord status), (0x100, m.w2base), (0x200, h.rbase), (0x208, h.cbase), (0x210, h.rtail.setWidth 64),
      (0x218, h.rhead.setWidth 64), (0x220, toWord (h.err.toNat + 2 ^ 8 * (bit h.rctl 0).toNat)), (0x230, h.rctl)] :
      List (BitVec 16 × Word)), off = x.1 → reads x.2 m) ∧
    (off ∉ ([0x008, 0x010, 0x100, 0x200, 0x208, 0x210, 0x218, 0x220, 0x230] : List (BitVec 16)) → reads 0 m)

/-- R62, R368 and R372: a BAR2 access reads and writes at W2BASE plus its offset, is held until bring-up is complete, and
without a mapping performs nothing; one to the Signet's window raises the alarm. Here the bytes lie in one 64-byte block.
Space 0x00 at kernel privilege is the model's choice (log entry 23), the newest 16 alarms too (log entry 26). -/
def Sys2Proof.Claims.Bar2Accesses : Prop :=
  ∀ (s : State) (addr : Word) (n pa : Nat) (v : Vec), addr.toNat + n ≤ 2 ^ 36 → n ≤ 64 →
    let va := s.mgmt.w2base + addr
    let rd := Instr.bar2Access addr n none
    let wr := Instr.bar2Access addr n (some v)
    (s.mgmt.step ≠ 7 → exec rd s = .next s ∧ exec wr s = .next s) ∧
    (s.mgmt.step = 7 →
      (UnitReaches s va n 0 pa → Completes rd s fun u =>
        u = { s with host := { s.host with bar2 := some (BitVec.ofNat 512 (s.mem.read pa n)) } }) ∧
      (UnitReaches s va n 1 pa → Completes wr s fun u =>
        u = { s with mem := u.mem } ∧ OtherBytes s u pa n ∧ u.mem.read pa n = v.toNat % 256 ^ n) ∧
      (0 < n → va.toNat % 64 + n ≤ 64 → s.walk 0 va = none → ∀ i ∈ [rd, wr], Completes i s fun u =>
        u = { s with host := { s.host with bar2 := none } }) ∧
      (∀ l, 0 < n → va.toNat % 64 + n ≤ 64 → bits va 63 60 ≠ 0 → bits va 63 60 ≠ 15 → s.walk 0 va = some l →
        0xFF_FFFF_0000 ≤ l.pa va → s.signet.log.length ≤ 16 → (∀ e ∈ s.signet.log, e.cycle ≠ s.now) → HoldsRecord s →
          ∀ i ∈ [rd, wr], Completes i s fun u =>
          u.host = { s.host with bar2 := none } ∧ Alarmed { s with host := u.host } u .window 2 0xC000))

/-- R375: a slot of op 1 moves bytes from the host to the device, of op 2 from the device to the host, and completes with
status 0 and the bytes moved; a length of 0 or above 2^24, and another op, complete with ILLEGAL. Here the device's bytes
lie in one 64-byte block. One command runs at a time, whole (DESIGN CHOICE, log entry 23). -/
def Sys2Proof.Claims.RingCopies : Prop :=
  ∀ (s : State) (slot pa v : Nat), Fetches s slot →
    let op := slot % 256
    let len := slot / 2 ^ 32 % 2 ^ 32
    let host := slot / 2 ^ 64 % 2 ^ 64
    let dev := toWord (slot / 2 ^ 128)
    (op = 1 → UnitReaches s dev len 1 pa → v < 256 ^ len → HostBytes s host len v → Completes .ringHostToDevice s fun u =>
      u = { s with mem := u.mem, host := u.host, mgmt := u.mgmt } ∧ OtherBytes s u pa len ∧ u.mem.read pa len = v ∧
      SlotDone s u slot 0 len 0 0) ∧
    (op = 2 → UnitReaches s dev len 0 pa → Apart host len (doneAt s) 16 → Completes .ringDeviceToHost s fun u =>
      u = { s with host := u.host, mgmt := u.mgmt } ∧ HostBytes u host len (s.mem.read pa len) ∧
      SlotDone s u slot 0 len host len) ∧
    (op = 1 → s.walk 0 dev = none → 0 < len → len ≤ 2 ^ 24 → ∃ code, (code = 6 ∨ code = 7) ∧
      Completes .ringHostToDevice s fun u => u = { s with host := u.host, mgmt := u.mgmt } ∧ SlotDone s u slot code 0 0 0) ∧
    ((op = 1 ∧ (len = 0 ∨ 2 ^ 24 < len)) ∨ op = 0 ∨ 3 < op → Completes .ringHostToDevice s fun u =>
      u = { s with host := u.host, mgmt := u.mgmt } ∧ SlotDone s u slot 1 0 0 0) ∧
    (op = 2 → len = 0 ∨ 2 ^ 24 < len → Completes .ringDeviceToHost s fun u =>
      u = { s with host := u.host, mgmt := u.mgmt } ∧ SlotDone s u slot 1 0 0 0)

/-- R375: a slot of op 3 places a message at context 0 of the named crest core, with count 0xFFFF_0000 and a cookie that
is open; a resetting or full core answers NACK, and a kind that is none of a host's PROT, the model's choice (log entry
23). A crest core's mailbox has 32 places for messages (DEDUCED, log entry 56). -/
def Sys2Proof.Claims.RingMessages : Prop :=
  ∀ (s : State) (slot : Nat) (k : Fin 32), Fetches s slot → slot % 256 = 3 → slot / 2 ^ 128 % 32 = k.val →
    let kind := slot / 2 ^ 144 % 256
    let ends := fun (status : Nat) => Completes .ringMessage s fun u =>
      u = { s with host := u.host, mgmt := u.mgmt, free := u.free } ∧ SlotDone s u slot status 0 0 0
    let core := s.ni (.crest k)
    (0x80 ≤ kind → kind ≤ 0xEF → kind ≠ 0xE0 → s.resetting = false → core.mail.length < 32 →
      Completes .ringMessage s fun u =>
        u = { s with host := u.host, mgmt := u.mgmt, free := u.free, nis := u.nis } ∧ OtherNis s u (.crest k) ∧
        SlotDone s u slot 0 0 0 0 ∧ ∃ cookie, cookie < 2 ^ 16 ∧ u.ni (.crest k) = { core with
          mail := core.mail ++ [{ ctx := 0, lo := toWord (cookie + kind * 2 ^ 16 + 0xFFFF_0000 * 2 ^ 32)
                                  hi := toWord (slot / 2 ^ 64), held := false, reserve := false }] }) ∧
    (s.resetting = true → ends 8) ∧
    (0x80 ≤ kind → kind ≤ 0xEF → kind ≠ 0xE0 → 32 ≤ (core.mail.filter fun e => !e.reserve).length → ends 8) ∧
    (kind < 0x80 ∨ 0xEF < kind → s.resetting = false → ends 7)

/-- R375, R376 and R386: a ring that is not enabled, is in its error state or is empty, or whose device is still coming up,
fetches no slot. -/
def Sys2Proof.Claims.RingIdle : Prop :=
  ∀ (s : State), s.mgmt.step ≠ 7 ∨ bit s.host.rctl 0 = false ∨ s.host.err ≠ 0 ∨ s.host.rhead = s.host.rtail →
    ∀ i ∈ ([.ringHostToDevice, .ringDeviceToHost, .ringMessage] : List Instr), exec i s = .next s

/-! ### The Traverse fabric (R61 to R64, R244, R367, R377 to R383) -/

/-- R377, R378 and R380: a BULK packet's bytes go to its receive window, its sender is answered, and the last byte of its
request sends the notice of kind 0xF5; a key that no ingress entry admits is answered NACK, an unset window or a place
past its end PROT. Here the request is one packet and its bytes lie in one page. What a packet holds is the model's form
(DESIGN CHOICE, log entry 21). -/
def Sys2Proof.Claims.BulkPackets : Prop :=
  ∀ (s : State) (port : Fin 12) (p : Packet) (w : RecvWindow) (pa : Nat) (k : Fin 32) (c : Fin 2),
    (s.port port.val).down = false → p.dest = s.mgmt.fabricId.toNat → p.cls = 2 →
    let i := Instr.packetReceive port p
    let answers := fun (code : Nat) => Completes i s fun u =>
      u = { s with fabric := { s.fabric with answers := s.fabric.answers ++ [(p.source, p.request, code)] } }
    let n := p.payload.length
    let va := w.base + toWord p.offset
    ((∀ j, j < 64 → bit ((s.port port.val).ingress.get 0 j) 16 = false ∨
      ((s.port port.val).ingress.get 0 j).setWidth 16 ≠ p.key) → answers 8) ∧
    (Arrives s port p →
      (s.mgmt.rwins.find p.window = none → answers 7) ∧
      (s.mgmt.rwins.find p.window = some w → w.size.toNat < p.offset + n → answers 7) ∧
      (s.mgmt.rwins.find p.window = some w → p.offset + n ≤ w.size.toNat → 0 < n → va.toNat % 0x10000 + n ≤ 0x10000 →
        s.unitPa va 1 = .ok pa → p.total = n → n ≤ 4096 → (∀ e ∈ s.fabric.partial_, e.1 ≠ p.source ∨ e.2.1 ≠ p.request) →
        w.ctxid = BitVec.ofNat 16 (0x8000 + k.val * 256 + c.val) →
        Completes i s fun u =>
          u = { s with
            mem := u.mem, msgs := u.msgs, nextId := s.nextId + 1
            fabric := { s.fabric with answers := s.fabric.answers ++ [(p.source, p.request, 0)] } } ∧
          OtherBytes s u pa n ∧ u.mem.bytes pa n = p.payload ∧
          u.msgs = s.msgs ++
            [{ id := s.nextId, group := s.nextId, sender := none, kernel := true, dest := .crest k, ctx := c.val
               lo := toWord (0xF5 * 2 ^ 16 + n * 2 ^ 32), hi := toWord p.start, destWord := 0, ring := none, refusals := [] }]))

/-- R63 and R377: LS and MSG packets are delivered in sequence: one that comes early is held, one that comes again is
dropped; an LS load is performed at its home and answered with its data, by a route and with a key for the way back;
where there is none the answer is dropped (DESIGN CHOICE, log entry 21). What a packet holds, too, is the model's form. -/
def Sys2Proof.Claims.SequencedPackets : Prop :=
  ∀ (s : State) (port : Fin 12) (p : Packet), Arrives s port p → p.cls < 2 →
    let i := Instr.packetReceive port p
    let key := p.source * 4 + p.cls
    let next := s.fabric.recvSeq.get 0 key
    (p.seq < next → exec i s = .next s) ∧
    (next < p.seq → Completes i s fun u =>
      u = { s with fabric := { s.fabric with heldPackets := s.fabric.heldPackets ++ [(port.val, p)] } }) ∧
    (p.cls = 1 → p.seq = next → s.fabric.heldPackets = [] → s.mgmt.rwins.find p.window = none → Completes i s fun u =>
      u = { s with fabric := { s.fabric with
        recvSeq := s.fabric.recvSeq.put key (p.seq + 1), answers := s.fabric.answers ++ [(p.source, p.request, 7)] } }) ∧
    (p.cls = 0 → p.seq = next → s.fabric.heldPackets = [] → p.window = 0 → 0 < p.total → s.softErrors = [] →
      p.offset + p.total ≤ Config.hbmBytes →
      let done := { s.fabric with
        recvSeq := s.fabric.recvSeq.put key (p.seq + 1), answers := s.fabric.answers ++ [(p.source, p.request, 0)] }
      (∀ d k, s.lsTo p.source = .ok (d, k) → d = p.source ∧ Completes i s fun u =>
        u = { s with fabric := { done with
          sent := u.fabric.sent, sendSeq := s.fabric.sendSeq.put (p.source * 4) (s.fabric.sendSeq.get 0 (p.source * 4) + 1) } } ∧
        u.fabric.sent = s.fabric.sent ++
          [{ p with dest := p.source, source := p.dest, key := k, window := 0x100, payload := s.mem.bytes p.offset p.total
                    seq := s.fabric.sendSeq.get 0 (p.source * 4) }]) ∧
      (∀ code, s.lsTo p.source = .error code → Completes i s fun u => u = { s with fabric := done }))

/-- R64: at the timeout of a gap the port discards the LS arrivals that it holds behind the gap, those of the oldest
one's pair, with LINKLOST, and waits for them no longer; every other held arrival stays held. A store of this device that
was lost with the gap at the far side ends in a late LINKLOST. Which gap a timeout is for is the model's choice (log
entry 21). -/
def Sys2Proof.Claims.GapTimeout : Prop :=
  ∀ (s : State) (port : Fin 12) (x : Access) (e : Elem) (h : Packet) (before after : List (Nat × Packet)),
    let held := s.fabric.heldPackets
    let gap := fun (y : Nat × Packet) => y.1 = port.val ∧ y.2.cls = 0
    let behind := fun (y : Nat × Packet) => gap y ∧ y.2.source = h.source
    (held = before ++ (port.val, h) :: after → h.cls = 0 → (∀ y ∈ before, ¬gap y) →
      Completes (.lsGapTimeout port []) s fun u =>
        u = { s with fabric := { s.fabric with
          heldPackets := held.filter fun y => decide (¬behind y), recvSeq := u.fabric.recvSeq
          answers := s.fabric.answers ++ (held.filter fun y => decide (behind y)).map fun y => (y.2.source, y.2.request, 0x1B) } } ∧
        (∀ y ∈ held, behind y → y.2.seq < u.fabric.recvSeq.get 0 (h.source * 4)) ∧
        ∀ j, j ≠ h.source * 4 → u.fabric.recvSeq.get 0 j = s.fabric.recvSeq.get 0 j) ∧
    ((∀ y ∈ held, ¬gap y) →
      exec (.lsGapTimeout port []) s = .next s ∧
      (s.net = [x] → x.kind = .store → x.todo = [e] → (∃ sp va, e.target = .device sp va) → x.refused = none → x.ring = none →
        Completes (.lsGapTimeout port [x.id]) s fun u =>
          u = { s with ctxs := u.ctxs, net := [] } ∧ OtherCtxs s u x.agent ∧
          u.ctx x.agent = { s.ctx x.agent with
            late := (s.ctx x.agent).late ++ [⟨0x1B, e.va, none, some x.id, false⟩] }))

/-- R367 and R382: a failed lane is out of use and a port without lanes is down, with a notice of kind 0xF4 to the notice
context; the eighth CRC burst of a lane within a second takes its port down, with a type-5 record; recovery brings the port
back. The notice of another device's port, an input of the
agenda (log entry 1), names the device that reports it. -/
def Sys2Proof.Claims.LinkFailures : Prop :=
  ∀ (s : State) (port : Fin 12) (lane : Fin 8) (left : Nat) (k : Fin 32) (c : Fin 2),
    let x := s.port port.val
    let others := fun (u : State) => ∀ q, q ≠ port.val → u.port q = s.port q
    let notice : Message :=
      { id := s.nextId, group := s.nextId, sender := none, kernel := true, dest := .crest k, ctx := c.val
        lo := 0xF4_0000, hi := toWord (s.mgmt.fabricId.toNat + port.val * 2 ^ 16), destWord := 0, ring := none, refusals := [] }
    let told := s.mgmt.noticeCtx = some (BitVec.ofNat 16 (0x8000 + k.val * 256 + c.val))
    let key := port.val * 8 + lane.val
    let events := s.mgmt.laneEvents.get [] key
    let recent := events.filter fun t => s.now < t + 3000000000
    (x.lanes ≤ left → exec (.linkFailure port left) s = .next s) ∧
    (left < x.lanes →
      let ends := fun (u : State) => others u ∧ u.port port.val = { x with lanes := left, down := x.down || left = 0 }
      (s.mgmt.noticeCtx = none → Completes (.linkFailure port left) s fun u =>
        u = { s with fabric := { s.fabric with ports := u.fabric.ports } } ∧ ends u) ∧
      (told → Completes (.linkFailure port left) s fun u =>
        u = { s with
          fabric := { s.fabric with ports := u.fabric.ports }, msgs := s.msgs ++ [notice], nextId := s.nextId + 1 } ∧ ends u)) ∧
    (recent.length ≠ 7 → Completes (.crcBurst port lane) s fun u =>
      u = { s with mgmt := { s.mgmt with laneEvents := s.mgmt.laneEvents.put key (events ++ [s.now]) } }) ∧
    (recent.length = 7 → HoldsRecord s → told → Completes (.crcBurst port lane) s fun u => ∃ r : Vec,
      u = { s with
        fabric := { s.fabric with ports := u.fabric.ports }, msgs := s.msgs ++ [notice], nextId := s.nextId + 1
        free := s.free + 1
        mgmt := { moreRecords s r with laneEvents := s.mgmt.laneEvents.put key (events ++ [s.now]) } } ∧
      others u ∧ u.port port.val = { x with down := true } ∧ bits r 7 0 = 5 ∧ bits r 263 256 = 3) ∧
    (Completes (.portRecovery port) s fun u =>
      u = { s with fabric := { s.fabric with ports := u.fabric.ports } } ∧ others u ∧
      u.port port.val = { x with down := false, lanes := 8 }) ∧
    ∀ (reporter : BitVec 13) (p : BitVec 4) (rest : List Choice), s.agenda = .remoteNotice reporter p :: rest → told →
      step s = .next (State.tick { s with
        agenda := rest, nextId := s.nextId + 1
        msgs := s.msgs ++ [{ notice with hi := toWord (reporter.toNat + p.toNat * 2 ^ 16) }] } 1)

/-- R379 to R381 and R383: the fabric manager's writes of a routing entry, of a key entry and of the domain table; entry 0 of that is
never written. Bits that a layout reserves are not stored, the model's choice (log entry 21). -/
def Sys2Proof.Claims.FabricTables : Prop :=
  ∀ (s : State) (port : Fin 12) (dest : BitVec 13) (i : Fin 64) (n : BitVec 8) (v : BitVec 32) (w : Word),
    let x := s.port port.val
    let sets := fun (j : Instr) (y : Port) => Completes j s fun u =>
      u = { s with fabric := { s.fabric with ports := u.fabric.ports } } ∧ (∀ q, q ≠ port.val → u.port q = s.port q) ∧
      u.port port.val = y
    sets (.routingEntryWrite port dest v) { x with routes := x.routes.put dest.toNat (v &&& 0x8FFF_0FFF) } ∧
    sets (.keyEntryWrite port true i v) { x with ingress := x.ingress.put i.val (v &&& 0x1_FFFF) } ∧
    sets (.keyEntryWrite port false i v) { x with egress := x.egress.put i.val (v &&& 0x1_FFFF) } ∧
    exec (.domainTableWrite 0 w) s = .next s ∧
    (n ≠ 0 → Completes (.domainTableWrite n w) s fun u =>
      u = { s with mgmt := { s.mgmt with domainTable := s.mgmt.domainTable.put n.toNat (w.setWidth 13) } })

/-! ### Pre-emption and parks (R32, R156, R180 to R183) -/

/-- R181 and R183: a pre-emption writes the save records of a tile's contexts; its live beads are then saved, and its control contexts
enter the kernel at vector 0x80 with cause class 2 and PE set, and the tile record holds the facets' fmask. While FREEZE holds
it waits. Here every control context is at a
boundary, and every bead is there or not live. -/
def Sys2Proof.Claims.Preemption : Prop :=
  ∀ (s : State) (t : Fin 900),
    (s.freeze = true → Completes (.preemption t) s fun u => u = { s with tiles := u.tiles } ∧ OtherTiles s u t.val ∧
      u.tile t.val = { s.tile t.val with preempt := true }) ∧
    (s.freeze = false → (∀ f, Saveable s (.facet t f 0)) →
      (∀ f k, k ≠ 0 → Saveable s (.facet t f k) ∨ (s.ctx (.facet t f k)).run = .notLive) → Completes (.preemption t) s fun u =>
        u = { s with ctxs := u.ctxs, tiles := u.tiles, mem := u.mem, dirty := u.dirty } ∧ OtherTiles s u t.val ∧
        u.tile t.val = { s.tile t.val with preempt := false } ∧ (∀ a, tileNo a ≠ some t.val → u.ctx a = s.ctx a) ∧
        (∀ l, (l < inRecord t 0 0 0 ∨ inRecord t 0 0 0 + 44 * 0xC00 ≤ l) → (l < recordLoc t 0x18 ∨ recordLoc t 0x20 ≤ l) →
          u.mem.byte l = s.mem.byte l) ∧ recordAt u t 0x18 8 = 0x7FF ∧
        ∀ f k, let c := s.ctx (.facet t f k)
          let c' := u.ctx (.facet t f k)
          (k = 0 → Recorded c u t f k 1 ∧ Entered c c' 0x80 0x200 0 ∧ c'.pe = true ∧ c'.kt = true ∧ c'.run = .ready ∧
            ∀ r, r < 24 → c'.xn r = c.xn r) ∧
          (k ≠ 0 → c.run = .ready → Recorded c u t f k 1 ∧ c' = { c with run := .saved }) ∧
          (k ≠ 0 → c.run = .notLive → u.mem.read (inRecord t f k 0xA20) 8 % 16 = 0 ∧ c' = c))

/-- R33, R183 step 6 and R273: the firmware takes a gang out of its tile once the tile has quiesced, a choice of the agenda (log entries 1
and 17): the bind record has state 3 and the save image's address, the tile is free, its contexts are not live, its fences are
over; its slot keeps the barrier channels and what the spill area has no field for (log entry 35). A gang that has not quiesced
stays. Here the gang has one tile. -/
def Sys2Proof.Claims.GangVacates : Prop :=
  ∀ (s : State) (n : Nat) (image : Word) (rest : List Choice) (g : Gang) (t : Fin 900),
    s.agenda = .vacate n image :: rest → s.gangs.find n = some g → OneTile g t → n < 256 →
    let s0 := { s with agenda := rest }
    (g.phase ≠ .running ∨ s.freeze = true ∨ (s.tile t.val).spilled = false ∨ (s.tile t.val).preempt = true →
      step s = .next (s0.tick 1)) ∧
    (s.vacatable g = true → ∃ u : State, step s = .next (u.tick 1) ∧
      (∃ x, u.gangs.find n = some { g with phase := .saved, save := image, kept := [x] } ∧ x.channels = (s.tile t.val).channels ∧
        ∀ f : Fin 4, x.parts[f] = ((s.ni (.facet t f)).kept, (s.ni (.facet t f)).notices)) ∧
      (∀ m, m ≠ n → u.gangs.find m = s.gangs.find m) ∧
      u.mem.read (Config.slotTable + 32 * n + 4) 1 = 3 ∧ u.mem.read (Config.slotTable + 32 * n + 16) 8 = image.toNat ∧
      OtherBytes s u (Config.slotTable + 32 * n) 32 ∧ OtherTiles s u t.val ∧ (u.tile t.val).gang = none ∧
      (u.tile t.val).spilled = false ∧ (∀ f k, (u.ctx (.facet t f k)).run = .notLive) ∧
      (∀ f, (u.facet t f).fenced = false ∧ u.ni (.facet t f) = Ni.initial) ∧
      ∀ a, tileNo a ≠ some t.val → u.ctx a = s.ctx a)

/-- R33, R163, R183, R273 and R274: a saved gang is restored to a free tile, in its own slot or a free one: its bind record has state 2,
the tile starts without fence or receive window and refuses messages, its barrier channels are those it had, reported where all
members have arrived (R133), its beads are
saved and its control contexts are at kernel privilege in the
pre-emption entry of the handler with PE set, which reloads them by kret. Of how the handler starts the spec says no more (DESIGN
CHOICE, log entry 17). -/
def Sys2Proof.Claims.GangRestores : Prop :=
  ∀ (s : State) (v : Fin 4) (ticket : BitVec 32) (slot : Fin 256) (old : Nat) (x0 y0 : Fin 30) (g : Gang) (t : Fin 900),
    s.gangs.cells = [(old, g)] → old < 256 → g.phase = .saved → g.w = 1 → g.h = 1 → g.unit_ = v.val → g.ticket = ticket →
    (∀ x ∈ s.dispatch[v].launches, x.ticket ≠ ticket) → s.freeze = false → s.mgmt.mapFail = false → 1 ≤ g.budget →
    0x40_0000 ≤ g.terms.lmem → t.val = y0.val * 30 + x0.val →
    (((s.tile t.val).gang ≠ none ∨ (s.tile t.val).lasting = true) → exec (.gangBind v ticket slot x0 y0) s = .next s) ∧
    (∀ kept, (s.tile t.val).gang = none → (s.tile t.val).lasting = false → g.kept = [kept] →
      (∀ (w : Fin 4) (y : Launch), y ∈ s.dispatch[w].launches → y.terms.prio ≤ g.terms.prio) →
      Completes (.gangBind v ticket slot x0 y0) s fun u =>
      u = { s with
        ctxs := u.ctxs, gangs := u.gangs, mem := u.mem, tiles := u.tiles, mms := u.mms, facets := u.facets, nis := u.nis } ∧
      u.gangs.cells = [(slot.val, { g with x0 := x0.val, y0 := y0.val, phase := .running, kept := [] })] ∧
      u.mem.read (Config.slotTable + 32 * slot.val + 4) 1 = 2 ∧ (∀ a, tileNo a ≠ some t.val → u.ctx a = s.ctx a) ∧
      OtherTiles s u t.val ∧ OtherMms s u t.val ∧ (u.tile t.val).gang = some slot.val ∧ (u.tile t.val).region = g.rcb ∧
      (∀ w : Fin 4, (u.tile t.val).win[w] = 0) ∧
      (∀ ch : Fin 16, let y := kept.channels[ch]
        (u.tile t.val).channels[ch] = { y with reported := y.reported || decide (y.arrived &&& y.members = y.members) }) ∧
      (∀ f : Fin 4, (u.facet t f).fenced = false ∧ (u.ni (.facet t f)).quiescing = true ∧ (u.ni (.facet t f)).mail = [] ∧
        (u.ni (.facet t f)).kept = kept.parts[f].1 ∧ (u.ni (.facet t f)).notices = kept.parts[f].2) ∧
      ∀ (f : Fin 4) (k : Fin 11),
        let c := u.ctx (.facet t f k)
        c.gangid = toWord slot.val ∧ c.rank = 0 ∧ c.gangw = 1 ∧ c.gangh = 1 ∧ (k ≠ 0 → c.run = .saved) ∧
        (k = 0 → c.run = .ready ∧ c.kernel = true ∧ c.kt = true ∧ c.pe = true ∧ c.pc = 0x3C_0080 ∧ c.ecause = 0x200))

/-- R32 and R156: a parked context is ready once what it waits for holds: an entry of its own in its mailbox, its earlier accesses
performed, its bead ended; one at mm.wait is past it once the matrix instructions before it are done. Until then, and of a
context that is not parked, nothing happens. -/
def Sys2Proof.Claims.ParkWake : Prop :=
  ∀ (s : State) (a : Agent),
    let wakes := Completes (.parkWake a) s fun u =>
      u = { s with ctxs := u.ctxs } ∧ OtherCtxs s u a ∧ u.ctx a = { s.ctx a with run := .ready }
    let stays := exec (.parkWake a) s = .next s
    let own := fun (e : MailEntry) => e.ctx = ctxNo a ∧ e.held = false
    let run := (s.ctx a).run
    (run = .parked .mailbox → ((∃ e ∈ (s.ni (ownerOf a)).mail, own e) → wakes) ∧
      ((∀ e ∈ (s.ni (ownerOf a)).mail, ¬own e) → stays)) ∧
    (run = .parked .order → NothingOpen s a → wakes) ∧
    (∀ t f j, a = .facet t f j → ∀ k : Fin 11, run = .parked (.bead k.val) →
      ((s.ctx (.facet t f k)).run = .notLive → wakes) ∧ ((s.ctx (.facet t f k)).run ≠ .notLive → stays)) ∧
    (∀ t f j, a = .facet t f j → ∀ id, run = .parked (.matrixWait id) →
      ((∀ e ∈ (s.mm t.val).queue, id < e.id) → Completes (.parkWake a) s fun u =>
        u = { s with ctxs := u.ctxs } ∧ OtherCtxs s u a ∧ u.ctx a = { s.ctx a with run := .ready, pc := (s.ctx a).pc + 4 })) ∧
    ((∀ why, run ≠ .parked why) → stays)

/-! ### Reset, decoding, a step, invariants (R23, R83, R84, R91, R324, R386) -/

/-- R386, R373, R182, R256, R276, R309, R350, R371: the part after bring-up. Only crest core 0, context 0 is live, at kernel
privilege; no gang is bound, every queue and pool is closed, the ring and the mailbox are as R373 says. -/
def Sys2Proof.Claims.ResetState : Prop :=
  let s := State.reset
  let m := s.mgmt
  let h := s.host
  (s.ctx (.crest 0 0)).run = .ready ∧ (s.ctx (.crest 0 0)).kernel = true ∧ (s.ctx (.crest 0 0)).bytecode = false ∧
    (∀ a, a ≠ .crest 0 0 → (s.ctx a).run = .notLive) ∧ s.gangs.cells = [] ∧ s.net = [] ∧ s.msgs = [] ∧ s.freeze = false ∧
    (∀ t, (s.tile t).wp = true ∧ ∀ w : Fin 4, (s.tile t).win[w] = 0) ∧ (∀ n, (s.queue n).open_ = false) ∧
    (∀ n, s.pool n = none) ∧ (∀ k, (s.relq k).quota = 0) ∧
    [m.outWord, h.rbase, h.cbase, h.rctl] = [0, 0, 0, 0] ∧ m.w2base = 0x1000_0000_0000_0000 ∧ h.rtail = 0 ∧ h.rhead = 0 ∧
    h.err = 0 ∧ m.step = 7 ∧ m.inUnread = false ∧ m.outValid = false ∧ m.mapFail = false ∧ m.frozenTwice = false ∧
    m.crashes = 0 ∧ s.signet.log = [] ∧ s.mem.read 0 8 = 0x4B4C_4249_4E49_4146

/-- R84 and R324: words written out from the encodings, and what they decode to. -/
def Sys2Proof.Claims.DecodeWords : Prop :=
  decode 0b000001_00001_00010_00011_00000000000 = .add 1 2 3 ∧
  decode 0b000010_00001_00010_1111111111111111 = .addi 1 2 0xFFFF ∧
  decode 0b001011_00100_00101_0000_100000000001 = .bEq 4 5 0x801 ∧
  decode 0b001101_00000000000000000000000101 = .j 5 ∧
  decode 0b010000_00001_00010_110_0000000001000 = .ld 1 2 6 8 ∧
  decode 0b010011_00001_00010_00011_0010_11_1_0000 = .amoCas 1 2 3 3 1 ∧
  decode 0b000000_00001_00000_0000000000000101 = .trap 5 ∧
  decode 0b101000_00001_00010_00011_00000000000 = .qPush 1 2 3 ∧
  decode 0 = .runoff ∧ decodeBytecode 0x03_02_01_0B = .tsupixAdd 3 2 1 ∧ decodeBytecode 0x0005_03_02_01_1B = .tsupixCall 1 2 3 5

/-- R23, R83, R91 and R166: a context whose turn it is, with nothing that its boundary takes first, fetches the word at
its pc, and the step is the meaning of the instruction that the word decodes to, with one cycle passed; a word whose
feature the core lacks traps FEATURE instead. A facet fetches within cwin at user privilege and within the kernel reserve
at kernel privilege; a crest core fetches through its page tables where they grant X. A facet fetches from its own local
memory whatever spc holds (DEDUCED, log entry 29). -/
def Sys2Proof.Claims.StepRunsDecoded : Prop :=
  ∀ (s : State) (a : Agent) (rest : List Choice) (w : Insn), s.agenda = .issue a :: rest →
    let s0 := { s with agenda := rest }
    let c := s.ctx a
    s0.hasTurn a = true → c.late = [] → c.deliverable = false → c.bytecode = false →
    (∀ t f k, a = .facet t f k →
      ((c.kernel = false ∧ bits c.cwin 21 0 ≤ c.pc.toNat ∧ c.pc.toNat < bits c.cwin 53 32) ∨
        (c.kernel = true ∧ 0x3C_0000 ≤ c.pc.toNat ∧ c.pc.toNat < 0x40_0000)) ∧
      s.mem.read (lmLoc t.val c.pc.toNat) 4 = w.toNat) →
    (∀ k j, a = .crest k j → c.spc = 0 ∧ bits c.pc 63 60 ≠ 0 ∧ bits c.pc 63 60 ≠ 15 ∧
      ∃ l, tlbFind (s.tile (1000 + k.val)).tlb 0 (c.pc.toNat / 0x10000) = some l ∧ bit l.perms 2 = true ∧
        (c.kernel = true ∨ bit l.perms 3 = true) ∧ l.pa c.pc + 4 ≤ Config.hbmBytes ∧ s.mem.read (l.pa c.pc) 4 = w.toNat) →
    ∃ b : State, b = { s0 with cur := a, latch := ⟨w, w, 4, none⟩, facets := b.facets } ∧
      (∀ t f k, a = .facet t f k → OtherFacets s b t f ∧ b.facet t f = { s.facet t f with lastCtx := k.val }) ∧
      (isCrest a = true → b.facets = s.facets) ∧
      (lacksFeature a w = false → step s = tickOut (exec (decode w) b)) ∧
      (lacksFeature a w = true → step s = .next ((b.trap 3 (w.setWidth 64)).tick 1))

/-- R316, R323 and R324: a crest context in bytecode mode whose turn it is fetches the instruction at the address in x19, of 4 or 6
bytes by its first byte and inside the code of its descriptor, and the step is that instruction's meaning, with one cycle passed. -/
def Sys2Proof.Claims.StepRunsBytecode : Prop :=
  ∀ (s : State) (rest : List Choice) (k : Fin 32) (c : Fin 2) (d : Desc) (p : Nat),
    let a := Agent.crest k c
    let s0 := { s with agenda := rest, cur := a, latch := ⟨0, 0, 4, none⟩ }
    s.agenda = .issue a :: rest → s0.hasTurn a = true → s0.c.late = [] → s0.c.deliverable = false → s0.c.bytecode = true →
    CrestRuns s0 k c → DescAt s0 k (s0.c.xn 20) d →
    let bpc := s0.c.xn 19
    let op := s.mem.read p 1
    let n := if op ∈ [5, 6, 7, 8, 9, 10, 0x1B, 0x1C, 0x21] then 6 else 4
    bit bpc 0 = false → d.code ≤ bpc.toNat → bpc.toNat + n ≤ d.code + d.clen → Reach s0 k bpc n p →
    (∀ l, tlbFind (s.tile (1000 + k.val)).tlb 0 (bpc.toNat / 0x10000) = some l → bit l.perms 2 = true) →
    let v := BitVec.ofNat 48 (s.mem.read p n)
    ∃ b : State, b = { s0 with latch := ⟨v.setWidth 32, v.setWidth 32, n, none⟩, tiles := b.tiles } ∧
      OtherTiles s b (1000 + k.val) ∧ b.tile (1000 + k.val) = { s.tile (1000 + k.val) with tlb := (b.tile (1000 + k.val)).tlb } ∧
      step s = tickOut (exec (decodeBytecode v) b)

/-- What a step does is the agenda's first choice, the model's own form of what the spec leaves free (log entry 1): an event is
the meaning of its
instruction and one cycle, but alarms of the Signet may fall in one cycle (R370), cycles pass and count down the timers, a soft error
strikes, the host writes its own memory (R375, log entry 23); with an empty agenda a due step is
taken, else the next context issues, else time passes. That a crest core fails with dirty lines not written back is such a choice too
(R365; log entry 75). -/
def Sys2Proof.Claims.StepFollowsAgenda : Prop :=
  ∀ (s : State) (rest : List Choice) (i : Instr) (n g : Nat) (uncorrectable : Bool) (core : Fin 32) (lines : List Nat),
    let s0 := { s with agenda := rest }
    (s.agenda = .event i :: rest → ∀ u, exec i s0 = .next u →
      ((∀ cause agent, i ≠ .signetAlarm cause agent) → step s = .next (u.tick 1)) ∧
      ∀ cause agent, i = .signetAlarm cause agent → step s = .next u) ∧
    (∀ at_ v, s.agenda = .hostWrite at_ (toBytes n v) :: rest → ∃ u : State, step s = .next (u.tick 1) ∧
      u = { s0 with host := { s.host with mem := u.host.mem } } ∧ HostBytes u at_ n v ∧
      ∀ l, l < at_ ∨ at_ + n ≤ l → u.host.mem.find l = s.host.mem.find l) ∧
    (s.agenda = .pass n :: rest → ∃ u, step s = .next u ∧ u = { s0 with now := s.now + n, facets := u.facets }) ∧
    (s.agenda = .softError g uncorrectable :: rest →
      step s = .next { s0 with softErrors := s.softErrors ++ [(g, uncorrectable)] }) ∧
    (s.agenda = .silence core lines :: rest →
      step s = .next ({ s0 with silent := s.silent ++ lines.map fun l => (core.val, l) }.tick 1)) ∧
    (s.agenda = [] →
      (∀ u, s.nextMove = some u → step s = .next (u.tick 1)) ∧
      (∀ a, s.nextMove = none → s.nextIssuer = some a → step s = tickOut (s.issue a)) ∧
      (s.nextMove = none → s.nextIssuer = none → step s = .next (s.tick s.idleTime))) ∧
    ∃ u, step s = .next u

/-- R84 and R324: decoding what a well-formed instruction is encoded as gives the instruction again, with every operand; a Lanivo
instruction has 32 bits, a bytecode instruction the 32 or 48 bits of its opcode's format. Every well-formed instruction that some
word decodes to has an encoding. -/
def Sys2Proof.Claims.RoundTrip : Prop :=
  (∀ (i : Instr) (n w : Nat), i.wf = true → encode i = some (n, w) →
    w < 2 ^ n ∧
      (n = 32 ∧ decode (BitVec.ofNat 32 w) = i ∨
        n = 8 * bytecodeLength (w % 256) ∧ decodeBytecode (BitVec.ofNat 48 w) = i)) ∧
  ∀ i : Instr, i.wf = true → ((∃ w, decode w = i) ∨ ∃ v, decodeBytecode v = i) → ∃ n w, encode i = some (n, w)

/-- R369: no step brings keys back. -/
def Sys2Proof.Claims.KeysStayErased : Prop := Kept Unkeyed

/-- Every step keeps memory in its one canonical form, so that equal memories are equal data. The form is the model's own way to
write memory down, no rule of the spec (DESIGN CHOICE, log entry 57). -/
def Sys2Proof.Claims.MemoryStaysCanonical : Prop := Kept MemOk

/-- Memory is in that form at reset, and the keys are there. -/
def Sys2Proof.Claims.ResetInvariants : Prop := MemOk State.reset ∧ ¬Unkeyed State.reset

/-! ### The obligations, each of the pieces above that belong together -/

/-- O1. Major 0x01: every register-register operation writes its result, and only that; its encodings. -/
def Obligations.RegisterOperationsWriteTheirResult : Prop :=
  Sys2Proof.Claims.RegisterOperations ∧ Sys2Proof.Claims.BitCounts ∧ Sys2Proof.Claims.RegisterEncodings

/-- O2. Majors 0x02 to 0x09: every immediate operation writes its result, and only that; their encodings. -/
def Obligations.ImmediateOperationsWriteTheirResult : Prop :=
  Sys2Proof.Claims.ImmediateOperations ∧ Sys2Proof.Claims.ImmediateEncodings

/-- O3. Major 0x0A: products, quotients, remainders and their edge results. -/
def Obligations.MultiplyAndDivideResults : Prop :=
  Sys2Proof.Claims.MultiplyAndDivide ∧ Sys2Proof.Claims.MultiplyEncodings

/-- O4. Branches and jumps go to their targets or trap, and change nothing else. -/
def Obligations.BranchesAndJumpsGoToTheirTarget : Prop :=
  Sys2Proof.Claims.Branches ∧ Sys2Proof.Claims.Jumps ∧ Sys2Proof.Claims.FieldAndTargetTraps ∧
  Sys2Proof.Claims.BranchEncodings

/-- O5. REP: the repetitions of a vector instruction and how they retire. -/
def Obligations.RepStepsVectorInstructions : Prop :=
  Sys2Proof.Claims.RepFields ∧ Sys2Proof.Claims.RepPrefix ∧ Sys2Proof.Claims.RepetitionRetires ∧
  Sys2Proof.Claims.RepetitionsAreAlike

/-- O6. Taking an exception on a facet and on a crest core, and a DOUBLE. -/
def Obligations.FaultsEnterTheKernel : Prop :=
  Sys2Proof.Claims.FacetKernelEntry ∧ Sys2Proof.Claims.CrestKernelEntry ∧ Sys2Proof.Claims.EntryInHandlerIsDouble

/-- O7. kret gives back the bank, the privilege and the pc, or restores a facet from its save records. -/
def Obligations.KernelReturnRestores : Prop :=
  Sys2Proof.Claims.KretReturns ∧ Sys2Proof.Claims.KretRestores

/-- O8. User-level interrupts: delivery, at a park, and uiret. -/
def Obligations.UserInterruptsEnterAndReturn : Prop :=
  Sys2Proof.Claims.UserInterruptEntry ∧ Sys2Proof.Claims.UserInterruptAtAPark ∧ Sys2Proof.Claims.UserInterruptReturn

/-- O9. halt, wfi, hints, busy contexts, parks, FREEZE and THAW. -/
def Obligations.HaltWaitBusyAndFreeze : Prop :=
  Sys2Proof.Claims.HaltWaitAndHint ∧ Sys2Proof.Claims.BusyEnds ∧ Sys2Proof.Claims.FreezeAndThaw ∧
  Sys2Proof.Claims.ParkWake

/-- O10. The heartbeat timer, the fence of a miss, and its report. -/
def Obligations.HeartbeatFencesAndReports : Prop :=
  Sys2Proof.Claims.Heartbeat ∧ Sys2Proof.Claims.HeartbeatMissReport

/-- O11. Loads and stores of a facet's own local memory, byte for byte. -/
def Obligations.LocalLoadsAndStores : Prop :=
  Sys2Proof.Claims.LocalLoads ∧ Sys2Proof.Claims.LocalStores

/-- O12. The ten atomics on a facet's own local memory. -/
def Obligations.LocalAtomicsExchange : Prop :=
  Sys2Proof.Claims.LocalAtomics

/-- O13. What an access traps, in the order of the checks. -/
def Obligations.AddressFaultsInOrder : Prop :=
  Sys2Proof.Claims.AddressFaults ∧ Sys2Proof.Claims.VectorAddressFaults

/-- O14. raddr: the aperture address of an offset in a rank's tile. -/
def Obligations.RaddrFormsAnApertureAddress : Prop :=
  Sys2Proof.Claims.RemoteAddresses

/-- O15. Split-phase fences record, wait and test. -/
def Obligations.FencesRecordAndWait : Prop :=
  Sys2Proof.Claims.Fences

/-- O16. A remote access: issue, home, the value or the late fault. -/
def Obligations.RemoteAccessesArePerformedAtTheirHome : Prop :=
  Sys2Proof.Claims.RemoteIssue ∧ Sys2Proof.Claims.HomePerforms ∧ Sys2Proof.Claims.RemoteValue ∧
  Sys2Proof.Claims.LateFaultEntry

/-- O17. The page-table walk of a facet's miss, and TRESUME. -/
def Obligations.TranslationsAreWalkedAndResumed : Prop :=
  Sys2Proof.Claims.TranslationWalk ∧ Sys2Proof.Claims.TranslationResume

/-- O18. Mutexes: lock, try, unlock with the handover, and their traps. -/
def Obligations.MutexesPassToTheHeadWaiter : Prop :=
  Sys2Proof.Claims.Mutexes

/-- O19. Semaphores: p, try, v, rd. -/
def Obligations.SemaphoresCountPermits : Prop :=
  Sys2Proof.Claims.Semaphores

/-- O20. Summit barriers: the instructions and the completion of a phase. -/
def Obligations.BarriersCompletePhases : Prop :=
  Sys2Proof.Claims.BarrierInstructions ∧ Sys2Proof.Claims.BarrierPhase

/-- O21. Beads: start, wait, live, end. -/
def Obligations.BeadsStartAndEnd : Prop :=
  Sys2Proof.Claims.Beads

/-- O22. srr, srw, srs and src: every register of a facet and of a crest core, its writable bits, its privilege. -/
def Obligations.SpecialRegistersReadAndWrite : Prop :=
  Sys2Proof.Claims.SpecialRegisterReads ∧ Sys2Proof.Claims.SpecialRegisterWrites ∧ Sys2Proof.Claims.CrestSpecialRegisters

/-- O23. The instructions that a crest core has no unit for. -/
def Obligations.CrestCoresTrapWhatTheyLack : Prop :=
  Sys2Proof.Claims.CrestTraps

/-- O24. A value that a format holds rounds to itself in every mode. -/
def Obligations.RoundingLeavesCodesAlone : Prop :=
  Sys2Proof.Claims.RoundingIsExactOnCodes

/-- O25. Scalar floating point: rounding in every mode, results, flags, busy cycles and traps. -/
def Obligations.ScalarFloatingPointResults : Prop :=
  Sys2Proof.Claims.RoundingFinite ∧ Sys2Proof.Claims.RoundingSpecials ∧ Sys2Proof.Claims.RoundingIntegers ∧
  Sys2Proof.Claims.RoundingScales ∧ Sys2Proof.Claims.ScalarRoundingOperations ∧ Sys2Proof.Claims.ScalarPlainOperations ∧
  Sys2Proof.Claims.Conversion

/-- O26. Vector integer lanes, comparisons and mask registers. -/
def Obligations.VectorIntegerLanes : Prop :=
  Sys2Proof.Claims.VectorInteger ∧ Sys2Proof.Claims.MasksAndComparisons

/-- O27. Vector floating-point lanes, reductions and scans; the exact results and the order that they and scalars take. -/
def Obligations.VectorFloatingPointLanes : Prop :=
  Sys2Proof.Claims.VectorFloat ∧ Sys2Proof.Claims.VectorFloatReductions ∧ Sys2Proof.Claims.ExactSums ∧
  Sys2Proof.Claims.ExactProducts ∧ Sys2Proof.Claims.FloatOrder

/-- O28. Vector loads and stores of a facet's own local memory. -/
def Obligations.VectorMemoryTouchesActiveLanes : Prop :=
  Sys2Proof.Claims.VectorMemory

/-- O29. Permutes, reductions, scans and conversions of vectors. -/
def Obligations.VectorPermutesAndConverts : Prop :=
  Sys2Proof.Claims.VectorPermuteAndReduce ∧ Sys2Proof.Claims.VectorConversion

/-- O30. The clasp: joint instructions enter the matrix queue, take effect at once, mismatch, or trap. -/
def Obligations.JointInstructionsReachTheQueue : Prop :=
  Sys2Proof.Claims.JointInstructionsQueue ∧ Sys2Proof.Claims.JointInstructionsAtRelease ∧
  Sys2Proof.Claims.ClaspMismatch ∧ Sys2Proof.Claims.MatrixTraps

/-- O31. The matrix engine: single instructions, and what the entries of the queue compute. -/
def Obligations.MatrixEntriesRun : Prop :=
  Sys2Proof.Claims.SingleMatrixInstructions ∧ Sys2Proof.Claims.MatrixEntries ∧ Sys2Proof.Claims.MatrixArithmetic ∧
  Sys2Proof.Claims.SequencerSteps ∧ Sys2Proof.Claims.FixAndRetry

/-- O32. cpy.push, cpy.try, and both forms of cpy.quiesce. -/
def Obligations.CopyRequestsAreQueued : Prop :=
  Sys2Proof.Claims.CopyPush ∧ Sys2Proof.Claims.Quiesce ∧ Sys2Proof.Claims.QuiesceReload

/-- O33. Copy requests: what each kind moves, and its completion. -/
def Obligations.CopyRequestsMoveTheirBytes : Prop :=
  Sys2Proof.Claims.FlatCopyAndFill ∧ Sys2Proof.Claims.MulticastCopy ∧ Sys2Proof.Claims.GatherScatterReduce ∧
  Sys2Proof.Claims.HostPortRequest ∧ Sys2Proof.Claims.CopyEvents

/-- O34. Messages, their delivery, the mailbox and the tag table. -/
def Obligations.MessagesReachTheirMailbox : Prop :=
  Sys2Proof.Claims.Messages ∧ Sys2Proof.Claims.MessageDelivery ∧ Sys2Proof.Claims.Mailbox ∧ Sys2Proof.Claims.TagTable

/-- O35. Work queues: push, dequeue, traps, status, reset, and the fault records. -/
def Obligations.WorkQueuesKeepTheirItems : Prop :=
  Sys2Proof.Claims.QueuePush ∧ Sys2Proof.Claims.QueueTake ∧ Sys2Proof.Claims.QueueAddresses ∧
  Sys2Proof.Claims.QueueStatAndReset ∧ Sys2Proof.Claims.FaultRecordReoffer

/-- O36. Cairn pools: put, take and steal. -/
def Obligations.CairnElementsAreTakenInOrder : Prop :=
  Sys2Proof.Claims.CairnPut ∧ Sys2Proof.Claims.CairnTake ∧ Sys2Proof.Claims.CairnSteal

/-- O37. Cairn pools: status, opening, closing and rounds. -/
def Obligations.CairnPoolsOpenCloseAndRound : Prop :=
  Sys2Proof.Claims.CairnStat ∧ Sys2Proof.Claims.CairnOpenAndClose ∧ Sys2Proof.Claims.RoundBoundary

/-- O38. The task instructions and the task unit's decrements. -/
def Obligations.TasksRunToDone : Prop :=
  Sys2Proof.Claims.TaskNext ∧ Sys2Proof.Claims.TaskDoneAndFail ∧ Sys2Proof.Claims.TaskRearmAndSpawn ∧
  Sys2Proof.Claims.TaskDecrement

/-- O39. A gang from its launch record to its end. -/
def Obligations.GangsLaunchBindAndEnd : Prop :=
  Sys2Proof.Claims.GangLaunch ∧ Sys2Proof.Claims.GangExit ∧ Sys2Proof.Claims.LaunchCheck ∧ Sys2Proof.Claims.GangBind ∧
  Sys2Proof.Claims.GangEndAndMessages ∧ Sys2Proof.Claims.QuantumStart

/-- O40. Inline-cache entries, holds, class versions and release queues. -/
def Obligations.BridgeCachesHoldsAndReleases : Prop :=
  Sys2Proof.Claims.CacheEntries ∧ Sys2Proof.Claims.HoldsAndVersions ∧ Sys2Proof.Claims.ReleaseQueues ∧
  Sys2Proof.Claims.HoldRelease

/-- O41. Entering bytecode, calls and returns, handlers and native code. -/
def Obligations.BytecodeIsEnteredAndResumed : Prop :=
  Sys2Proof.Claims.EnterAndResume ∧ Sys2Proof.Claims.CallAndReturn ∧ Sys2Proof.Claims.HandlersAndNative

/-- O42. Bytecode moves, arithmetic, jumps and operand checks. -/
def Obligations.BytecodeComputesOnSmallIntegers : Prop :=
  Sys2Proof.Claims.BytecodeMoves ∧ Sys2Proof.Claims.BytecodeArithmetic ∧ Sys2Proof.Claims.BytecodeJumps ∧
  Sys2Proof.Claims.BytecodeOperands

/-- O43. Counted references and the allocation of objects. -/
def Obligations.BytecodeCountsAndAllocates : Prop :=
  Sys2Proof.Claims.CountedWrite ∧ Sys2Proof.Claims.Allocation ∧ Sys2Proof.Claims.NewObject

/-- O44. Inline-cache hits and misses, and tensor calls. -/
def Obligations.InlineCachesHitOrLeave : Prop :=
  Sys2Proof.Claims.InlineCaches ∧ Sys2Proof.Claims.TensorCall

/-- O45. Firmware calls and the teardown of regions, gangs and fault domains. -/
def Obligations.FirmwareAnswersItsCalls : Prop :=
  Sys2Proof.Claims.FirmwareCalls ∧ Sys2Proof.Claims.RegionTeardown ∧ Sys2Proof.Claims.GangTeardown ∧
  Sys2Proof.Claims.FaultDomainTeardown

/-- O46. Kernel crashes and the warm reboot, takeover, live update, the Signet alarm, the clock. -/
def Obligations.CrashesAndAlarms : Prop :=
  Sys2Proof.Claims.KernelCrashes ∧ Sys2Proof.Claims.Management

/-- O47. Cold start: the map, the kernel, or MAPFAIL. -/
def Obligations.ColdStartMapsTheTiles : Prop :=
  Sys2Proof.Claims.ColdStart

/-- O48. The management mailbox: replies and notices. -/
def Obligations.MailboxRepliesAndNotices : Prop :=
  Sys2Proof.Claims.MailboxCommands ∧ Sys2Proof.Claims.MailboxNotices

/-- O49. BAR0 registers and the BAR2 window. -/
def Obligations.HostRegistersAndWindow : Prop :=
  Sys2Proof.Claims.RingRegisters ∧ Sys2Proof.Claims.RegisterReads ∧ Sys2Proof.Claims.Bar2Accesses

/-- O50. The command ring: copies, messages, and when it fetches nothing. -/
def Obligations.CommandRingSlots : Prop :=
  Sys2Proof.Claims.RingCopies ∧ Sys2Proof.Claims.RingMessages ∧ Sys2Proof.Claims.RingIdle

/-- O51. Packets at a port: BULK, MSG, LS, and a gap's timeout. -/
def Obligations.PacketsArrive : Prop :=
  Sys2Proof.Claims.BulkPackets ∧ Sys2Proof.Claims.SequencedPackets ∧ Sys2Proof.Claims.GapTimeout

/-- O52. Failed lanes and ports, and the fabric manager's tables. -/
def Obligations.FabricTablesAndFailures : Prop :=
  Sys2Proof.Claims.LinkFailures ∧ Sys2Proof.Claims.FabricTables

/-- O53. Pre-emption writes the save records and enters the control contexts; a gang is vacated and restored. -/
def Obligations.PreemptionSavesTheTile : Prop :=
  Sys2Proof.Claims.Preemption ∧ Sys2Proof.Claims.GangVacates ∧ Sys2Proof.Claims.GangRestores

/-- O54. The state after bring-up. -/
def Obligations.ResetHoldsTheSpecsValues : Prop :=
  Sys2Proof.Claims.ResetState ∧ Sys2Proof.Claims.ResetInvariants

/-- O55. Words written out from the encodings decode to their instructions. -/
def Obligations.WordsDecodeToTheirInstruction : Prop :=
  Sys2Proof.Claims.DecodeWords

/-- O56. A step fetches, decodes and runs the instruction at the pc. -/
def Obligations.StepsRunTheDecodedInstruction : Prop :=
  Sys2Proof.Claims.StepRunsDecoded ∧ Sys2Proof.Claims.StepRunsBytecode ∧ Sys2Proof.Claims.StepFollowsAgenda

/-- O57. Decoding the encoding of a well-formed instruction gives it back. -/
def Obligations.DecodeInvertsEncode : Prop :=
  Sys2Proof.Claims.RoundTrip

/-- O58. No step brings erased keys back. -/
def Obligations.ErasedKeysStayErased : Prop :=
  Sys2Proof.Claims.KeysStayErased

/-- O59. Every step keeps memory in its canonical form. -/
def Obligations.MemoryKeepsItsCanonicalForm : Prop :=
  Sys2Proof.Claims.MemoryStaysCanonical

/-- O60. LONG: the 42-bit immediate of the majors that take it, and what it traps before any other word. -/
def Obligations.LongExtendsImmediates : Prop :=
  Sys2Proof.Claims.LongPrefix
end

