-- ==== Sys2Proof/Laws/Data.lean ====
section
/-! SUPPORT. Laws of the sparse tables, of memory and of the registers: a read after a write to the same place gives the
value written, and a write leaves every other place alone; memory keeps its canonical form. -/

namespace Sys2Proof.Machine

/-! ### Tables -/

variable {α : Type}

theorem lookup_erase (k j : Nat) (l : List (Nat × α)) :
    lookup j (erase k l) = if j = k then none else lookup j l := by
  induction l with
  | nil => simp [erase, lookup]
  | cons p rest ih =>
    obtain ⟨i, w⟩ := p
    simp only [erase]
    by_cases h : i = k
    · simp only [h, ↓reduceIte, ih, lookup]
      by_cases hj : j = k
      · simp [hj]
      · simp [hj, Ne.symm hj]
    · simp only [h, ↓reduceIte, lookup, ih]
      by_cases hi : i = j
      · simp [hi, show ¬ j = k from fun e => h (hi.trans e)]
      · simp [hi]

theorem lookup_insertKey (k j : Nat) (v : α) (l : List (Nat × α)) (h : lookup k l = none) :
    lookup j (insertKey k v l) = if j = k then some v else lookup j l := by
  induction l with
  | nil => simp [insertKey, lookup, eq_comm]
  | cons p rest ih =>
    obtain ⟨i, w⟩ := p
    simp only [lookup] at h
    split at h
    · simp at h
    · rename_i hik
      simp only [insertKey]
      split
      · simp only [lookup]
        by_cases hj : k = j
        · simp [hj]
        · simp [hj, Ne.symm hj]
      · simp only [lookup, ih h]
        by_cases hij : i = j
        · simp [hij, show ¬ j = k from fun e => hik (hij.trans e)]
        · simp [hij]

theorem Table.find_put (t : Table α) (k j : Nat) (v : α) :
    (t.put k v).find j = if j = k then some v else t.find j := by
  have h : lookup k (erase k t.cells) = none := by simp [lookup_erase]
  simp only [Table.put, Table.find, lookup_insertKey k j v _ h, lookup_erase]
  split <;> simp_all

theorem Table.get_put (t : Table α) (d v : α) (k j : Nat) :
    (t.put k v).get d j = if j = k then v else t.get d j := by
  have := Table.find_put t k j v
  simp only [Table.find] at this
  simp only [Table.get, this]
  split <;> rfl

@[simp] theorem Table.get_put_same (t : Table α) (d v : α) (k : Nat) : (t.put k v).get d k = v := by
  simp [Table.get_put]

theorem Table.get_put_other (t : Table α) (d v : α) {k j : Nat} (h : j ≠ k) : (t.put k v).get d j = t.get d j := by
  simp [Table.get_put, h]

@[simp] theorem Table.find_put_same (t : Table α) (v : α) (k : Nat) : (t.put k v).find k = some v := by
  simp [Table.find_put]

theorem Table.find_put_other (t : Table α) (v : α) {k j : Nat} (h : j ≠ k) : (t.put k v).find j = t.find j := by
  simp [Table.find_put, h]

@[simp] theorem Table.get_empty (d : α) (k : Nat) : (Table.empty : Table α).get d k = d := rfl

@[simp] theorem Table.find_empty (k : Nat) : (Table.empty : Table α).find k = none := rfl

/-! ### Memory -/

theorem Memory.byte_setByte (m : Memory) (a b : Nat) (v : Byte) :
    (m.setByte a v).byte b = if b = a then v else m.byte b := by
  have h : lookup a (erase a m.cells) = none := by simp [lookup_erase]
  simp only [Memory.byte, Memory.setByte, readCell, writeCell]
  split
  · rename_i hv
    simp only [lookup_erase]
    split <;> simp_all
  · simp only [lookup_insertKey a b v _ h, lookup_erase]
    split <;> simp_all

theorem Memory.byte_setBytes_out (m : Memory) (bs : List Byte) (a b : Nat) (h : b < a ∨ a + bs.length ≤ b) :
    (m.setBytes a bs).byte b = m.byte b := by
  induction bs generalizing m a with
  | nil => rfl
  | cons x rest ih =>
    simp only [List.length_cons] at h
    simp only [Memory.setBytes]
    rw [ih _ _ (by omega), Memory.byte_setByte, if_neg (by omega)]

theorem Memory.byte_setBytes_in (m : Memory) (bs : List Byte) (a i : Nat) (h : i < bs.length) :
    (m.setBytes a bs).byte (a + i) = bs[i] := by
  induction bs generalizing m a i with
  | nil => simp at h
  | cons x rest ih =>
    simp only [Memory.setBytes]
    cases i with
    | zero => rw [Memory.byte_setBytes_out _ _ _ _ (by omega), Memory.byte_setByte]; simp
    | succ n =>
      have := ih (m.setByte a x) (a + 1) n (by simpa using h)
      rw [show a + (n + 1) = a + 1 + n by omega, this]; simp

@[simp] theorem toBytes_length (n v : Nat) : (toBytes n v).length = n := by
  induction n generalizing v with
  | zero => rfl
  | succ n ih => simp [toBytes, ih]

theorem fromBytes_toBytes (n v : Nat) : fromBytes (toBytes n v) = v % 2 ^ (8 * n) := by
  induction n generalizing v with
  | zero => simp [toBytes, fromBytes, Nat.mod_one]
  | succ n ih =>
    simp only [toBytes, fromBytes, ih, BitVec.toNat_ofNat]
    have h : (2 : Nat) ^ (8 * (n + 1)) = 2 ^ 8 * 2 ^ (8 * n) := by rw [← Nat.pow_add]; congr 1; omega
    rw [h, Nat.mod_mul, show (2 : Nat) ^ 8 = 256 from rfl]

theorem Memory.bytes_setBytes (m : Memory) (a : Nat) (bs : List Byte) :
    (m.setBytes a bs).bytes a bs.length = bs := by
  induction bs generalizing m a with
  | nil => rfl
  | cons x rest ih =>
    simp only [Memory.setBytes, List.length_cons, Memory.bytes, ih]
    rw [Memory.byte_setBytes_out _ _ _ _ (by omega), Memory.byte_setByte]; simp

/-- Reading back what a write of n bytes stored. -/
theorem Memory.read_write (m : Memory) (a n v : Nat) : (m.write a n v).read a n = v % 2 ^ (8 * n) := by
  have h := Memory.bytes_setBytes m a (toBytes n v)
  rw [toBytes_length] at h
  simp [Memory.read, Memory.write, h, fromBytes_toBytes]

/-- A write of n bytes leaves every byte outside them alone. -/
theorem Memory.byte_write_out (m : Memory) (a n v b : Nat) (h : b < a ∨ a + n ≤ b) :
    (m.write a n v).byte b = m.byte b := by
  simp only [Memory.write]
  exact Memory.byte_setBytes_out _ _ _ _ (by simpa using h)

/-! ### The canonical form -/

/-- Every listed location is at least a bound. -/
def above (n : Nat) (l : List Host.Cell) : Prop := ∀ p ∈ l, n ≤ p.1

theorem wfCells_cons (a : Nat) (b : Byte) (l : List Host.Cell) :
    wfCells ((a, b) :: l) = true ↔ b ≠ resetByte a ∧ above (a + 1) l ∧ wfCells l = true := by
  induction l generalizing a b with
  | nil => simp [wfCells, above]
  | cons p rest ih =>
    obtain ⟨a', b'⟩ := p
    rw [wfCells]
    simp only [Bool.and_eq_true, decide_eq_true_eq]
    constructor
    · rintro ⟨⟨h1, h2⟩, h3⟩
      refine ⟨h1, ?_, h2⟩
      intro q hq
      rcases List.mem_cons.1 hq with rfl | hq
      · exact h3
      · exact Nat.le_trans (by omega) (((ih a' b').1 h2).2.1 q hq)
    · rintro ⟨h1, h2, h3⟩
      exact ⟨⟨h1, h3⟩, h2 (a', b') (by simp)⟩

theorem above_erase {n k : Nat} {l : List Host.Cell} (h : above n l) : above n (erase k l) := by
  induction l with
  | nil => exact h
  | cons p rest ih =>
    obtain ⟨j, w⟩ := p
    have h' : above n rest := fun q hq => h q (by simp [hq])
    simp only [erase]
    split
    · exact ih h'
    · intro q hq
      rcases List.mem_cons.1 hq with rfl | hq
      · exact h (j, w) (by simp)
      · exact ih h' q hq

theorem wfCells_erase (k : Nat) {l : List Host.Cell} (h : wfCells l = true) : wfCells (erase k l) = true := by
  induction l with
  | nil => exact h
  | cons p rest ih =>
    obtain ⟨j, w⟩ := p
    rw [wfCells_cons] at h
    simp only [erase]
    split
    · exact ih h.2.2
    · exact (wfCells_cons _ _ _).2 ⟨h.1, above_erase h.2.1, ih h.2.2⟩

theorem above_insertKey {n k : Nat} {v : Byte} {l : List Host.Cell} (hk : n ≤ k) (h : above n l) :
    above n (insertKey k v l) := by
  induction l with
  | nil => intro q hq; simp [insertKey] at hq; simp [hq, hk]
  | cons p rest ih =>
    obtain ⟨j, w⟩ := p
    have h' : above n rest := fun q hq => h q (by simp [hq])
    simp only [insertKey]
    split
    · intro q hq
      rcases List.mem_cons.1 hq with rfl | hq
      · exact hk
      · exact h q hq
    · intro q hq
      rcases List.mem_cons.1 hq with rfl | hq
      · exact h (j, w) (by simp)
      · exact ih h' q hq

theorem wfCells_insertKey {k : Nat} {v : Byte} {l : List Host.Cell} (hv : v ≠ resetByte k) (hl : lookup k l = none)
    (h : wfCells l = true) : wfCells (insertKey k v l) = true := by
  induction l with
  | nil => exact (wfCells_cons _ _ _).2 ⟨hv, fun _ hq => by simp at hq, h⟩
  | cons p rest ih =>
    obtain ⟨j, w⟩ := p
    simp only [lookup] at hl
    split at hl
    · simp at hl
    · rename_i hjk
      have h' := (wfCells_cons _ _ _).1 h
      simp only [insertKey]
      split
      · rename_i hlt
        refine (wfCells_cons _ _ _).2 ⟨hv, ?_, h⟩
        intro q hq
        rcases List.mem_cons.1 hq with rfl | hq
        · exact hlt
        · exact Nat.le_trans (by omega) (h'.2.1 q hq)
      · exact (wfCells_cons _ _ _).2 ⟨h'.1, above_insertKey (by omega) h'.2.1, ih hl h'.2.2⟩

theorem wfCells_filter (f : Host.Cell → Bool) {l : List Host.Cell} (h : wfCells l = true) : wfCells (l.filter f) = true := by
  induction l with
  | nil => exact h
  | cons p rest ih =>
    have h' := (wfCells_cons p.1 p.2 rest).1 h
    rw [List.filter_cons]
    split
    · exact (wfCells_cons _ _ _).2 ⟨h'.1, fun q hq => h'.2.1 q (List.mem_filter.1 hq).1, ih h'.2.2⟩
    · exact ih h'.2.2

theorem Memory.wf_setByte (m : Memory) (a : Nat) (v : Byte) (h : m.wf = true) : (m.setByte a v).wf = true := by
  simp only [Memory.wf, Memory.setByte, writeCell]
  split
  · exact wfCells_erase _ h
  · exact wfCells_insertKey ‹_› (by simp [lookup_erase]) (wfCells_erase _ h)

theorem Memory.wf_setBytes (m : Memory) (a : Nat) (bs : List Byte) (h : m.wf = true) : (m.setBytes a bs).wf = true := by
  induction bs generalizing m a with
  | nil => exact h
  | cons x rest ih => exact ih _ _ (Memory.wf_setByte _ _ _ h)

theorem Memory.wf_write (m : Memory) (a n v : Nat) (h : m.wf = true) : (m.write a n v).wf = true :=
  Memory.wf_setBytes _ _ _ h

theorem reset_mem_wf : State.reset.mem.wf = true := rfl

/-! ### Numbers of things -/

theorem agentKey_inj {a b : Agent} (h : agentKey a = agentKey b) : a = b := by
  cases a with
  | facet t f c =>
    cases b with
    | facet t' f' c' =>
      obtain ⟨t, ht⟩ := t; obtain ⟨f, hf⟩ := f; obtain ⟨c, hc⟩ := c
      obtain ⟨t', ht'⟩ := t'; obtain ⟨f', hf'⟩ := f'; obtain ⟨c', hc'⟩ := c'
      simp only [agentKey] at h
      simp only [Agent.facet.injEq, Fin.mk.injEq]
      omega
    | crest k c' => simp only [agentKey] at h; omega
  | crest k c =>
    cases b with
    | facet t f c' => simp only [agentKey] at h; omega
    | crest k' c' =>
      obtain ⟨k, hk⟩ := k; obtain ⟨c, hc⟩ := c; obtain ⟨k', hk'⟩ := k'; obtain ⟨c', hc'⟩ := c'
      simp only [agentKey] at h
      simp only [Agent.crest.injEq, Fin.mk.injEq]
      omega

theorem ownerKey_inj {a b : Owner} (h : ownerKey a = ownerKey b) : a = b := by
  cases a with
  | facet t f =>
    cases b with
    | facet t' f' =>
      obtain ⟨t, ht⟩ := t; obtain ⟨f, hf⟩ := f; obtain ⟨t', ht'⟩ := t'; obtain ⟨f', hf'⟩ := f'
      simp only [ownerKey] at h
      simp only [Owner.facet.injEq, Fin.mk.injEq]
      omega
    | crest k => simp only [ownerKey] at h; omega
  | crest k =>
    cases b with
    | facet t f => simp only [ownerKey] at h; omega
    | crest k' =>
      obtain ⟨k, hk⟩ := k; obtain ⟨k', hk'⟩ := k'
      simp only [ownerKey] at h
      simp only [Owner.crest.injEq, Fin.mk.injEq]
      omega

/-! ### Contexts, facets, tiles, interfaces -/

theorem State.ctx_setCtx (s : State) (a b : Agent) (c : Ctx) :
    (s.setCtx a c).ctx b = if b = a then c else s.ctx b := by
  simp only [State.ctx, State.setCtx, Table.get_put]
  by_cases h : b = a
  · simp [h]
  · rw [if_neg (fun e => h (agentKey_inj e)), if_neg h]

@[simp] theorem State.ctx_setCtx_same (s : State) (a : Agent) (c : Ctx) : (s.setCtx a c).ctx a = c := by
  simp [State.ctx_setCtx]

theorem State.ctx_setCtx_other (s : State) {a b : Agent} (c : Ctx) (h : b ≠ a) : (s.setCtx a c).ctx b = s.ctx b := by
  simp [State.ctx_setCtx, h]

@[simp] theorem State.ctx_modCtx_same (s : State) (a : Agent) (f : Ctx → Ctx) : (s.modCtx a f).ctx a = f (s.ctx a) := by
  simp [State.modCtx]

theorem State.ctx_modCtx_other (s : State) {a b : Agent} (f : Ctx → Ctx) (h : b ≠ a) :
    (s.modCtx a f).ctx b = s.ctx b := State.ctx_setCtx_other _ _ h

@[simp] theorem State.c_mod (s : State) (f : Ctx → Ctx) : (s.mod f).c = f s.c := State.ctx_modCtx_same _ _ _

@[simp] theorem State.tile_modTile_same (s : State) (t : Nat) (g : Tile → Tile) : (s.modTile t g).tile t = g (s.tile t) := by
  simp [State.tile, State.modTile]

theorem State.tile_modTile_other (s : State) {t u : Nat} (g : Tile → Tile) (h : u ≠ t) :
    (s.modTile t g).tile u = s.tile u := by
  simp only [State.tile, State.modTile]; exact Table.get_put_other _ _ _ h

@[simp] theorem State.ni_modNi_same (s : State) (o : Owner) (g : Ni → Ni) : (s.modNi o g).ni o = g (s.ni o) := by
  simp [State.ni, State.modNi]

theorem State.ni_modNi_other (s : State) {o p : Owner} (g : Ni → Ni) (h : p ≠ o) : (s.modNi o g).ni p = s.ni p := by
  simp only [State.ni, State.modNi]; exact Table.get_put_other _ _ _ (fun e => h (ownerKey_inj e))

@[simp] theorem State.facet_modFacet_same (s : State) (t : Fin 900) (f : Fin 4) (g : Facet → Facet) :
    (s.modFacet t f g).facet t f = g (s.facet t f) := by
  simp [State.facet, State.modFacet]

/-! ### Registers -/

@[simp] theorem Ctx.getX_zero (c : Ctx) : c.getX 0 = 0 := rfl

theorem Ctx.getX_setX (c : Ctx) (d r : BitVec 5) (v : Word) :
    (c.setX d v).getX r = if r = d ∧ r ≠ 0 then v else c.getX r := by
  by_cases hd : d = 0
  · subst hd
    by_cases hr : r = 0 <;> simp [Ctx.setX, hr]
  · have e : c.setX d v = { c with x := c.x.set d.toNat v d.isLt } := if_neg hd
    rw [e]
    simp only [Ctx.getX]
    by_cases hr : r = 0
    · simp [hr]
    · by_cases h : r = d
      · subst h; rw [if_neg hr, if_pos ⟨rfl, hr⟩]; simp
      · have hne : d.toNat ≠ r.toNat := fun e => h (BitVec.eq_of_toNat_eq e.symm)
        rw [if_neg hr, if_neg (fun e => h e.1), if_neg hr]; simp [hne]

theorem Ctx.getV_setV (c : Ctx) (d r : BitVec 5) (v : Vec) :
    (c.setV d v).getV r = if r = d then v else c.getV r := by
  simp only [Ctx.setV, Ctx.getV]
  by_cases h : r = d
  · subst h; simp
  · have hne : d.toNat ≠ r.toNat := fun e => h (BitVec.eq_of_toNat_eq e.symm)
    simp [h, hne]

@[simp] theorem Ctx.getK_zero (c : Ctx) : c.getK 0 = allOnes := rfl

theorem Ctx.getK_setK (c : Ctx) (d r : BitVec 3) (v : Word) :
    (c.setK d v).getK r = if r = d ∧ r ≠ 0 then v else c.getK r := by
  by_cases hd : d = 0
  · subst hd
    by_cases hr : r = 0 <;> simp [Ctx.setK, hr]
  · have e : c.setK d v = { c with k := c.k.set d.toNat v d.isLt } := if_neg hd
    rw [e]
    simp only [Ctx.getK]
    by_cases hr : r = 0
    · simp [hr]
    · by_cases h : r = d
      · subst h; rw [if_neg hr, if_pos ⟨rfl, hr⟩]; simp
      · have hne : d.toNat ≠ r.toNat := fun e => h (BitVec.eq_of_toNat_eq e.symm)
        rw [if_neg hr, if_neg (fun e => h e.1), if_neg hr]; simp [hne]

end Sys2Proof.Machine
end

