-- ==== Sys2Proof/Laws/State.lean ====
section
/-! SUPPORT. What each update of the state leaves alone: one lemma per update and field, and per update and reader, each true
by unfolding, so that no later proof unfolds a record update. -/

namespace Sys2Proof.Machine

/-! ### setCtx -/

@[simp] theorem State.setCtx_now (s : State) (a : Agent) (c : Ctx) : (s.setCtx a c).now = s.now := rfl
@[simp] theorem State.setCtx_mhz (s : State) (a : Agent) (c : Ctx) : (s.setCtx a c).mhz = s.mhz := rfl
@[simp] theorem State.setCtx_agenda (s : State) (a : Agent) (c : Ctx) : (s.setCtx a c).agenda = s.agenda := rfl
@[simp] theorem State.setCtx_cur (s : State) (a : Agent) (c : Ctx) : (s.setCtx a c).cur = s.cur := rfl
@[simp] theorem State.setCtx_latch (s : State) (a : Agent) (c : Ctx) : (s.setCtx a c).latch = s.latch := rfl
@[simp] theorem State.setCtx_nextId (s : State) (a : Agent) (c : Ctx) : (s.setCtx a c).nextId = s.nextId := rfl
@[simp] theorem State.setCtx_free (s : State) (a : Agent) (c : Ctx) : (s.setCtx a c).free = s.free := rfl
@[simp] theorem State.setCtx_mem (s : State) (a : Agent) (c : Ctx) : (s.setCtx a c).mem = s.mem := rfl
@[simp] theorem State.setCtx_softErrors (s : State) (a : Agent) (c : Ctx) : (s.setCtx a c).softErrors = s.softErrors := rfl
@[simp] theorem State.setCtx_dirty (s : State) (a : Agent) (c : Ctx) : (s.setCtx a c).dirty = s.dirty := rfl
@[simp] theorem State.setCtx_silent (s : State) (a : Agent) (c : Ctx) : (s.setCtx a c).silent = s.silent := rfl
@[simp] theorem State.setCtx_facets (s : State) (a : Agent) (c : Ctx) : (s.setCtx a c).facets = s.facets := rfl
@[simp] theorem State.setCtx_nis (s : State) (a : Agent) (c : Ctx) : (s.setCtx a c).nis = s.nis := rfl
@[simp] theorem State.setCtx_tiles (s : State) (a : Agent) (c : Ctx) : (s.setCtx a c).tiles = s.tiles := rfl
@[simp] theorem State.setCtx_mms (s : State) (a : Agent) (c : Ctx) : (s.setCtx a c).mms = s.mms := rfl
@[simp] theorem State.setCtx_gangs (s : State) (a : Agent) (c : Ctx) : (s.setCtx a c).gangs = s.gangs := rfl
@[simp] theorem State.setCtx_queues (s : State) (a : Agent) (c : Ctx) : (s.setCtx a c).queues = s.queues := rfl
@[simp] theorem State.setCtx_pools (s : State) (a : Agent) (c : Ctx) : (s.setCtx a c).pools = s.pools := rfl
@[simp] theorem State.setCtx_taskUnits (s : State) (a : Agent) (c : Ctx) : (s.setCtx a c).taskUnits = s.taskUnits := rfl
@[simp] theorem State.setCtx_dispatch (s : State) (a : Agent) (c : Ctx) : (s.setCtx a c).dispatch = s.dispatch := rfl
@[simp] theorem State.setCtx_relqs (s : State) (a : Agent) (c : Ctx) : (s.setCtx a c).relqs = s.relqs := rfl
@[simp] theorem State.setCtx_net (s : State) (a : Agent) (c : Ctx) : (s.setCtx a c).net = s.net := rfl
@[simp] theorem State.setCtx_msgs (s : State) (a : Agent) (c : Ctx) : (s.setCtx a c).msgs = s.msgs := rfl
@[simp] theorem State.setCtx_freeze (s : State) (a : Agent) (c : Ctx) : (s.setCtx a c).freeze = s.freeze := rfl
@[simp] theorem State.setCtx_mgmt (s : State) (a : Agent) (c : Ctx) : (s.setCtx a c).mgmt = s.mgmt := rfl
@[simp] theorem State.setCtx_signet (s : State) (a : Agent) (c : Ctx) : (s.setCtx a c).signet = s.signet := rfl
@[simp] theorem State.setCtx_fabric (s : State) (a : Agent) (c : Ctx) : (s.setCtx a c).fabric = s.fabric := rfl
@[simp] theorem State.setCtx_host (s : State) (a : Agent) (c : Ctx) : (s.setCtx a c).host = s.host := rfl
@[simp] theorem State.setCtx_get_tile (s : State) (a : Agent) (c : Ctx) (u : Nat) : (s.setCtx a c).tile u = s.tile u := rfl
@[simp] theorem State.setCtx_get_facet (s : State) (a : Agent) (c : Ctx) (u : Fin 900) (g : Fin 4) : (s.setCtx a c).facet u g = s.facet u g := rfl
@[simp] theorem State.setCtx_get_ni (s : State) (a : Agent) (c : Ctx) (p : Owner) : (s.setCtx a c).ni p = s.ni p := rfl
@[simp] theorem State.setCtx_get_mm (s : State) (a : Agent) (c : Ctx) (u : Nat) : (s.setCtx a c).mm u = s.mm u := rfl
@[simp] theorem State.setCtx_get_queue (s : State) (a : Agent) (c : Ctx) (m : Nat) : (s.setCtx a c).queue m = s.queue m := rfl

/-! ### modCtx -/

@[simp] theorem State.modCtx_now (s : State) (a : Agent) (f : Ctx → Ctx) : (s.modCtx a f).now = s.now := rfl
@[simp] theorem State.modCtx_mhz (s : State) (a : Agent) (f : Ctx → Ctx) : (s.modCtx a f).mhz = s.mhz := rfl
@[simp] theorem State.modCtx_agenda (s : State) (a : Agent) (f : Ctx → Ctx) : (s.modCtx a f).agenda = s.agenda := rfl
@[simp] theorem State.modCtx_cur (s : State) (a : Agent) (f : Ctx → Ctx) : (s.modCtx a f).cur = s.cur := rfl
@[simp] theorem State.modCtx_latch (s : State) (a : Agent) (f : Ctx → Ctx) : (s.modCtx a f).latch = s.latch := rfl
@[simp] theorem State.modCtx_nextId (s : State) (a : Agent) (f : Ctx → Ctx) : (s.modCtx a f).nextId = s.nextId := rfl
@[simp] theorem State.modCtx_free (s : State) (a : Agent) (f : Ctx → Ctx) : (s.modCtx a f).free = s.free := rfl
@[simp] theorem State.modCtx_mem (s : State) (a : Agent) (f : Ctx → Ctx) : (s.modCtx a f).mem = s.mem := rfl
@[simp] theorem State.modCtx_softErrors (s : State) (a : Agent) (f : Ctx → Ctx) : (s.modCtx a f).softErrors = s.softErrors := rfl
@[simp] theorem State.modCtx_dirty (s : State) (a : Agent) (f : Ctx → Ctx) : (s.modCtx a f).dirty = s.dirty := rfl
@[simp] theorem State.modCtx_silent (s : State) (a : Agent) (f : Ctx → Ctx) : (s.modCtx a f).silent = s.silent := rfl
@[simp] theorem State.modCtx_facets (s : State) (a : Agent) (f : Ctx → Ctx) : (s.modCtx a f).facets = s.facets := rfl
@[simp] theorem State.modCtx_nis (s : State) (a : Agent) (f : Ctx → Ctx) : (s.modCtx a f).nis = s.nis := rfl
@[simp] theorem State.modCtx_tiles (s : State) (a : Agent) (f : Ctx → Ctx) : (s.modCtx a f).tiles = s.tiles := rfl
@[simp] theorem State.modCtx_mms (s : State) (a : Agent) (f : Ctx → Ctx) : (s.modCtx a f).mms = s.mms := rfl
@[simp] theorem State.modCtx_gangs (s : State) (a : Agent) (f : Ctx → Ctx) : (s.modCtx a f).gangs = s.gangs := rfl
@[simp] theorem State.modCtx_queues (s : State) (a : Agent) (f : Ctx → Ctx) : (s.modCtx a f).queues = s.queues := rfl
@[simp] theorem State.modCtx_pools (s : State) (a : Agent) (f : Ctx → Ctx) : (s.modCtx a f).pools = s.pools := rfl
@[simp] theorem State.modCtx_taskUnits (s : State) (a : Agent) (f : Ctx → Ctx) : (s.modCtx a f).taskUnits = s.taskUnits := rfl
@[simp] theorem State.modCtx_dispatch (s : State) (a : Agent) (f : Ctx → Ctx) : (s.modCtx a f).dispatch = s.dispatch := rfl
@[simp] theorem State.modCtx_relqs (s : State) (a : Agent) (f : Ctx → Ctx) : (s.modCtx a f).relqs = s.relqs := rfl
@[simp] theorem State.modCtx_net (s : State) (a : Agent) (f : Ctx → Ctx) : (s.modCtx a f).net = s.net := rfl
@[simp] theorem State.modCtx_msgs (s : State) (a : Agent) (f : Ctx → Ctx) : (s.modCtx a f).msgs = s.msgs := rfl
@[simp] theorem State.modCtx_freeze (s : State) (a : Agent) (f : Ctx → Ctx) : (s.modCtx a f).freeze = s.freeze := rfl
@[simp] theorem State.modCtx_mgmt (s : State) (a : Agent) (f : Ctx → Ctx) : (s.modCtx a f).mgmt = s.mgmt := rfl
@[simp] theorem State.modCtx_signet (s : State) (a : Agent) (f : Ctx → Ctx) : (s.modCtx a f).signet = s.signet := rfl
@[simp] theorem State.modCtx_fabric (s : State) (a : Agent) (f : Ctx → Ctx) : (s.modCtx a f).fabric = s.fabric := rfl
@[simp] theorem State.modCtx_host (s : State) (a : Agent) (f : Ctx → Ctx) : (s.modCtx a f).host = s.host := rfl
@[simp] theorem State.modCtx_get_tile (s : State) (a : Agent) (f : Ctx → Ctx) (u : Nat) : (s.modCtx a f).tile u = s.tile u := rfl
@[simp] theorem State.modCtx_get_facet (s : State) (a : Agent) (f : Ctx → Ctx) (u : Fin 900) (g : Fin 4) : (s.modCtx a f).facet u g = s.facet u g := rfl
@[simp] theorem State.modCtx_get_ni (s : State) (a : Agent) (f : Ctx → Ctx) (p : Owner) : (s.modCtx a f).ni p = s.ni p := rfl
@[simp] theorem State.modCtx_get_mm (s : State) (a : Agent) (f : Ctx → Ctx) (u : Nat) : (s.modCtx a f).mm u = s.mm u := rfl
@[simp] theorem State.modCtx_get_queue (s : State) (a : Agent) (f : Ctx → Ctx) (m : Nat) : (s.modCtx a f).queue m = s.queue m := rfl

/-! ### mod -/

@[simp] theorem State.mod_now (s : State) (f : Ctx → Ctx) : (s.mod f).now = s.now := rfl
@[simp] theorem State.mod_mhz (s : State) (f : Ctx → Ctx) : (s.mod f).mhz = s.mhz := rfl
@[simp] theorem State.mod_agenda (s : State) (f : Ctx → Ctx) : (s.mod f).agenda = s.agenda := rfl
@[simp] theorem State.mod_cur (s : State) (f : Ctx → Ctx) : (s.mod f).cur = s.cur := rfl
@[simp] theorem State.mod_latch (s : State) (f : Ctx → Ctx) : (s.mod f).latch = s.latch := rfl
@[simp] theorem State.mod_nextId (s : State) (f : Ctx → Ctx) : (s.mod f).nextId = s.nextId := rfl
@[simp] theorem State.mod_free (s : State) (f : Ctx → Ctx) : (s.mod f).free = s.free := rfl
@[simp] theorem State.mod_mem (s : State) (f : Ctx → Ctx) : (s.mod f).mem = s.mem := rfl
@[simp] theorem State.mod_softErrors (s : State) (f : Ctx → Ctx) : (s.mod f).softErrors = s.softErrors := rfl
@[simp] theorem State.mod_dirty (s : State) (f : Ctx → Ctx) : (s.mod f).dirty = s.dirty := rfl
@[simp] theorem State.mod_silent (s : State) (f : Ctx → Ctx) : (s.mod f).silent = s.silent := rfl
@[simp] theorem State.mod_facets (s : State) (f : Ctx → Ctx) : (s.mod f).facets = s.facets := rfl
@[simp] theorem State.mod_nis (s : State) (f : Ctx → Ctx) : (s.mod f).nis = s.nis := rfl
@[simp] theorem State.mod_tiles (s : State) (f : Ctx → Ctx) : (s.mod f).tiles = s.tiles := rfl
@[simp] theorem State.mod_mms (s : State) (f : Ctx → Ctx) : (s.mod f).mms = s.mms := rfl
@[simp] theorem State.mod_gangs (s : State) (f : Ctx → Ctx) : (s.mod f).gangs = s.gangs := rfl
@[simp] theorem State.mod_queues (s : State) (f : Ctx → Ctx) : (s.mod f).queues = s.queues := rfl
@[simp] theorem State.mod_pools (s : State) (f : Ctx → Ctx) : (s.mod f).pools = s.pools := rfl
@[simp] theorem State.mod_taskUnits (s : State) (f : Ctx → Ctx) : (s.mod f).taskUnits = s.taskUnits := rfl
@[simp] theorem State.mod_dispatch (s : State) (f : Ctx → Ctx) : (s.mod f).dispatch = s.dispatch := rfl
@[simp] theorem State.mod_relqs (s : State) (f : Ctx → Ctx) : (s.mod f).relqs = s.relqs := rfl
@[simp] theorem State.mod_net (s : State) (f : Ctx → Ctx) : (s.mod f).net = s.net := rfl
@[simp] theorem State.mod_msgs (s : State) (f : Ctx → Ctx) : (s.mod f).msgs = s.msgs := rfl
@[simp] theorem State.mod_freeze (s : State) (f : Ctx → Ctx) : (s.mod f).freeze = s.freeze := rfl
@[simp] theorem State.mod_mgmt (s : State) (f : Ctx → Ctx) : (s.mod f).mgmt = s.mgmt := rfl
@[simp] theorem State.mod_signet (s : State) (f : Ctx → Ctx) : (s.mod f).signet = s.signet := rfl
@[simp] theorem State.mod_fabric (s : State) (f : Ctx → Ctx) : (s.mod f).fabric = s.fabric := rfl
@[simp] theorem State.mod_host (s : State) (f : Ctx → Ctx) : (s.mod f).host = s.host := rfl
@[simp] theorem State.mod_get_tile (s : State) (f : Ctx → Ctx) (u : Nat) : (s.mod f).tile u = s.tile u := rfl
@[simp] theorem State.mod_get_facet (s : State) (f : Ctx → Ctx) (u : Fin 900) (g : Fin 4) : (s.mod f).facet u g = s.facet u g := rfl
@[simp] theorem State.mod_get_ni (s : State) (f : Ctx → Ctx) (p : Owner) : (s.mod f).ni p = s.ni p := rfl
@[simp] theorem State.mod_get_mm (s : State) (f : Ctx → Ctx) (u : Nat) : (s.mod f).mm u = s.mm u := rfl
@[simp] theorem State.mod_get_queue (s : State) (f : Ctx → Ctx) (m : Nat) : (s.mod f).queue m = s.queue m := rfl

/-! ### modFacet -/

@[simp] theorem State.modFacet_now (s : State) (t : Fin 900) (i : Fin 4) (f : Facet → Facet) : (s.modFacet t i f).now = s.now := rfl
@[simp] theorem State.modFacet_mhz (s : State) (t : Fin 900) (i : Fin 4) (f : Facet → Facet) : (s.modFacet t i f).mhz = s.mhz := rfl
@[simp] theorem State.modFacet_agenda (s : State) (t : Fin 900) (i : Fin 4) (f : Facet → Facet) : (s.modFacet t i f).agenda = s.agenda := rfl
@[simp] theorem State.modFacet_cur (s : State) (t : Fin 900) (i : Fin 4) (f : Facet → Facet) : (s.modFacet t i f).cur = s.cur := rfl
@[simp] theorem State.modFacet_latch (s : State) (t : Fin 900) (i : Fin 4) (f : Facet → Facet) : (s.modFacet t i f).latch = s.latch := rfl
@[simp] theorem State.modFacet_nextId (s : State) (t : Fin 900) (i : Fin 4) (f : Facet → Facet) : (s.modFacet t i f).nextId = s.nextId := rfl
@[simp] theorem State.modFacet_free (s : State) (t : Fin 900) (i : Fin 4) (f : Facet → Facet) : (s.modFacet t i f).free = s.free := rfl
@[simp] theorem State.modFacet_mem (s : State) (t : Fin 900) (i : Fin 4) (f : Facet → Facet) : (s.modFacet t i f).mem = s.mem := rfl
@[simp] theorem State.modFacet_softErrors (s : State) (t : Fin 900) (i : Fin 4) (f : Facet → Facet) : (s.modFacet t i f).softErrors = s.softErrors := rfl
@[simp] theorem State.modFacet_dirty (s : State) (t : Fin 900) (i : Fin 4) (f : Facet → Facet) : (s.modFacet t i f).dirty = s.dirty := rfl
@[simp] theorem State.modFacet_silent (s : State) (t : Fin 900) (i : Fin 4) (f : Facet → Facet) : (s.modFacet t i f).silent = s.silent := rfl
@[simp] theorem State.modFacet_ctxs (s : State) (t : Fin 900) (i : Fin 4) (f : Facet → Facet) : (s.modFacet t i f).ctxs = s.ctxs := rfl
@[simp] theorem State.modFacet_nis (s : State) (t : Fin 900) (i : Fin 4) (f : Facet → Facet) : (s.modFacet t i f).nis = s.nis := rfl
@[simp] theorem State.modFacet_tiles (s : State) (t : Fin 900) (i : Fin 4) (f : Facet → Facet) : (s.modFacet t i f).tiles = s.tiles := rfl
@[simp] theorem State.modFacet_mms (s : State) (t : Fin 900) (i : Fin 4) (f : Facet → Facet) : (s.modFacet t i f).mms = s.mms := rfl
@[simp] theorem State.modFacet_gangs (s : State) (t : Fin 900) (i : Fin 4) (f : Facet → Facet) : (s.modFacet t i f).gangs = s.gangs := rfl
@[simp] theorem State.modFacet_queues (s : State) (t : Fin 900) (i : Fin 4) (f : Facet → Facet) : (s.modFacet t i f).queues = s.queues := rfl
@[simp] theorem State.modFacet_pools (s : State) (t : Fin 900) (i : Fin 4) (f : Facet → Facet) : (s.modFacet t i f).pools = s.pools := rfl
@[simp] theorem State.modFacet_taskUnits (s : State) (t : Fin 900) (i : Fin 4) (f : Facet → Facet) : (s.modFacet t i f).taskUnits = s.taskUnits := rfl
@[simp] theorem State.modFacet_dispatch (s : State) (t : Fin 900) (i : Fin 4) (f : Facet → Facet) : (s.modFacet t i f).dispatch = s.dispatch := rfl
@[simp] theorem State.modFacet_relqs (s : State) (t : Fin 900) (i : Fin 4) (f : Facet → Facet) : (s.modFacet t i f).relqs = s.relqs := rfl
@[simp] theorem State.modFacet_net (s : State) (t : Fin 900) (i : Fin 4) (f : Facet → Facet) : (s.modFacet t i f).net = s.net := rfl
@[simp] theorem State.modFacet_msgs (s : State) (t : Fin 900) (i : Fin 4) (f : Facet → Facet) : (s.modFacet t i f).msgs = s.msgs := rfl
@[simp] theorem State.modFacet_freeze (s : State) (t : Fin 900) (i : Fin 4) (f : Facet → Facet) : (s.modFacet t i f).freeze = s.freeze := rfl
@[simp] theorem State.modFacet_mgmt (s : State) (t : Fin 900) (i : Fin 4) (f : Facet → Facet) : (s.modFacet t i f).mgmt = s.mgmt := rfl
@[simp] theorem State.modFacet_signet (s : State) (t : Fin 900) (i : Fin 4) (f : Facet → Facet) : (s.modFacet t i f).signet = s.signet := rfl
@[simp] theorem State.modFacet_fabric (s : State) (t : Fin 900) (i : Fin 4) (f : Facet → Facet) : (s.modFacet t i f).fabric = s.fabric := rfl
@[simp] theorem State.modFacet_host (s : State) (t : Fin 900) (i : Fin 4) (f : Facet → Facet) : (s.modFacet t i f).host = s.host := rfl
@[simp] theorem State.modFacet_get_ctx (s : State) (t : Fin 900) (i : Fin 4) (f : Facet → Facet) (b : Agent) : (s.modFacet t i f).ctx b = s.ctx b := rfl
@[simp] theorem State.modFacet_get_tile (s : State) (t : Fin 900) (i : Fin 4) (f : Facet → Facet) (u : Nat) : (s.modFacet t i f).tile u = s.tile u := rfl
@[simp] theorem State.modFacet_get_ni (s : State) (t : Fin 900) (i : Fin 4) (f : Facet → Facet) (p : Owner) : (s.modFacet t i f).ni p = s.ni p := rfl
@[simp] theorem State.modFacet_get_mm (s : State) (t : Fin 900) (i : Fin 4) (f : Facet → Facet) (u : Nat) : (s.modFacet t i f).mm u = s.mm u := rfl
@[simp] theorem State.modFacet_get_queue (s : State) (t : Fin 900) (i : Fin 4) (f : Facet → Facet) (m : Nat) : (s.modFacet t i f).queue m = s.queue m := rfl
@[simp] theorem State.modFacet_c (s : State) (t : Fin 900) (i : Fin 4) (f : Facet → Facet) : (s.modFacet t i f).c = s.c := rfl

/-! ### modNi -/

@[simp] theorem State.modNi_now (s : State) (o : Owner) (f : Ni → Ni) : (s.modNi o f).now = s.now := rfl
@[simp] theorem State.modNi_mhz (s : State) (o : Owner) (f : Ni → Ni) : (s.modNi o f).mhz = s.mhz := rfl
@[simp] theorem State.modNi_agenda (s : State) (o : Owner) (f : Ni → Ni) : (s.modNi o f).agenda = s.agenda := rfl
@[simp] theorem State.modNi_cur (s : State) (o : Owner) (f : Ni → Ni) : (s.modNi o f).cur = s.cur := rfl
@[simp] theorem State.modNi_latch (s : State) (o : Owner) (f : Ni → Ni) : (s.modNi o f).latch = s.latch := rfl
@[simp] theorem State.modNi_nextId (s : State) (o : Owner) (f : Ni → Ni) : (s.modNi o f).nextId = s.nextId := rfl
@[simp] theorem State.modNi_free (s : State) (o : Owner) (f : Ni → Ni) : (s.modNi o f).free = s.free := rfl
@[simp] theorem State.modNi_mem (s : State) (o : Owner) (f : Ni → Ni) : (s.modNi o f).mem = s.mem := rfl
@[simp] theorem State.modNi_softErrors (s : State) (o : Owner) (f : Ni → Ni) : (s.modNi o f).softErrors = s.softErrors := rfl
@[simp] theorem State.modNi_dirty (s : State) (o : Owner) (f : Ni → Ni) : (s.modNi o f).dirty = s.dirty := rfl
@[simp] theorem State.modNi_silent (s : State) (o : Owner) (f : Ni → Ni) : (s.modNi o f).silent = s.silent := rfl
@[simp] theorem State.modNi_ctxs (s : State) (o : Owner) (f : Ni → Ni) : (s.modNi o f).ctxs = s.ctxs := rfl
@[simp] theorem State.modNi_facets (s : State) (o : Owner) (f : Ni → Ni) : (s.modNi o f).facets = s.facets := rfl
@[simp] theorem State.modNi_tiles (s : State) (o : Owner) (f : Ni → Ni) : (s.modNi o f).tiles = s.tiles := rfl
@[simp] theorem State.modNi_mms (s : State) (o : Owner) (f : Ni → Ni) : (s.modNi o f).mms = s.mms := rfl
@[simp] theorem State.modNi_gangs (s : State) (o : Owner) (f : Ni → Ni) : (s.modNi o f).gangs = s.gangs := rfl
@[simp] theorem State.modNi_queues (s : State) (o : Owner) (f : Ni → Ni) : (s.modNi o f).queues = s.queues := rfl
@[simp] theorem State.modNi_pools (s : State) (o : Owner) (f : Ni → Ni) : (s.modNi o f).pools = s.pools := rfl
@[simp] theorem State.modNi_taskUnits (s : State) (o : Owner) (f : Ni → Ni) : (s.modNi o f).taskUnits = s.taskUnits := rfl
@[simp] theorem State.modNi_dispatch (s : State) (o : Owner) (f : Ni → Ni) : (s.modNi o f).dispatch = s.dispatch := rfl
@[simp] theorem State.modNi_relqs (s : State) (o : Owner) (f : Ni → Ni) : (s.modNi o f).relqs = s.relqs := rfl
@[simp] theorem State.modNi_net (s : State) (o : Owner) (f : Ni → Ni) : (s.modNi o f).net = s.net := rfl
@[simp] theorem State.modNi_msgs (s : State) (o : Owner) (f : Ni → Ni) : (s.modNi o f).msgs = s.msgs := rfl
@[simp] theorem State.modNi_freeze (s : State) (o : Owner) (f : Ni → Ni) : (s.modNi o f).freeze = s.freeze := rfl
@[simp] theorem State.modNi_mgmt (s : State) (o : Owner) (f : Ni → Ni) : (s.modNi o f).mgmt = s.mgmt := rfl
@[simp] theorem State.modNi_signet (s : State) (o : Owner) (f : Ni → Ni) : (s.modNi o f).signet = s.signet := rfl
@[simp] theorem State.modNi_fabric (s : State) (o : Owner) (f : Ni → Ni) : (s.modNi o f).fabric = s.fabric := rfl
@[simp] theorem State.modNi_host (s : State) (o : Owner) (f : Ni → Ni) : (s.modNi o f).host = s.host := rfl
@[simp] theorem State.modNi_get_ctx (s : State) (o : Owner) (f : Ni → Ni) (b : Agent) : (s.modNi o f).ctx b = s.ctx b := rfl
@[simp] theorem State.modNi_get_tile (s : State) (o : Owner) (f : Ni → Ni) (u : Nat) : (s.modNi o f).tile u = s.tile u := rfl
@[simp] theorem State.modNi_get_facet (s : State) (o : Owner) (f : Ni → Ni) (u : Fin 900) (g : Fin 4) : (s.modNi o f).facet u g = s.facet u g := rfl
@[simp] theorem State.modNi_get_mm (s : State) (o : Owner) (f : Ni → Ni) (u : Nat) : (s.modNi o f).mm u = s.mm u := rfl
@[simp] theorem State.modNi_get_queue (s : State) (o : Owner) (f : Ni → Ni) (m : Nat) : (s.modNi o f).queue m = s.queue m := rfl
@[simp] theorem State.modNi_c (s : State) (o : Owner) (f : Ni → Ni) : (s.modNi o f).c = s.c := rfl

/-! ### modTile -/

@[simp] theorem State.modTile_now (s : State) (t : Nat) (f : Tile → Tile) : (s.modTile t f).now = s.now := rfl
@[simp] theorem State.modTile_mhz (s : State) (t : Nat) (f : Tile → Tile) : (s.modTile t f).mhz = s.mhz := rfl
@[simp] theorem State.modTile_agenda (s : State) (t : Nat) (f : Tile → Tile) : (s.modTile t f).agenda = s.agenda := rfl
@[simp] theorem State.modTile_cur (s : State) (t : Nat) (f : Tile → Tile) : (s.modTile t f).cur = s.cur := rfl
@[simp] theorem State.modTile_latch (s : State) (t : Nat) (f : Tile → Tile) : (s.modTile t f).latch = s.latch := rfl
@[simp] theorem State.modTile_nextId (s : State) (t : Nat) (f : Tile → Tile) : (s.modTile t f).nextId = s.nextId := rfl
@[simp] theorem State.modTile_free (s : State) (t : Nat) (f : Tile → Tile) : (s.modTile t f).free = s.free := rfl
@[simp] theorem State.modTile_mem (s : State) (t : Nat) (f : Tile → Tile) : (s.modTile t f).mem = s.mem := rfl
@[simp] theorem State.modTile_softErrors (s : State) (t : Nat) (f : Tile → Tile) : (s.modTile t f).softErrors = s.softErrors := rfl
@[simp] theorem State.modTile_dirty (s : State) (t : Nat) (f : Tile → Tile) : (s.modTile t f).dirty = s.dirty := rfl
@[simp] theorem State.modTile_silent (s : State) (t : Nat) (f : Tile → Tile) : (s.modTile t f).silent = s.silent := rfl
@[simp] theorem State.modTile_ctxs (s : State) (t : Nat) (f : Tile → Tile) : (s.modTile t f).ctxs = s.ctxs := rfl
@[simp] theorem State.modTile_facets (s : State) (t : Nat) (f : Tile → Tile) : (s.modTile t f).facets = s.facets := rfl
@[simp] theorem State.modTile_nis (s : State) (t : Nat) (f : Tile → Tile) : (s.modTile t f).nis = s.nis := rfl
@[simp] theorem State.modTile_mms (s : State) (t : Nat) (f : Tile → Tile) : (s.modTile t f).mms = s.mms := rfl
@[simp] theorem State.modTile_gangs (s : State) (t : Nat) (f : Tile → Tile) : (s.modTile t f).gangs = s.gangs := rfl
@[simp] theorem State.modTile_queues (s : State) (t : Nat) (f : Tile → Tile) : (s.modTile t f).queues = s.queues := rfl
@[simp] theorem State.modTile_pools (s : State) (t : Nat) (f : Tile → Tile) : (s.modTile t f).pools = s.pools := rfl
@[simp] theorem State.modTile_taskUnits (s : State) (t : Nat) (f : Tile → Tile) : (s.modTile t f).taskUnits = s.taskUnits := rfl
@[simp] theorem State.modTile_dispatch (s : State) (t : Nat) (f : Tile → Tile) : (s.modTile t f).dispatch = s.dispatch := rfl
@[simp] theorem State.modTile_relqs (s : State) (t : Nat) (f : Tile → Tile) : (s.modTile t f).relqs = s.relqs := rfl
@[simp] theorem State.modTile_net (s : State) (t : Nat) (f : Tile → Tile) : (s.modTile t f).net = s.net := rfl
@[simp] theorem State.modTile_msgs (s : State) (t : Nat) (f : Tile → Tile) : (s.modTile t f).msgs = s.msgs := rfl
@[simp] theorem State.modTile_freeze (s : State) (t : Nat) (f : Tile → Tile) : (s.modTile t f).freeze = s.freeze := rfl
@[simp] theorem State.modTile_mgmt (s : State) (t : Nat) (f : Tile → Tile) : (s.modTile t f).mgmt = s.mgmt := rfl
@[simp] theorem State.modTile_signet (s : State) (t : Nat) (f : Tile → Tile) : (s.modTile t f).signet = s.signet := rfl
@[simp] theorem State.modTile_fabric (s : State) (t : Nat) (f : Tile → Tile) : (s.modTile t f).fabric = s.fabric := rfl
@[simp] theorem State.modTile_host (s : State) (t : Nat) (f : Tile → Tile) : (s.modTile t f).host = s.host := rfl
@[simp] theorem State.modTile_get_ctx (s : State) (t : Nat) (f : Tile → Tile) (b : Agent) : (s.modTile t f).ctx b = s.ctx b := rfl
@[simp] theorem State.modTile_get_facet (s : State) (t : Nat) (f : Tile → Tile) (u : Fin 900) (g : Fin 4) : (s.modTile t f).facet u g = s.facet u g := rfl
@[simp] theorem State.modTile_get_ni (s : State) (t : Nat) (f : Tile → Tile) (p : Owner) : (s.modTile t f).ni p = s.ni p := rfl
@[simp] theorem State.modTile_get_mm (s : State) (t : Nat) (f : Tile → Tile) (u : Nat) : (s.modTile t f).mm u = s.mm u := rfl
@[simp] theorem State.modTile_get_queue (s : State) (t : Nat) (f : Tile → Tile) (m : Nat) : (s.modTile t f).queue m = s.queue m := rfl
@[simp] theorem State.modTile_c (s : State) (t : Nat) (f : Tile → Tile) : (s.modTile t f).c = s.c := rfl

/-! ### modMm -/

@[simp] theorem State.modMm_now (s : State) (t : Nat) (f : Mm → Mm) : (s.modMm t f).now = s.now := rfl
@[simp] theorem State.modMm_mhz (s : State) (t : Nat) (f : Mm → Mm) : (s.modMm t f).mhz = s.mhz := rfl
@[simp] theorem State.modMm_agenda (s : State) (t : Nat) (f : Mm → Mm) : (s.modMm t f).agenda = s.agenda := rfl
@[simp] theorem State.modMm_cur (s : State) (t : Nat) (f : Mm → Mm) : (s.modMm t f).cur = s.cur := rfl
@[simp] theorem State.modMm_latch (s : State) (t : Nat) (f : Mm → Mm) : (s.modMm t f).latch = s.latch := rfl
@[simp] theorem State.modMm_nextId (s : State) (t : Nat) (f : Mm → Mm) : (s.modMm t f).nextId = s.nextId := rfl
@[simp] theorem State.modMm_free (s : State) (t : Nat) (f : Mm → Mm) : (s.modMm t f).free = s.free := rfl
@[simp] theorem State.modMm_mem (s : State) (t : Nat) (f : Mm → Mm) : (s.modMm t f).mem = s.mem := rfl
@[simp] theorem State.modMm_softErrors (s : State) (t : Nat) (f : Mm → Mm) : (s.modMm t f).softErrors = s.softErrors := rfl
@[simp] theorem State.modMm_dirty (s : State) (t : Nat) (f : Mm → Mm) : (s.modMm t f).dirty = s.dirty := rfl
@[simp] theorem State.modMm_silent (s : State) (t : Nat) (f : Mm → Mm) : (s.modMm t f).silent = s.silent := rfl
@[simp] theorem State.modMm_ctxs (s : State) (t : Nat) (f : Mm → Mm) : (s.modMm t f).ctxs = s.ctxs := rfl
@[simp] theorem State.modMm_facets (s : State) (t : Nat) (f : Mm → Mm) : (s.modMm t f).facets = s.facets := rfl
@[simp] theorem State.modMm_nis (s : State) (t : Nat) (f : Mm → Mm) : (s.modMm t f).nis = s.nis := rfl
@[simp] theorem State.modMm_tiles (s : State) (t : Nat) (f : Mm → Mm) : (s.modMm t f).tiles = s.tiles := rfl
@[simp] theorem State.modMm_gangs (s : State) (t : Nat) (f : Mm → Mm) : (s.modMm t f).gangs = s.gangs := rfl
@[simp] theorem State.modMm_queues (s : State) (t : Nat) (f : Mm → Mm) : (s.modMm t f).queues = s.queues := rfl
@[simp] theorem State.modMm_pools (s : State) (t : Nat) (f : Mm → Mm) : (s.modMm t f).pools = s.pools := rfl
@[simp] theorem State.modMm_taskUnits (s : State) (t : Nat) (f : Mm → Mm) : (s.modMm t f).taskUnits = s.taskUnits := rfl
@[simp] theorem State.modMm_dispatch (s : State) (t : Nat) (f : Mm → Mm) : (s.modMm t f).dispatch = s.dispatch := rfl
@[simp] theorem State.modMm_relqs (s : State) (t : Nat) (f : Mm → Mm) : (s.modMm t f).relqs = s.relqs := rfl
@[simp] theorem State.modMm_net (s : State) (t : Nat) (f : Mm → Mm) : (s.modMm t f).net = s.net := rfl
@[simp] theorem State.modMm_msgs (s : State) (t : Nat) (f : Mm → Mm) : (s.modMm t f).msgs = s.msgs := rfl
@[simp] theorem State.modMm_freeze (s : State) (t : Nat) (f : Mm → Mm) : (s.modMm t f).freeze = s.freeze := rfl
@[simp] theorem State.modMm_mgmt (s : State) (t : Nat) (f : Mm → Mm) : (s.modMm t f).mgmt = s.mgmt := rfl
@[simp] theorem State.modMm_signet (s : State) (t : Nat) (f : Mm → Mm) : (s.modMm t f).signet = s.signet := rfl
@[simp] theorem State.modMm_fabric (s : State) (t : Nat) (f : Mm → Mm) : (s.modMm t f).fabric = s.fabric := rfl
@[simp] theorem State.modMm_host (s : State) (t : Nat) (f : Mm → Mm) : (s.modMm t f).host = s.host := rfl
@[simp] theorem State.modMm_get_ctx (s : State) (t : Nat) (f : Mm → Mm) (b : Agent) : (s.modMm t f).ctx b = s.ctx b := rfl
@[simp] theorem State.modMm_get_tile (s : State) (t : Nat) (f : Mm → Mm) (u : Nat) : (s.modMm t f).tile u = s.tile u := rfl
@[simp] theorem State.modMm_get_facet (s : State) (t : Nat) (f : Mm → Mm) (u : Fin 900) (g : Fin 4) : (s.modMm t f).facet u g = s.facet u g := rfl
@[simp] theorem State.modMm_get_ni (s : State) (t : Nat) (f : Mm → Mm) (p : Owner) : (s.modMm t f).ni p = s.ni p := rfl
@[simp] theorem State.modMm_get_queue (s : State) (t : Nat) (f : Mm → Mm) (m : Nat) : (s.modMm t f).queue m = s.queue m := rfl
@[simp] theorem State.modMm_c (s : State) (t : Nat) (f : Mm → Mm) : (s.modMm t f).c = s.c := rfl

/-! ### setQueue -/

@[simp] theorem State.setQueue_now (s : State) (n : Nat) (q : Queue) : (s.setQueue n q).now = s.now := rfl
@[simp] theorem State.setQueue_mhz (s : State) (n : Nat) (q : Queue) : (s.setQueue n q).mhz = s.mhz := rfl
@[simp] theorem State.setQueue_agenda (s : State) (n : Nat) (q : Queue) : (s.setQueue n q).agenda = s.agenda := rfl
@[simp] theorem State.setQueue_cur (s : State) (n : Nat) (q : Queue) : (s.setQueue n q).cur = s.cur := rfl
@[simp] theorem State.setQueue_latch (s : State) (n : Nat) (q : Queue) : (s.setQueue n q).latch = s.latch := rfl
@[simp] theorem State.setQueue_nextId (s : State) (n : Nat) (q : Queue) : (s.setQueue n q).nextId = s.nextId := rfl
@[simp] theorem State.setQueue_free (s : State) (n : Nat) (q : Queue) : (s.setQueue n q).free = s.free := rfl
@[simp] theorem State.setQueue_mem (s : State) (n : Nat) (q : Queue) : (s.setQueue n q).mem = s.mem := rfl
@[simp] theorem State.setQueue_softErrors (s : State) (n : Nat) (q : Queue) : (s.setQueue n q).softErrors = s.softErrors := rfl
@[simp] theorem State.setQueue_dirty (s : State) (n : Nat) (q : Queue) : (s.setQueue n q).dirty = s.dirty := rfl
@[simp] theorem State.setQueue_silent (s : State) (n : Nat) (q : Queue) : (s.setQueue n q).silent = s.silent := rfl
@[simp] theorem State.setQueue_ctxs (s : State) (n : Nat) (q : Queue) : (s.setQueue n q).ctxs = s.ctxs := rfl
@[simp] theorem State.setQueue_facets (s : State) (n : Nat) (q : Queue) : (s.setQueue n q).facets = s.facets := rfl
@[simp] theorem State.setQueue_nis (s : State) (n : Nat) (q : Queue) : (s.setQueue n q).nis = s.nis := rfl
@[simp] theorem State.setQueue_tiles (s : State) (n : Nat) (q : Queue) : (s.setQueue n q).tiles = s.tiles := rfl
@[simp] theorem State.setQueue_mms (s : State) (n : Nat) (q : Queue) : (s.setQueue n q).mms = s.mms := rfl
@[simp] theorem State.setQueue_gangs (s : State) (n : Nat) (q : Queue) : (s.setQueue n q).gangs = s.gangs := rfl
@[simp] theorem State.setQueue_pools (s : State) (n : Nat) (q : Queue) : (s.setQueue n q).pools = s.pools := rfl
@[simp] theorem State.setQueue_taskUnits (s : State) (n : Nat) (q : Queue) : (s.setQueue n q).taskUnits = s.taskUnits := rfl
@[simp] theorem State.setQueue_dispatch (s : State) (n : Nat) (q : Queue) : (s.setQueue n q).dispatch = s.dispatch := rfl
@[simp] theorem State.setQueue_relqs (s : State) (n : Nat) (q : Queue) : (s.setQueue n q).relqs = s.relqs := rfl
@[simp] theorem State.setQueue_net (s : State) (n : Nat) (q : Queue) : (s.setQueue n q).net = s.net := rfl
@[simp] theorem State.setQueue_msgs (s : State) (n : Nat) (q : Queue) : (s.setQueue n q).msgs = s.msgs := rfl
@[simp] theorem State.setQueue_freeze (s : State) (n : Nat) (q : Queue) : (s.setQueue n q).freeze = s.freeze := rfl
@[simp] theorem State.setQueue_mgmt (s : State) (n : Nat) (q : Queue) : (s.setQueue n q).mgmt = s.mgmt := rfl
@[simp] theorem State.setQueue_signet (s : State) (n : Nat) (q : Queue) : (s.setQueue n q).signet = s.signet := rfl
@[simp] theorem State.setQueue_fabric (s : State) (n : Nat) (q : Queue) : (s.setQueue n q).fabric = s.fabric := rfl
@[simp] theorem State.setQueue_host (s : State) (n : Nat) (q : Queue) : (s.setQueue n q).host = s.host := rfl
@[simp] theorem State.setQueue_get_ctx (s : State) (n : Nat) (q : Queue) (b : Agent) : (s.setQueue n q).ctx b = s.ctx b := rfl
@[simp] theorem State.setQueue_get_tile (s : State) (n : Nat) (q : Queue) (u : Nat) : (s.setQueue n q).tile u = s.tile u := rfl
@[simp] theorem State.setQueue_get_facet (s : State) (n : Nat) (q : Queue) (u : Fin 900) (g : Fin 4) : (s.setQueue n q).facet u g = s.facet u g := rfl
@[simp] theorem State.setQueue_get_ni (s : State) (n : Nat) (q : Queue) (p : Owner) : (s.setQueue n q).ni p = s.ni p := rfl
@[simp] theorem State.setQueue_get_mm (s : State) (n : Nat) (q : Queue) (u : Nat) : (s.setQueue n q).mm u = s.mm u := rfl
@[simp] theorem State.setQueue_c (s : State) (n : Nat) (q : Queue) : (s.setQueue n q).c = s.c := rfl

/-! ### setPool -/

@[simp] theorem State.setPool_now (s : State) (n : Nat) (w : Pool) : (s.setPool n w).now = s.now := rfl
@[simp] theorem State.setPool_mhz (s : State) (n : Nat) (w : Pool) : (s.setPool n w).mhz = s.mhz := rfl
@[simp] theorem State.setPool_agenda (s : State) (n : Nat) (w : Pool) : (s.setPool n w).agenda = s.agenda := rfl
@[simp] theorem State.setPool_cur (s : State) (n : Nat) (w : Pool) : (s.setPool n w).cur = s.cur := rfl
@[simp] theorem State.setPool_latch (s : State) (n : Nat) (w : Pool) : (s.setPool n w).latch = s.latch := rfl
@[simp] theorem State.setPool_nextId (s : State) (n : Nat) (w : Pool) : (s.setPool n w).nextId = s.nextId := rfl
@[simp] theorem State.setPool_free (s : State) (n : Nat) (w : Pool) : (s.setPool n w).free = s.free := rfl
@[simp] theorem State.setPool_mem (s : State) (n : Nat) (w : Pool) : (s.setPool n w).mem = s.mem := rfl
@[simp] theorem State.setPool_softErrors (s : State) (n : Nat) (w : Pool) : (s.setPool n w).softErrors = s.softErrors := rfl
@[simp] theorem State.setPool_dirty (s : State) (n : Nat) (w : Pool) : (s.setPool n w).dirty = s.dirty := rfl
@[simp] theorem State.setPool_silent (s : State) (n : Nat) (w : Pool) : (s.setPool n w).silent = s.silent := rfl
@[simp] theorem State.setPool_ctxs (s : State) (n : Nat) (w : Pool) : (s.setPool n w).ctxs = s.ctxs := rfl
@[simp] theorem State.setPool_facets (s : State) (n : Nat) (w : Pool) : (s.setPool n w).facets = s.facets := rfl
@[simp] theorem State.setPool_nis (s : State) (n : Nat) (w : Pool) : (s.setPool n w).nis = s.nis := rfl
@[simp] theorem State.setPool_tiles (s : State) (n : Nat) (w : Pool) : (s.setPool n w).tiles = s.tiles := rfl
@[simp] theorem State.setPool_mms (s : State) (n : Nat) (w : Pool) : (s.setPool n w).mms = s.mms := rfl
@[simp] theorem State.setPool_gangs (s : State) (n : Nat) (w : Pool) : (s.setPool n w).gangs = s.gangs := rfl
@[simp] theorem State.setPool_queues (s : State) (n : Nat) (w : Pool) : (s.setPool n w).queues = s.queues := rfl
@[simp] theorem State.setPool_taskUnits (s : State) (n : Nat) (w : Pool) : (s.setPool n w).taskUnits = s.taskUnits := rfl
@[simp] theorem State.setPool_dispatch (s : State) (n : Nat) (w : Pool) : (s.setPool n w).dispatch = s.dispatch := rfl
@[simp] theorem State.setPool_relqs (s : State) (n : Nat) (w : Pool) : (s.setPool n w).relqs = s.relqs := rfl
@[simp] theorem State.setPool_net (s : State) (n : Nat) (w : Pool) : (s.setPool n w).net = s.net := rfl
@[simp] theorem State.setPool_msgs (s : State) (n : Nat) (w : Pool) : (s.setPool n w).msgs = s.msgs := rfl
@[simp] theorem State.setPool_freeze (s : State) (n : Nat) (w : Pool) : (s.setPool n w).freeze = s.freeze := rfl
@[simp] theorem State.setPool_mgmt (s : State) (n : Nat) (w : Pool) : (s.setPool n w).mgmt = s.mgmt := rfl
@[simp] theorem State.setPool_signet (s : State) (n : Nat) (w : Pool) : (s.setPool n w).signet = s.signet := rfl
@[simp] theorem State.setPool_fabric (s : State) (n : Nat) (w : Pool) : (s.setPool n w).fabric = s.fabric := rfl
@[simp] theorem State.setPool_host (s : State) (n : Nat) (w : Pool) : (s.setPool n w).host = s.host := rfl
@[simp] theorem State.setPool_get_ctx (s : State) (n : Nat) (w : Pool) (b : Agent) : (s.setPool n w).ctx b = s.ctx b := rfl
@[simp] theorem State.setPool_get_tile (s : State) (n : Nat) (w : Pool) (u : Nat) : (s.setPool n w).tile u = s.tile u := rfl
@[simp] theorem State.setPool_get_facet (s : State) (n : Nat) (w : Pool) (u : Fin 900) (g : Fin 4) : (s.setPool n w).facet u g = s.facet u g := rfl
@[simp] theorem State.setPool_get_ni (s : State) (n : Nat) (w : Pool) (p : Owner) : (s.setPool n w).ni p = s.ni p := rfl
@[simp] theorem State.setPool_get_mm (s : State) (n : Nat) (w : Pool) (u : Nat) : (s.setPool n w).mm u = s.mm u := rfl
@[simp] theorem State.setPool_get_queue (s : State) (n : Nat) (w : Pool) (m : Nat) : (s.setPool n w).queue m = s.queue m := rfl
@[simp] theorem State.setPool_c (s : State) (n : Nat) (w : Pool) : (s.setPool n w).c = s.c := rfl

/-! ### modMgmt -/

@[simp] theorem State.modMgmt_now (s : State) (f : Mgmt → Mgmt) : (s.modMgmt f).now = s.now := rfl
@[simp] theorem State.modMgmt_mhz (s : State) (f : Mgmt → Mgmt) : (s.modMgmt f).mhz = s.mhz := rfl
@[simp] theorem State.modMgmt_agenda (s : State) (f : Mgmt → Mgmt) : (s.modMgmt f).agenda = s.agenda := rfl
@[simp] theorem State.modMgmt_cur (s : State) (f : Mgmt → Mgmt) : (s.modMgmt f).cur = s.cur := rfl
@[simp] theorem State.modMgmt_latch (s : State) (f : Mgmt → Mgmt) : (s.modMgmt f).latch = s.latch := rfl
@[simp] theorem State.modMgmt_nextId (s : State) (f : Mgmt → Mgmt) : (s.modMgmt f).nextId = s.nextId := rfl
@[simp] theorem State.modMgmt_free (s : State) (f : Mgmt → Mgmt) : (s.modMgmt f).free = s.free := rfl
@[simp] theorem State.modMgmt_mem (s : State) (f : Mgmt → Mgmt) : (s.modMgmt f).mem = s.mem := rfl
@[simp] theorem State.modMgmt_softErrors (s : State) (f : Mgmt → Mgmt) : (s.modMgmt f).softErrors = s.softErrors := rfl
@[simp] theorem State.modMgmt_dirty (s : State) (f : Mgmt → Mgmt) : (s.modMgmt f).dirty = s.dirty := rfl
@[simp] theorem State.modMgmt_silent (s : State) (f : Mgmt → Mgmt) : (s.modMgmt f).silent = s.silent := rfl
@[simp] theorem State.modMgmt_ctxs (s : State) (f : Mgmt → Mgmt) : (s.modMgmt f).ctxs = s.ctxs := rfl
@[simp] theorem State.modMgmt_facets (s : State) (f : Mgmt → Mgmt) : (s.modMgmt f).facets = s.facets := rfl
@[simp] theorem State.modMgmt_nis (s : State) (f : Mgmt → Mgmt) : (s.modMgmt f).nis = s.nis := rfl
@[simp] theorem State.modMgmt_tiles (s : State) (f : Mgmt → Mgmt) : (s.modMgmt f).tiles = s.tiles := rfl
@[simp] theorem State.modMgmt_mms (s : State) (f : Mgmt → Mgmt) : (s.modMgmt f).mms = s.mms := rfl
@[simp] theorem State.modMgmt_gangs (s : State) (f : Mgmt → Mgmt) : (s.modMgmt f).gangs = s.gangs := rfl
@[simp] theorem State.modMgmt_queues (s : State) (f : Mgmt → Mgmt) : (s.modMgmt f).queues = s.queues := rfl
@[simp] theorem State.modMgmt_pools (s : State) (f : Mgmt → Mgmt) : (s.modMgmt f).pools = s.pools := rfl
@[simp] theorem State.modMgmt_taskUnits (s : State) (f : Mgmt → Mgmt) : (s.modMgmt f).taskUnits = s.taskUnits := rfl
@[simp] theorem State.modMgmt_dispatch (s : State) (f : Mgmt → Mgmt) : (s.modMgmt f).dispatch = s.dispatch := rfl
@[simp] theorem State.modMgmt_relqs (s : State) (f : Mgmt → Mgmt) : (s.modMgmt f).relqs = s.relqs := rfl
@[simp] theorem State.modMgmt_net (s : State) (f : Mgmt → Mgmt) : (s.modMgmt f).net = s.net := rfl
@[simp] theorem State.modMgmt_msgs (s : State) (f : Mgmt → Mgmt) : (s.modMgmt f).msgs = s.msgs := rfl
@[simp] theorem State.modMgmt_freeze (s : State) (f : Mgmt → Mgmt) : (s.modMgmt f).freeze = s.freeze := rfl
@[simp] theorem State.modMgmt_signet (s : State) (f : Mgmt → Mgmt) : (s.modMgmt f).signet = s.signet := rfl
@[simp] theorem State.modMgmt_fabric (s : State) (f : Mgmt → Mgmt) : (s.modMgmt f).fabric = s.fabric := rfl
@[simp] theorem State.modMgmt_host (s : State) (f : Mgmt → Mgmt) : (s.modMgmt f).host = s.host := rfl
@[simp] theorem State.modMgmt_get_ctx (s : State) (f : Mgmt → Mgmt) (b : Agent) : (s.modMgmt f).ctx b = s.ctx b := rfl
@[simp] theorem State.modMgmt_get_tile (s : State) (f : Mgmt → Mgmt) (u : Nat) : (s.modMgmt f).tile u = s.tile u := rfl
@[simp] theorem State.modMgmt_get_facet (s : State) (f : Mgmt → Mgmt) (u : Fin 900) (g : Fin 4) : (s.modMgmt f).facet u g = s.facet u g := rfl
@[simp] theorem State.modMgmt_get_ni (s : State) (f : Mgmt → Mgmt) (p : Owner) : (s.modMgmt f).ni p = s.ni p := rfl
@[simp] theorem State.modMgmt_get_mm (s : State) (f : Mgmt → Mgmt) (u : Nat) : (s.modMgmt f).mm u = s.mm u := rfl
@[simp] theorem State.modMgmt_get_queue (s : State) (f : Mgmt → Mgmt) (m : Nat) : (s.modMgmt f).queue m = s.queue m := rfl
@[simp] theorem State.modMgmt_c (s : State) (f : Mgmt → Mgmt) : (s.modMgmt f).c = s.c := rfl

/-! ### modHost -/

@[simp] theorem State.modHost_now (s : State) (f : HostSide → HostSide) : (s.modHost f).now = s.now := rfl
@[simp] theorem State.modHost_mhz (s : State) (f : HostSide → HostSide) : (s.modHost f).mhz = s.mhz := rfl
@[simp] theorem State.modHost_agenda (s : State) (f : HostSide → HostSide) : (s.modHost f).agenda = s.agenda := rfl
@[simp] theorem State.modHost_cur (s : State) (f : HostSide → HostSide) : (s.modHost f).cur = s.cur := rfl
@[simp] theorem State.modHost_latch (s : State) (f : HostSide → HostSide) : (s.modHost f).latch = s.latch := rfl
@[simp] theorem State.modHost_nextId (s : State) (f : HostSide → HostSide) : (s.modHost f).nextId = s.nextId := rfl
@[simp] theorem State.modHost_free (s : State) (f : HostSide → HostSide) : (s.modHost f).free = s.free := rfl
@[simp] theorem State.modHost_mem (s : State) (f : HostSide → HostSide) : (s.modHost f).mem = s.mem := rfl
@[simp] theorem State.modHost_softErrors (s : State) (f : HostSide → HostSide) : (s.modHost f).softErrors = s.softErrors := rfl
@[simp] theorem State.modHost_dirty (s : State) (f : HostSide → HostSide) : (s.modHost f).dirty = s.dirty := rfl
@[simp] theorem State.modHost_silent (s : State) (f : HostSide → HostSide) : (s.modHost f).silent = s.silent := rfl
@[simp] theorem State.modHost_ctxs (s : State) (f : HostSide → HostSide) : (s.modHost f).ctxs = s.ctxs := rfl
@[simp] theorem State.modHost_facets (s : State) (f : HostSide → HostSide) : (s.modHost f).facets = s.facets := rfl
@[simp] theorem State.modHost_nis (s : State) (f : HostSide → HostSide) : (s.modHost f).nis = s.nis := rfl
@[simp] theorem State.modHost_tiles (s : State) (f : HostSide → HostSide) : (s.modHost f).tiles = s.tiles := rfl
@[simp] theorem State.modHost_mms (s : State) (f : HostSide → HostSide) : (s.modHost f).mms = s.mms := rfl
@[simp] theorem State.modHost_gangs (s : State) (f : HostSide → HostSide) : (s.modHost f).gangs = s.gangs := rfl
@[simp] theorem State.modHost_queues (s : State) (f : HostSide → HostSide) : (s.modHost f).queues = s.queues := rfl
@[simp] theorem State.modHost_pools (s : State) (f : HostSide → HostSide) : (s.modHost f).pools = s.pools := rfl
@[simp] theorem State.modHost_taskUnits (s : State) (f : HostSide → HostSide) : (s.modHost f).taskUnits = s.taskUnits := rfl
@[simp] theorem State.modHost_dispatch (s : State) (f : HostSide → HostSide) : (s.modHost f).dispatch = s.dispatch := rfl
@[simp] theorem State.modHost_relqs (s : State) (f : HostSide → HostSide) : (s.modHost f).relqs = s.relqs := rfl
@[simp] theorem State.modHost_net (s : State) (f : HostSide → HostSide) : (s.modHost f).net = s.net := rfl
@[simp] theorem State.modHost_msgs (s : State) (f : HostSide → HostSide) : (s.modHost f).msgs = s.msgs := rfl
@[simp] theorem State.modHost_freeze (s : State) (f : HostSide → HostSide) : (s.modHost f).freeze = s.freeze := rfl
@[simp] theorem State.modHost_mgmt (s : State) (f : HostSide → HostSide) : (s.modHost f).mgmt = s.mgmt := rfl
@[simp] theorem State.modHost_signet (s : State) (f : HostSide → HostSide) : (s.modHost f).signet = s.signet := rfl
@[simp] theorem State.modHost_fabric (s : State) (f : HostSide → HostSide) : (s.modHost f).fabric = s.fabric := rfl
@[simp] theorem State.modHost_get_ctx (s : State) (f : HostSide → HostSide) (b : Agent) : (s.modHost f).ctx b = s.ctx b := rfl
@[simp] theorem State.modHost_get_tile (s : State) (f : HostSide → HostSide) (u : Nat) : (s.modHost f).tile u = s.tile u := rfl
@[simp] theorem State.modHost_get_facet (s : State) (f : HostSide → HostSide) (u : Fin 900) (g : Fin 4) : (s.modHost f).facet u g = s.facet u g := rfl
@[simp] theorem State.modHost_get_ni (s : State) (f : HostSide → HostSide) (p : Owner) : (s.modHost f).ni p = s.ni p := rfl
@[simp] theorem State.modHost_get_mm (s : State) (f : HostSide → HostSide) (u : Nat) : (s.modHost f).mm u = s.mm u := rfl
@[simp] theorem State.modHost_get_queue (s : State) (f : HostSide → HostSide) (m : Nat) : (s.modHost f).queue m = s.queue m := rfl
@[simp] theorem State.modHost_c (s : State) (f : HostSide → HostSide) : (s.modHost f).c = s.c := rfl

/-! ### poke -/

@[simp] theorem State.poke_now (s : State) (l n v : Nat) : (s.poke l n v).now = s.now := rfl
@[simp] theorem State.poke_mhz (s : State) (l n v : Nat) : (s.poke l n v).mhz = s.mhz := rfl
@[simp] theorem State.poke_agenda (s : State) (l n v : Nat) : (s.poke l n v).agenda = s.agenda := rfl
@[simp] theorem State.poke_cur (s : State) (l n v : Nat) : (s.poke l n v).cur = s.cur := rfl
@[simp] theorem State.poke_latch (s : State) (l n v : Nat) : (s.poke l n v).latch = s.latch := rfl
@[simp] theorem State.poke_nextId (s : State) (l n v : Nat) : (s.poke l n v).nextId = s.nextId := rfl
@[simp] theorem State.poke_free (s : State) (l n v : Nat) : (s.poke l n v).free = s.free := rfl
@[simp] theorem State.poke_softErrors (s : State) (l n v : Nat) : (s.poke l n v).softErrors = s.softErrors := rfl
@[simp] theorem State.poke_dirty (s : State) (l n v : Nat) : (s.poke l n v).dirty = s.dirty := rfl
@[simp] theorem State.poke_silent (s : State) (l n v : Nat) : (s.poke l n v).silent = s.silent := rfl
@[simp] theorem State.poke_ctxs (s : State) (l n v : Nat) : (s.poke l n v).ctxs = s.ctxs := rfl
@[simp] theorem State.poke_facets (s : State) (l n v : Nat) : (s.poke l n v).facets = s.facets := rfl
@[simp] theorem State.poke_nis (s : State) (l n v : Nat) : (s.poke l n v).nis = s.nis := rfl
@[simp] theorem State.poke_tiles (s : State) (l n v : Nat) : (s.poke l n v).tiles = s.tiles := rfl
@[simp] theorem State.poke_mms (s : State) (l n v : Nat) : (s.poke l n v).mms = s.mms := rfl
@[simp] theorem State.poke_gangs (s : State) (l n v : Nat) : (s.poke l n v).gangs = s.gangs := rfl
@[simp] theorem State.poke_queues (s : State) (l n v : Nat) : (s.poke l n v).queues = s.queues := rfl
@[simp] theorem State.poke_pools (s : State) (l n v : Nat) : (s.poke l n v).pools = s.pools := rfl
@[simp] theorem State.poke_taskUnits (s : State) (l n v : Nat) : (s.poke l n v).taskUnits = s.taskUnits := rfl
@[simp] theorem State.poke_dispatch (s : State) (l n v : Nat) : (s.poke l n v).dispatch = s.dispatch := rfl
@[simp] theorem State.poke_relqs (s : State) (l n v : Nat) : (s.poke l n v).relqs = s.relqs := rfl
@[simp] theorem State.poke_net (s : State) (l n v : Nat) : (s.poke l n v).net = s.net := rfl
@[simp] theorem State.poke_msgs (s : State) (l n v : Nat) : (s.poke l n v).msgs = s.msgs := rfl
@[simp] theorem State.poke_freeze (s : State) (l n v : Nat) : (s.poke l n v).freeze = s.freeze := rfl
@[simp] theorem State.poke_mgmt (s : State) (l n v : Nat) : (s.poke l n v).mgmt = s.mgmt := rfl
@[simp] theorem State.poke_signet (s : State) (l n v : Nat) : (s.poke l n v).signet = s.signet := rfl
@[simp] theorem State.poke_fabric (s : State) (l n v : Nat) : (s.poke l n v).fabric = s.fabric := rfl
@[simp] theorem State.poke_host (s : State) (l n v : Nat) : (s.poke l n v).host = s.host := rfl
@[simp] theorem State.poke_get_ctx (s : State) (l n v : Nat) (b : Agent) : (s.poke l n v).ctx b = s.ctx b := rfl
@[simp] theorem State.poke_get_tile (s : State) (l n v : Nat) (u : Nat) : (s.poke l n v).tile u = s.tile u := rfl
@[simp] theorem State.poke_get_facet (s : State) (l n v : Nat) (u : Fin 900) (g : Fin 4) : (s.poke l n v).facet u g = s.facet u g := rfl
@[simp] theorem State.poke_get_ni (s : State) (l n v : Nat) (p : Owner) : (s.poke l n v).ni p = s.ni p := rfl
@[simp] theorem State.poke_get_mm (s : State) (l n v : Nat) (u : Nat) : (s.poke l n v).mm u = s.mm u := rfl
@[simp] theorem State.poke_get_queue (s : State) (l n v : Nat) (m : Nat) : (s.poke l n v).queue m = s.queue m := rfl
@[simp] theorem State.poke_c (s : State) (l n v : Nat) : (s.poke l n v).c = s.c := rfl

/-! ### writeBank -/

@[simp] theorem State.writeBank_now (s : State) (t o : Nat) (w : Vector Word 8) : (s.writeBank t o w).now = s.now := rfl
@[simp] theorem State.writeBank_mhz (s : State) (t o : Nat) (w : Vector Word 8) : (s.writeBank t o w).mhz = s.mhz := rfl
@[simp] theorem State.writeBank_agenda (s : State) (t o : Nat) (w : Vector Word 8) : (s.writeBank t o w).agenda = s.agenda := rfl
@[simp] theorem State.writeBank_cur (s : State) (t o : Nat) (w : Vector Word 8) : (s.writeBank t o w).cur = s.cur := rfl
@[simp] theorem State.writeBank_latch (s : State) (t o : Nat) (w : Vector Word 8) : (s.writeBank t o w).latch = s.latch := rfl
@[simp] theorem State.writeBank_nextId (s : State) (t o : Nat) (w : Vector Word 8) : (s.writeBank t o w).nextId = s.nextId := rfl
@[simp] theorem State.writeBank_free (s : State) (t o : Nat) (w : Vector Word 8) : (s.writeBank t o w).free = s.free := rfl
@[simp] theorem State.writeBank_softErrors (s : State) (t o : Nat) (w : Vector Word 8) : (s.writeBank t o w).softErrors = s.softErrors := rfl
@[simp] theorem State.writeBank_dirty (s : State) (t o : Nat) (w : Vector Word 8) : (s.writeBank t o w).dirty = s.dirty := rfl
@[simp] theorem State.writeBank_silent (s : State) (t o : Nat) (w : Vector Word 8) : (s.writeBank t o w).silent = s.silent := rfl
@[simp] theorem State.writeBank_ctxs (s : State) (t o : Nat) (w : Vector Word 8) : (s.writeBank t o w).ctxs = s.ctxs := rfl
@[simp] theorem State.writeBank_facets (s : State) (t o : Nat) (w : Vector Word 8) : (s.writeBank t o w).facets = s.facets := rfl
@[simp] theorem State.writeBank_nis (s : State) (t o : Nat) (w : Vector Word 8) : (s.writeBank t o w).nis = s.nis := rfl
@[simp] theorem State.writeBank_tiles (s : State) (t o : Nat) (w : Vector Word 8) : (s.writeBank t o w).tiles = s.tiles := rfl
@[simp] theorem State.writeBank_mms (s : State) (t o : Nat) (w : Vector Word 8) : (s.writeBank t o w).mms = s.mms := rfl
@[simp] theorem State.writeBank_gangs (s : State) (t o : Nat) (w : Vector Word 8) : (s.writeBank t o w).gangs = s.gangs := rfl
@[simp] theorem State.writeBank_queues (s : State) (t o : Nat) (w : Vector Word 8) : (s.writeBank t o w).queues = s.queues := rfl
@[simp] theorem State.writeBank_pools (s : State) (t o : Nat) (w : Vector Word 8) : (s.writeBank t o w).pools = s.pools := rfl
@[simp] theorem State.writeBank_taskUnits (s : State) (t o : Nat) (w : Vector Word 8) : (s.writeBank t o w).taskUnits = s.taskUnits := rfl
@[simp] theorem State.writeBank_dispatch (s : State) (t o : Nat) (w : Vector Word 8) : (s.writeBank t o w).dispatch = s.dispatch := rfl
@[simp] theorem State.writeBank_relqs (s : State) (t o : Nat) (w : Vector Word 8) : (s.writeBank t o w).relqs = s.relqs := rfl
@[simp] theorem State.writeBank_net (s : State) (t o : Nat) (w : Vector Word 8) : (s.writeBank t o w).net = s.net := rfl
@[simp] theorem State.writeBank_msgs (s : State) (t o : Nat) (w : Vector Word 8) : (s.writeBank t o w).msgs = s.msgs := rfl
@[simp] theorem State.writeBank_freeze (s : State) (t o : Nat) (w : Vector Word 8) : (s.writeBank t o w).freeze = s.freeze := rfl
@[simp] theorem State.writeBank_mgmt (s : State) (t o : Nat) (w : Vector Word 8) : (s.writeBank t o w).mgmt = s.mgmt := rfl
@[simp] theorem State.writeBank_signet (s : State) (t o : Nat) (w : Vector Word 8) : (s.writeBank t o w).signet = s.signet := rfl
@[simp] theorem State.writeBank_fabric (s : State) (t o : Nat) (w : Vector Word 8) : (s.writeBank t o w).fabric = s.fabric := rfl
@[simp] theorem State.writeBank_host (s : State) (t o : Nat) (w : Vector Word 8) : (s.writeBank t o w).host = s.host := rfl
@[simp] theorem State.writeBank_get_ctx (s : State) (t o : Nat) (w : Vector Word 8) (b : Agent) : (s.writeBank t o w).ctx b = s.ctx b := rfl
@[simp] theorem State.writeBank_get_tile (s : State) (t o : Nat) (w : Vector Word 8) (u : Nat) : (s.writeBank t o w).tile u = s.tile u := rfl
@[simp] theorem State.writeBank_get_facet (s : State) (t o : Nat) (w : Vector Word 8) (u : Fin 900) (g : Fin 4) : (s.writeBank t o w).facet u g = s.facet u g := rfl
@[simp] theorem State.writeBank_get_ni (s : State) (t o : Nat) (w : Vector Word 8) (p : Owner) : (s.writeBank t o w).ni p = s.ni p := rfl
@[simp] theorem State.writeBank_get_mm (s : State) (t o : Nat) (w : Vector Word 8) (u : Nat) : (s.writeBank t o w).mm u = s.mm u := rfl
@[simp] theorem State.writeBank_get_queue (s : State) (t o : Nat) (w : Vector Word 8) (m : Nat) : (s.writeBank t o w).queue m = s.queue m := rfl
@[simp] theorem State.writeBank_c (s : State) (t o : Nat) (w : Vector Word 8) : (s.writeBank t o w).c = s.c := rfl

/-! ### spend -/

@[simp] theorem State.spend_now (s : State) : (s.spend).now = s.now := rfl
@[simp] theorem State.spend_mhz (s : State) : (s.spend).mhz = s.mhz := rfl
@[simp] theorem State.spend_agenda (s : State) : (s.spend).agenda = s.agenda := rfl
@[simp] theorem State.spend_cur (s : State) : (s.spend).cur = s.cur := rfl
@[simp] theorem State.spend_latch (s : State) : (s.spend).latch = s.latch := rfl
@[simp] theorem State.spend_nextId (s : State) : (s.spend).nextId = s.nextId := rfl
@[simp] theorem State.spend_mem (s : State) : (s.spend).mem = s.mem := rfl
@[simp] theorem State.spend_softErrors (s : State) : (s.spend).softErrors = s.softErrors := rfl
@[simp] theorem State.spend_dirty (s : State) : (s.spend).dirty = s.dirty := rfl
@[simp] theorem State.spend_silent (s : State) : (s.spend).silent = s.silent := rfl
@[simp] theorem State.spend_ctxs (s : State) : (s.spend).ctxs = s.ctxs := rfl
@[simp] theorem State.spend_facets (s : State) : (s.spend).facets = s.facets := rfl
@[simp] theorem State.spend_nis (s : State) : (s.spend).nis = s.nis := rfl
@[simp] theorem State.spend_tiles (s : State) : (s.spend).tiles = s.tiles := rfl
@[simp] theorem State.spend_mms (s : State) : (s.spend).mms = s.mms := rfl
@[simp] theorem State.spend_gangs (s : State) : (s.spend).gangs = s.gangs := rfl
@[simp] theorem State.spend_queues (s : State) : (s.spend).queues = s.queues := rfl
@[simp] theorem State.spend_pools (s : State) : (s.spend).pools = s.pools := rfl
@[simp] theorem State.spend_taskUnits (s : State) : (s.spend).taskUnits = s.taskUnits := rfl
@[simp] theorem State.spend_dispatch (s : State) : (s.spend).dispatch = s.dispatch := rfl
@[simp] theorem State.spend_relqs (s : State) : (s.spend).relqs = s.relqs := rfl
@[simp] theorem State.spend_net (s : State) : (s.spend).net = s.net := rfl
@[simp] theorem State.spend_msgs (s : State) : (s.spend).msgs = s.msgs := rfl
@[simp] theorem State.spend_freeze (s : State) : (s.spend).freeze = s.freeze := rfl
@[simp] theorem State.spend_mgmt (s : State) : (s.spend).mgmt = s.mgmt := rfl
@[simp] theorem State.spend_signet (s : State) : (s.spend).signet = s.signet := rfl
@[simp] theorem State.spend_fabric (s : State) : (s.spend).fabric = s.fabric := rfl
@[simp] theorem State.spend_host (s : State) : (s.spend).host = s.host := rfl
@[simp] theorem State.spend_get_ctx (s : State) (b : Agent) : (s.spend).ctx b = s.ctx b := rfl
@[simp] theorem State.spend_get_tile (s : State) (u : Nat) : (s.spend).tile u = s.tile u := rfl
@[simp] theorem State.spend_get_facet (s : State) (u : Fin 900) (g : Fin 4) : (s.spend).facet u g = s.facet u g := rfl
@[simp] theorem State.spend_get_ni (s : State) (p : Owner) : (s.spend).ni p = s.ni p := rfl
@[simp] theorem State.spend_get_mm (s : State) (u : Nat) : (s.spend).mm u = s.mm u := rfl
@[simp] theorem State.spend_get_queue (s : State) (m : Nat) : (s.spend).queue m = s.queue m := rfl
@[simp] theorem State.spend_c (s : State) : (s.spend).c = s.c := rfl

/-! ### fresh -/

@[simp] theorem State.fresh_now (s : State) : (s.fresh).now = s.now := rfl
@[simp] theorem State.fresh_mhz (s : State) : (s.fresh).mhz = s.mhz := rfl
@[simp] theorem State.fresh_agenda (s : State) : (s.fresh).agenda = s.agenda := rfl
@[simp] theorem State.fresh_cur (s : State) : (s.fresh).cur = s.cur := rfl
@[simp] theorem State.fresh_latch (s : State) : (s.fresh).latch = s.latch := rfl
@[simp] theorem State.fresh_free (s : State) : (s.fresh).free = s.free := rfl
@[simp] theorem State.fresh_mem (s : State) : (s.fresh).mem = s.mem := rfl
@[simp] theorem State.fresh_softErrors (s : State) : (s.fresh).softErrors = s.softErrors := rfl
@[simp] theorem State.fresh_dirty (s : State) : (s.fresh).dirty = s.dirty := rfl
@[simp] theorem State.fresh_silent (s : State) : (s.fresh).silent = s.silent := rfl
@[simp] theorem State.fresh_ctxs (s : State) : (s.fresh).ctxs = s.ctxs := rfl
@[simp] theorem State.fresh_facets (s : State) : (s.fresh).facets = s.facets := rfl
@[simp] theorem State.fresh_nis (s : State) : (s.fresh).nis = s.nis := rfl
@[simp] theorem State.fresh_tiles (s : State) : (s.fresh).tiles = s.tiles := rfl
@[simp] theorem State.fresh_mms (s : State) : (s.fresh).mms = s.mms := rfl
@[simp] theorem State.fresh_gangs (s : State) : (s.fresh).gangs = s.gangs := rfl
@[simp] theorem State.fresh_queues (s : State) : (s.fresh).queues = s.queues := rfl
@[simp] theorem State.fresh_pools (s : State) : (s.fresh).pools = s.pools := rfl
@[simp] theorem State.fresh_taskUnits (s : State) : (s.fresh).taskUnits = s.taskUnits := rfl
@[simp] theorem State.fresh_dispatch (s : State) : (s.fresh).dispatch = s.dispatch := rfl
@[simp] theorem State.fresh_relqs (s : State) : (s.fresh).relqs = s.relqs := rfl
@[simp] theorem State.fresh_net (s : State) : (s.fresh).net = s.net := rfl
@[simp] theorem State.fresh_msgs (s : State) : (s.fresh).msgs = s.msgs := rfl
@[simp] theorem State.fresh_freeze (s : State) : (s.fresh).freeze = s.freeze := rfl
@[simp] theorem State.fresh_mgmt (s : State) : (s.fresh).mgmt = s.mgmt := rfl
@[simp] theorem State.fresh_signet (s : State) : (s.fresh).signet = s.signet := rfl
@[simp] theorem State.fresh_fabric (s : State) : (s.fresh).fabric = s.fabric := rfl
@[simp] theorem State.fresh_host (s : State) : (s.fresh).host = s.host := rfl
@[simp] theorem State.fresh_get_ctx (s : State) (b : Agent) : (s.fresh).ctx b = s.ctx b := rfl
@[simp] theorem State.fresh_get_tile (s : State) (u : Nat) : (s.fresh).tile u = s.tile u := rfl
@[simp] theorem State.fresh_get_facet (s : State) (u : Fin 900) (g : Fin 4) : (s.fresh).facet u g = s.facet u g := rfl
@[simp] theorem State.fresh_get_ni (s : State) (p : Owner) : (s.fresh).ni p = s.ni p := rfl
@[simp] theorem State.fresh_get_mm (s : State) (u : Nat) : (s.fresh).mm u = s.mm u := rfl
@[simp] theorem State.fresh_get_queue (s : State) (m : Nat) : (s.fresh).queue m = s.queue m := rfl
@[simp] theorem State.fresh_c (s : State) : (s.fresh).c = s.c := rfl

/-! ### retire -/

@[simp] theorem State.retire_now (s : State) : (s.retire).now = s.now := rfl
@[simp] theorem State.retire_mhz (s : State) : (s.retire).mhz = s.mhz := rfl
@[simp] theorem State.retire_agenda (s : State) : (s.retire).agenda = s.agenda := rfl
@[simp] theorem State.retire_cur (s : State) : (s.retire).cur = s.cur := rfl
@[simp] theorem State.retire_latch (s : State) : (s.retire).latch = s.latch := rfl
@[simp] theorem State.retire_nextId (s : State) : (s.retire).nextId = s.nextId := rfl
@[simp] theorem State.retire_free (s : State) : (s.retire).free = s.free := rfl
@[simp] theorem State.retire_mem (s : State) : (s.retire).mem = s.mem := rfl
@[simp] theorem State.retire_softErrors (s : State) : (s.retire).softErrors = s.softErrors := rfl
@[simp] theorem State.retire_dirty (s : State) : (s.retire).dirty = s.dirty := rfl
@[simp] theorem State.retire_silent (s : State) : (s.retire).silent = s.silent := rfl
@[simp] theorem State.retire_facets (s : State) : (s.retire).facets = s.facets := rfl
@[simp] theorem State.retire_nis (s : State) : (s.retire).nis = s.nis := rfl
@[simp] theorem State.retire_tiles (s : State) : (s.retire).tiles = s.tiles := rfl
@[simp] theorem State.retire_mms (s : State) : (s.retire).mms = s.mms := rfl
@[simp] theorem State.retire_gangs (s : State) : (s.retire).gangs = s.gangs := rfl
@[simp] theorem State.retire_queues (s : State) : (s.retire).queues = s.queues := rfl
@[simp] theorem State.retire_pools (s : State) : (s.retire).pools = s.pools := rfl
@[simp] theorem State.retire_taskUnits (s : State) : (s.retire).taskUnits = s.taskUnits := rfl
@[simp] theorem State.retire_dispatch (s : State) : (s.retire).dispatch = s.dispatch := rfl
@[simp] theorem State.retire_relqs (s : State) : (s.retire).relqs = s.relqs := rfl
@[simp] theorem State.retire_net (s : State) : (s.retire).net = s.net := rfl
@[simp] theorem State.retire_msgs (s : State) : (s.retire).msgs = s.msgs := rfl
@[simp] theorem State.retire_freeze (s : State) : (s.retire).freeze = s.freeze := rfl
@[simp] theorem State.retire_mgmt (s : State) : (s.retire).mgmt = s.mgmt := rfl
@[simp] theorem State.retire_signet (s : State) : (s.retire).signet = s.signet := rfl
@[simp] theorem State.retire_fabric (s : State) : (s.retire).fabric = s.fabric := rfl
@[simp] theorem State.retire_host (s : State) : (s.retire).host = s.host := rfl
@[simp] theorem State.retire_get_tile (s : State) (u : Nat) : (s.retire).tile u = s.tile u := rfl
@[simp] theorem State.retire_get_facet (s : State) (u : Fin 900) (g : Fin 4) : (s.retire).facet u g = s.facet u g := rfl
@[simp] theorem State.retire_get_ni (s : State) (p : Owner) : (s.retire).ni p = s.ni p := rfl
@[simp] theorem State.retire_get_mm (s : State) (u : Nat) : (s.retire).mm u = s.mm u := rfl
@[simp] theorem State.retire_get_queue (s : State) (m : Nat) : (s.retire).queue m = s.queue m := rfl

/-! ### setXRetire -/

@[simp] theorem State.setXRetire_now (s : State) (d : BitVec 5) (v : Word) : (s.setXRetire d v).now = s.now := rfl
@[simp] theorem State.setXRetire_mhz (s : State) (d : BitVec 5) (v : Word) : (s.setXRetire d v).mhz = s.mhz := rfl
@[simp] theorem State.setXRetire_agenda (s : State) (d : BitVec 5) (v : Word) : (s.setXRetire d v).agenda = s.agenda := rfl
@[simp] theorem State.setXRetire_cur (s : State) (d : BitVec 5) (v : Word) : (s.setXRetire d v).cur = s.cur := rfl
@[simp] theorem State.setXRetire_latch (s : State) (d : BitVec 5) (v : Word) : (s.setXRetire d v).latch = s.latch := rfl
@[simp] theorem State.setXRetire_nextId (s : State) (d : BitVec 5) (v : Word) : (s.setXRetire d v).nextId = s.nextId := rfl
@[simp] theorem State.setXRetire_free (s : State) (d : BitVec 5) (v : Word) : (s.setXRetire d v).free = s.free := rfl
@[simp] theorem State.setXRetire_mem (s : State) (d : BitVec 5) (v : Word) : (s.setXRetire d v).mem = s.mem := rfl
@[simp] theorem State.setXRetire_softErrors (s : State) (d : BitVec 5) (v : Word) : (s.setXRetire d v).softErrors = s.softErrors := rfl
@[simp] theorem State.setXRetire_dirty (s : State) (d : BitVec 5) (v : Word) : (s.setXRetire d v).dirty = s.dirty := rfl
@[simp] theorem State.setXRetire_silent (s : State) (d : BitVec 5) (v : Word) : (s.setXRetire d v).silent = s.silent := rfl
@[simp] theorem State.setXRetire_facets (s : State) (d : BitVec 5) (v : Word) : (s.setXRetire d v).facets = s.facets := rfl
@[simp] theorem State.setXRetire_nis (s : State) (d : BitVec 5) (v : Word) : (s.setXRetire d v).nis = s.nis := rfl
@[simp] theorem State.setXRetire_tiles (s : State) (d : BitVec 5) (v : Word) : (s.setXRetire d v).tiles = s.tiles := rfl
@[simp] theorem State.setXRetire_mms (s : State) (d : BitVec 5) (v : Word) : (s.setXRetire d v).mms = s.mms := rfl
@[simp] theorem State.setXRetire_gangs (s : State) (d : BitVec 5) (v : Word) : (s.setXRetire d v).gangs = s.gangs := rfl
@[simp] theorem State.setXRetire_queues (s : State) (d : BitVec 5) (v : Word) : (s.setXRetire d v).queues = s.queues := rfl
@[simp] theorem State.setXRetire_pools (s : State) (d : BitVec 5) (v : Word) : (s.setXRetire d v).pools = s.pools := rfl
@[simp] theorem State.setXRetire_taskUnits (s : State) (d : BitVec 5) (v : Word) : (s.setXRetire d v).taskUnits = s.taskUnits := rfl
@[simp] theorem State.setXRetire_dispatch (s : State) (d : BitVec 5) (v : Word) : (s.setXRetire d v).dispatch = s.dispatch := rfl
@[simp] theorem State.setXRetire_relqs (s : State) (d : BitVec 5) (v : Word) : (s.setXRetire d v).relqs = s.relqs := rfl
@[simp] theorem State.setXRetire_net (s : State) (d : BitVec 5) (v : Word) : (s.setXRetire d v).net = s.net := rfl
@[simp] theorem State.setXRetire_msgs (s : State) (d : BitVec 5) (v : Word) : (s.setXRetire d v).msgs = s.msgs := rfl
@[simp] theorem State.setXRetire_freeze (s : State) (d : BitVec 5) (v : Word) : (s.setXRetire d v).freeze = s.freeze := rfl
@[simp] theorem State.setXRetire_mgmt (s : State) (d : BitVec 5) (v : Word) : (s.setXRetire d v).mgmt = s.mgmt := rfl
@[simp] theorem State.setXRetire_signet (s : State) (d : BitVec 5) (v : Word) : (s.setXRetire d v).signet = s.signet := rfl
@[simp] theorem State.setXRetire_fabric (s : State) (d : BitVec 5) (v : Word) : (s.setXRetire d v).fabric = s.fabric := rfl
@[simp] theorem State.setXRetire_host (s : State) (d : BitVec 5) (v : Word) : (s.setXRetire d v).host = s.host := rfl
@[simp] theorem State.setXRetire_get_tile (s : State) (d : BitVec 5) (v : Word) (u : Nat) : (s.setXRetire d v).tile u = s.tile u := rfl
@[simp] theorem State.setXRetire_get_facet (s : State) (d : BitVec 5) (v : Word) (u : Fin 900) (g : Fin 4) : (s.setXRetire d v).facet u g = s.facet u g := rfl
@[simp] theorem State.setXRetire_get_ni (s : State) (d : BitVec 5) (v : Word) (p : Owner) : (s.setXRetire d v).ni p = s.ni p := rfl
@[simp] theorem State.setXRetire_get_mm (s : State) (d : BitVec 5) (v : Word) (u : Nat) : (s.setXRetire d v).mm u = s.mm u := rfl
@[simp] theorem State.setXRetire_get_queue (s : State) (d : BitVec 5) (v : Word) (m : Nat) : (s.setXRetire d v).queue m = s.queue m := rfl

/-! ### park -/

@[simp] theorem State.park_now (s : State) (w : Park) : (s.park w).now = s.now := rfl
@[simp] theorem State.park_mhz (s : State) (w : Park) : (s.park w).mhz = s.mhz := rfl
@[simp] theorem State.park_agenda (s : State) (w : Park) : (s.park w).agenda = s.agenda := rfl
@[simp] theorem State.park_cur (s : State) (w : Park) : (s.park w).cur = s.cur := rfl
@[simp] theorem State.park_latch (s : State) (w : Park) : (s.park w).latch = s.latch := rfl
@[simp] theorem State.park_nextId (s : State) (w : Park) : (s.park w).nextId = s.nextId := rfl
@[simp] theorem State.park_free (s : State) (w : Park) : (s.park w).free = s.free := rfl
@[simp] theorem State.park_mem (s : State) (w : Park) : (s.park w).mem = s.mem := rfl
@[simp] theorem State.park_softErrors (s : State) (w : Park) : (s.park w).softErrors = s.softErrors := rfl
@[simp] theorem State.park_dirty (s : State) (w : Park) : (s.park w).dirty = s.dirty := rfl
@[simp] theorem State.park_silent (s : State) (w : Park) : (s.park w).silent = s.silent := rfl
@[simp] theorem State.park_facets (s : State) (w : Park) : (s.park w).facets = s.facets := rfl
@[simp] theorem State.park_nis (s : State) (w : Park) : (s.park w).nis = s.nis := rfl
@[simp] theorem State.park_tiles (s : State) (w : Park) : (s.park w).tiles = s.tiles := rfl
@[simp] theorem State.park_mms (s : State) (w : Park) : (s.park w).mms = s.mms := rfl
@[simp] theorem State.park_gangs (s : State) (w : Park) : (s.park w).gangs = s.gangs := rfl
@[simp] theorem State.park_queues (s : State) (w : Park) : (s.park w).queues = s.queues := rfl
@[simp] theorem State.park_pools (s : State) (w : Park) : (s.park w).pools = s.pools := rfl
@[simp] theorem State.park_taskUnits (s : State) (w : Park) : (s.park w).taskUnits = s.taskUnits := rfl
@[simp] theorem State.park_dispatch (s : State) (w : Park) : (s.park w).dispatch = s.dispatch := rfl
@[simp] theorem State.park_relqs (s : State) (w : Park) : (s.park w).relqs = s.relqs := rfl
@[simp] theorem State.park_net (s : State) (w : Park) : (s.park w).net = s.net := rfl
@[simp] theorem State.park_msgs (s : State) (w : Park) : (s.park w).msgs = s.msgs := rfl
@[simp] theorem State.park_freeze (s : State) (w : Park) : (s.park w).freeze = s.freeze := rfl
@[simp] theorem State.park_mgmt (s : State) (w : Park) : (s.park w).mgmt = s.mgmt := rfl
@[simp] theorem State.park_signet (s : State) (w : Park) : (s.park w).signet = s.signet := rfl
@[simp] theorem State.park_fabric (s : State) (w : Park) : (s.park w).fabric = s.fabric := rfl
@[simp] theorem State.park_host (s : State) (w : Park) : (s.park w).host = s.host := rfl
@[simp] theorem State.park_get_tile (s : State) (w : Park) (u : Nat) : (s.park w).tile u = s.tile u := rfl
@[simp] theorem State.park_get_facet (s : State) (w : Park) (u : Fin 900) (g : Fin 4) : (s.park w).facet u g = s.facet u g := rfl
@[simp] theorem State.park_get_ni (s : State) (w : Park) (p : Owner) : (s.park w).ni p = s.ni p := rfl
@[simp] theorem State.park_get_mm (s : State) (w : Park) (u : Nat) : (s.park w).mm u = s.mm u := rfl
@[simp] theorem State.park_get_queue (s : State) (w : Park) (m : Nat) : (s.park w).queue m = s.queue m := rfl

/-! ### Registers of a context -/

@[simp] theorem Ctx.setX_v (c : Ctx) (d : BitVec 5) (w : Word) : (c.setX d w).v = c.v := by unfold Ctx.setX; split <;> rfl
@[simp] theorem Ctx.setX_k (c : Ctx) (d : BitVec 5) (w : Word) : (c.setX d w).k = c.k := by unfold Ctx.setX; split <;> rfl
@[simp] theorem Ctx.setX_pc (c : Ctx) (d : BitVec 5) (w : Word) : (c.setX d w).pc = c.pc := by unfold Ctx.setX; split <;> rfl
@[simp] theorem Ctx.setX_run (c : Ctx) (d : BitVec 5) (w : Word) : (c.setX d w).run = c.run := by unfold Ctx.setX; split <;> rfl
@[simp] theorem Ctx.setX_frozen (c : Ctx) (d : BitVec 5) (w : Word) : (c.setX d w).frozen = c.frozen := by unfold Ctx.setX; split <;> rfl
@[simp] theorem Ctx.setX_epc (c : Ctx) (d : BitVec 5) (w : Word) : (c.setX d w).epc = c.epc := by unfold Ctx.setX; split <;> rfl
@[simp] theorem Ctx.setX_ecause (c : Ctx) (d : BitVec 5) (w : Word) : (c.setX d w).ecause = c.ecause := by unfold Ctx.setX; split <;> rfl
@[simp] theorem Ctx.setX_einfo (c : Ctx) (d : BitVec 5) (w : Word) : (c.setX d w).einfo = c.einfo := by unfold Ctx.setX; split <;> rfl
@[simp] theorem Ctx.setX_estat (c : Ctx) (d : BitVec 5) (w : Word) : (c.setX d w).estat = c.estat := by unfold Ctx.setX; split <;> rfl
@[simp] theorem Ctx.setX_tvec (c : Ctx) (d : BitVec 5) (w : Word) : (c.setX d w).tvec = c.tvec := by unfold Ctx.setX; split <;> rfl
@[simp] theorem Ctx.setX_uvec (c : Ctx) (d : BitVec 5) (w : Word) : (c.setX d w).uvec = c.uvec := by unfold Ctx.setX; split <;> rfl
@[simp] theorem Ctx.setX_fflags (c : Ctx) (d : BitVec 5) (w : Word) : (c.setX d w).fflags = c.fflags := by unfold Ctx.setX; split <;> rfl
@[simp] theorem Ctx.setX_frm (c : Ctx) (d : BitVec 5) (w : Word) : (c.setX d w).frm = c.frm := by unfold Ctx.setX; split <;> rfl
@[simp] theorem Ctx.setX_srgen (c : Ctx) (d : BitVec 5) (w : Word) : (c.setX d w).srgen = c.srgen := by unfold Ctx.setX; split <;> rfl
@[simp] theorem Ctx.setX_spc (c : Ctx) (d : BitVec 5) (w : Word) : (c.setX d w).spc = c.spc := by unfold Ctx.setX; split <;> rfl
@[simp] theorem Ctx.setX_cwin (c : Ctx) (d : BitVec 5) (w : Word) : (c.setX d w).cwin = c.cwin := by unfold Ctx.setX; split <;> rfl
@[simp] theorem Ctx.setX_repidx (c : Ctx) (d : BitVec 5) (w : Word) : (c.setX d w).repidx = c.repidx := by unfold Ctx.setX; split <;> rfl
@[simp] theorem Ctx.setX_heldRep (c : Ctx) (d : BitVec 5) (w : Word) : (c.setX d w).heldRep = c.heldRep := by unfold Ctx.setX; split <;> rfl
@[simp] theorem Ctx.setX_rank (c : Ctx) (d : BitVec 5) (w : Word) : (c.setX d w).rank = c.rank := by unfold Ctx.setX; split <;> rfl
@[simp] theorem Ctx.setX_gangid (c : Ctx) (d : BitVec 5) (w : Word) : (c.setX d w).gangid = c.gangid := by unfold Ctx.setX; split <;> rfl
@[simp] theorem Ctx.setX_gangw (c : Ctx) (d : BitVec 5) (w : Word) : (c.setX d w).gangw = c.gangw := by unfold Ctx.setX; split <;> rfl
@[simp] theorem Ctx.setX_gangh (c : Ctx) (d : BitVec 5) (w : Word) : (c.setX d w).gangh = c.gangh := by unfold Ctx.setX; split <;> rfl
@[simp] theorem Ctx.setX_cringSel (c : Ctx) (d : BitVec 5) (w : Word) : (c.setX d w).cringSel = c.cringSel := by unfold Ctx.setX; split <;> rfl
@[simp] theorem Ctx.setX_shadow (c : Ctx) (d : BitVec 5) (w : Word) : (c.setX d w).shadow = c.shadow := by unfold Ctx.setX; split <;> rfl
@[simp] theorem Ctx.setX_kbank (c : Ctx) (d : BitVec 5) (w : Word) : (c.setX d w).kbank = c.kbank := by unfold Ctx.setX; split <;> rfl
@[simp] theorem Ctx.setX_tokens (c : Ctx) (d : BitVec 5) (w : Word) : (c.setX d w).tokens = c.tokens := by unfold Ctx.setX; split <;> rfl
@[simp] theorem Ctx.setX_late (c : Ctx) (d : BitVec 5) (w : Word) : (c.setX d w).late = c.late := by unfold Ctx.setX; split <;> rfl
@[simp] theorem Ctx.setX_pending (c : Ctx) (d : BitVec 5) (w : Word) : (c.setX d w).pending = c.pending := by unfold Ctx.setX; split <;> rfl
@[simp] theorem Ctx.setX_bytecode (c : Ctx) (d : BitVec 5) (w : Word) : (c.setX d w).bytecode = c.bytecode := by unfold Ctx.setX; split <;> rfl
@[simp] theorem Ctx.setX_undo (c : Ctx) (d : BitVec 5) (w : Word) : (c.setX d w).undo = c.undo := by unfold Ctx.setX; split <;> rfl
@[simp] theorem Ctx.setV_x (c : Ctx) (d : BitVec 5) (w : Vec) : (c.setV d w).x = c.x := rfl
@[simp] theorem Ctx.setV_k (c : Ctx) (d : BitVec 5) (w : Vec) : (c.setV d w).k = c.k := rfl
@[simp] theorem Ctx.setV_pc (c : Ctx) (d : BitVec 5) (w : Vec) : (c.setV d w).pc = c.pc := rfl
@[simp] theorem Ctx.setV_run (c : Ctx) (d : BitVec 5) (w : Vec) : (c.setV d w).run = c.run := rfl
@[simp] theorem Ctx.setV_frozen (c : Ctx) (d : BitVec 5) (w : Vec) : (c.setV d w).frozen = c.frozen := rfl
@[simp] theorem Ctx.setV_epc (c : Ctx) (d : BitVec 5) (w : Vec) : (c.setV d w).epc = c.epc := rfl
@[simp] theorem Ctx.setV_ecause (c : Ctx) (d : BitVec 5) (w : Vec) : (c.setV d w).ecause = c.ecause := rfl
@[simp] theorem Ctx.setV_einfo (c : Ctx) (d : BitVec 5) (w : Vec) : (c.setV d w).einfo = c.einfo := rfl
@[simp] theorem Ctx.setV_estat (c : Ctx) (d : BitVec 5) (w : Vec) : (c.setV d w).estat = c.estat := rfl
@[simp] theorem Ctx.setV_tvec (c : Ctx) (d : BitVec 5) (w : Vec) : (c.setV d w).tvec = c.tvec := rfl
@[simp] theorem Ctx.setV_uvec (c : Ctx) (d : BitVec 5) (w : Vec) : (c.setV d w).uvec = c.uvec := rfl
@[simp] theorem Ctx.setV_fflags (c : Ctx) (d : BitVec 5) (w : Vec) : (c.setV d w).fflags = c.fflags := rfl
@[simp] theorem Ctx.setV_frm (c : Ctx) (d : BitVec 5) (w : Vec) : (c.setV d w).frm = c.frm := rfl
@[simp] theorem Ctx.setV_srgen (c : Ctx) (d : BitVec 5) (w : Vec) : (c.setV d w).srgen = c.srgen := rfl
@[simp] theorem Ctx.setV_spc (c : Ctx) (d : BitVec 5) (w : Vec) : (c.setV d w).spc = c.spc := rfl
@[simp] theorem Ctx.setV_cwin (c : Ctx) (d : BitVec 5) (w : Vec) : (c.setV d w).cwin = c.cwin := rfl
@[simp] theorem Ctx.setV_repidx (c : Ctx) (d : BitVec 5) (w : Vec) : (c.setV d w).repidx = c.repidx := rfl
@[simp] theorem Ctx.setV_heldRep (c : Ctx) (d : BitVec 5) (w : Vec) : (c.setV d w).heldRep = c.heldRep := rfl
@[simp] theorem Ctx.setV_rank (c : Ctx) (d : BitVec 5) (w : Vec) : (c.setV d w).rank = c.rank := rfl
@[simp] theorem Ctx.setV_gangid (c : Ctx) (d : BitVec 5) (w : Vec) : (c.setV d w).gangid = c.gangid := rfl
@[simp] theorem Ctx.setV_gangw (c : Ctx) (d : BitVec 5) (w : Vec) : (c.setV d w).gangw = c.gangw := rfl
@[simp] theorem Ctx.setV_gangh (c : Ctx) (d : BitVec 5) (w : Vec) : (c.setV d w).gangh = c.gangh := rfl
@[simp] theorem Ctx.setV_cringSel (c : Ctx) (d : BitVec 5) (w : Vec) : (c.setV d w).cringSel = c.cringSel := rfl
@[simp] theorem Ctx.setV_shadow (c : Ctx) (d : BitVec 5) (w : Vec) : (c.setV d w).shadow = c.shadow := rfl
@[simp] theorem Ctx.setV_kbank (c : Ctx) (d : BitVec 5) (w : Vec) : (c.setV d w).kbank = c.kbank := rfl
@[simp] theorem Ctx.setV_tokens (c : Ctx) (d : BitVec 5) (w : Vec) : (c.setV d w).tokens = c.tokens := rfl
@[simp] theorem Ctx.setV_late (c : Ctx) (d : BitVec 5) (w : Vec) : (c.setV d w).late = c.late := rfl
@[simp] theorem Ctx.setV_pending (c : Ctx) (d : BitVec 5) (w : Vec) : (c.setV d w).pending = c.pending := rfl
@[simp] theorem Ctx.setV_bytecode (c : Ctx) (d : BitVec 5) (w : Vec) : (c.setV d w).bytecode = c.bytecode := rfl
@[simp] theorem Ctx.setV_undo (c : Ctx) (d : BitVec 5) (w : Vec) : (c.setV d w).undo = c.undo := rfl
@[simp] theorem Ctx.setK_x (c : Ctx) (d : BitVec 3) (w : Word) : (c.setK d w).x = c.x := by unfold Ctx.setK; split <;> rfl
@[simp] theorem Ctx.setK_v (c : Ctx) (d : BitVec 3) (w : Word) : (c.setK d w).v = c.v := by unfold Ctx.setK; split <;> rfl
@[simp] theorem Ctx.setK_pc (c : Ctx) (d : BitVec 3) (w : Word) : (c.setK d w).pc = c.pc := by unfold Ctx.setK; split <;> rfl
@[simp] theorem Ctx.setK_run (c : Ctx) (d : BitVec 3) (w : Word) : (c.setK d w).run = c.run := by unfold Ctx.setK; split <;> rfl
@[simp] theorem Ctx.setK_frozen (c : Ctx) (d : BitVec 3) (w : Word) : (c.setK d w).frozen = c.frozen := by unfold Ctx.setK; split <;> rfl
@[simp] theorem Ctx.setK_epc (c : Ctx) (d : BitVec 3) (w : Word) : (c.setK d w).epc = c.epc := by unfold Ctx.setK; split <;> rfl
@[simp] theorem Ctx.setK_ecause (c : Ctx) (d : BitVec 3) (w : Word) : (c.setK d w).ecause = c.ecause := by unfold Ctx.setK; split <;> rfl
@[simp] theorem Ctx.setK_einfo (c : Ctx) (d : BitVec 3) (w : Word) : (c.setK d w).einfo = c.einfo := by unfold Ctx.setK; split <;> rfl
@[simp] theorem Ctx.setK_estat (c : Ctx) (d : BitVec 3) (w : Word) : (c.setK d w).estat = c.estat := by unfold Ctx.setK; split <;> rfl
@[simp] theorem Ctx.setK_tvec (c : Ctx) (d : BitVec 3) (w : Word) : (c.setK d w).tvec = c.tvec := by unfold Ctx.setK; split <;> rfl
@[simp] theorem Ctx.setK_uvec (c : Ctx) (d : BitVec 3) (w : Word) : (c.setK d w).uvec = c.uvec := by unfold Ctx.setK; split <;> rfl
@[simp] theorem Ctx.setK_fflags (c : Ctx) (d : BitVec 3) (w : Word) : (c.setK d w).fflags = c.fflags := by unfold Ctx.setK; split <;> rfl
@[simp] theorem Ctx.setK_frm (c : Ctx) (d : BitVec 3) (w : Word) : (c.setK d w).frm = c.frm := by unfold Ctx.setK; split <;> rfl
@[simp] theorem Ctx.setK_srgen (c : Ctx) (d : BitVec 3) (w : Word) : (c.setK d w).srgen = c.srgen := by unfold Ctx.setK; split <;> rfl
@[simp] theorem Ctx.setK_spc (c : Ctx) (d : BitVec 3) (w : Word) : (c.setK d w).spc = c.spc := by unfold Ctx.setK; split <;> rfl
@[simp] theorem Ctx.setK_cwin (c : Ctx) (d : BitVec 3) (w : Word) : (c.setK d w).cwin = c.cwin := by unfold Ctx.setK; split <;> rfl
@[simp] theorem Ctx.setK_repidx (c : Ctx) (d : BitVec 3) (w : Word) : (c.setK d w).repidx = c.repidx := by unfold Ctx.setK; split <;> rfl
@[simp] theorem Ctx.setK_heldRep (c : Ctx) (d : BitVec 3) (w : Word) : (c.setK d w).heldRep = c.heldRep := by unfold Ctx.setK; split <;> rfl
@[simp] theorem Ctx.setK_rank (c : Ctx) (d : BitVec 3) (w : Word) : (c.setK d w).rank = c.rank := by unfold Ctx.setK; split <;> rfl
@[simp] theorem Ctx.setK_gangid (c : Ctx) (d : BitVec 3) (w : Word) : (c.setK d w).gangid = c.gangid := by unfold Ctx.setK; split <;> rfl
@[simp] theorem Ctx.setK_gangw (c : Ctx) (d : BitVec 3) (w : Word) : (c.setK d w).gangw = c.gangw := by unfold Ctx.setK; split <;> rfl
@[simp] theorem Ctx.setK_gangh (c : Ctx) (d : BitVec 3) (w : Word) : (c.setK d w).gangh = c.gangh := by unfold Ctx.setK; split <;> rfl
@[simp] theorem Ctx.setK_cringSel (c : Ctx) (d : BitVec 3) (w : Word) : (c.setK d w).cringSel = c.cringSel := by unfold Ctx.setK; split <;> rfl
@[simp] theorem Ctx.setK_shadow (c : Ctx) (d : BitVec 3) (w : Word) : (c.setK d w).shadow = c.shadow := by unfold Ctx.setK; split <;> rfl
@[simp] theorem Ctx.setK_kbank (c : Ctx) (d : BitVec 3) (w : Word) : (c.setK d w).kbank = c.kbank := by unfold Ctx.setK; split <;> rfl
@[simp] theorem Ctx.setK_tokens (c : Ctx) (d : BitVec 3) (w : Word) : (c.setK d w).tokens = c.tokens := by unfold Ctx.setK; split <;> rfl
@[simp] theorem Ctx.setK_late (c : Ctx) (d : BitVec 3) (w : Word) : (c.setK d w).late = c.late := by unfold Ctx.setK; split <;> rfl
@[simp] theorem Ctx.setK_pending (c : Ctx) (d : BitVec 3) (w : Word) : (c.setK d w).pending = c.pending := by unfold Ctx.setK; split <;> rfl
@[simp] theorem Ctx.setK_bytecode (c : Ctx) (d : BitVec 3) (w : Word) : (c.setK d w).bytecode = c.bytecode := by unfold Ctx.setK; split <;> rfl
@[simp] theorem Ctx.setK_undo (c : Ctx) (d : BitVec 3) (w : Word) : (c.setK d w).undo = c.undo := by unfold Ctx.setK; split <;> rfl
@[simp] theorem Ctx.raise_x (c : Ctx) (w : BitVec 6) : (c.raise w).x = c.x := rfl
@[simp] theorem Ctx.raise_v (c : Ctx) (w : BitVec 6) : (c.raise w).v = c.v := rfl
@[simp] theorem Ctx.raise_k (c : Ctx) (w : BitVec 6) : (c.raise w).k = c.k := rfl
@[simp] theorem Ctx.raise_pc (c : Ctx) (w : BitVec 6) : (c.raise w).pc = c.pc := rfl
@[simp] theorem Ctx.raise_run (c : Ctx) (w : BitVec 6) : (c.raise w).run = c.run := rfl
@[simp] theorem Ctx.raise_frozen (c : Ctx) (w : BitVec 6) : (c.raise w).frozen = c.frozen := rfl
@[simp] theorem Ctx.raise_epc (c : Ctx) (w : BitVec 6) : (c.raise w).epc = c.epc := rfl
@[simp] theorem Ctx.raise_ecause (c : Ctx) (w : BitVec 6) : (c.raise w).ecause = c.ecause := rfl
@[simp] theorem Ctx.raise_einfo (c : Ctx) (w : BitVec 6) : (c.raise w).einfo = c.einfo := rfl
@[simp] theorem Ctx.raise_estat (c : Ctx) (w : BitVec 6) : (c.raise w).estat = c.estat := rfl
@[simp] theorem Ctx.raise_tvec (c : Ctx) (w : BitVec 6) : (c.raise w).tvec = c.tvec := rfl
@[simp] theorem Ctx.raise_uvec (c : Ctx) (w : BitVec 6) : (c.raise w).uvec = c.uvec := rfl
@[simp] theorem Ctx.raise_frm (c : Ctx) (w : BitVec 6) : (c.raise w).frm = c.frm := rfl
@[simp] theorem Ctx.raise_srgen (c : Ctx) (w : BitVec 6) : (c.raise w).srgen = c.srgen := rfl
@[simp] theorem Ctx.raise_spc (c : Ctx) (w : BitVec 6) : (c.raise w).spc = c.spc := rfl
@[simp] theorem Ctx.raise_cwin (c : Ctx) (w : BitVec 6) : (c.raise w).cwin = c.cwin := rfl
@[simp] theorem Ctx.raise_repidx (c : Ctx) (w : BitVec 6) : (c.raise w).repidx = c.repidx := rfl
@[simp] theorem Ctx.raise_heldRep (c : Ctx) (w : BitVec 6) : (c.raise w).heldRep = c.heldRep := rfl
@[simp] theorem Ctx.raise_rank (c : Ctx) (w : BitVec 6) : (c.raise w).rank = c.rank := rfl
@[simp] theorem Ctx.raise_gangid (c : Ctx) (w : BitVec 6) : (c.raise w).gangid = c.gangid := rfl
@[simp] theorem Ctx.raise_gangw (c : Ctx) (w : BitVec 6) : (c.raise w).gangw = c.gangw := rfl
@[simp] theorem Ctx.raise_gangh (c : Ctx) (w : BitVec 6) : (c.raise w).gangh = c.gangh := rfl
@[simp] theorem Ctx.raise_cringSel (c : Ctx) (w : BitVec 6) : (c.raise w).cringSel = c.cringSel := rfl
@[simp] theorem Ctx.raise_shadow (c : Ctx) (w : BitVec 6) : (c.raise w).shadow = c.shadow := rfl
@[simp] theorem Ctx.raise_kbank (c : Ctx) (w : BitVec 6) : (c.raise w).kbank = c.kbank := rfl
@[simp] theorem Ctx.raise_tokens (c : Ctx) (w : BitVec 6) : (c.raise w).tokens = c.tokens := rfl
@[simp] theorem Ctx.raise_late (c : Ctx) (w : BitVec 6) : (c.raise w).late = c.late := rfl
@[simp] theorem Ctx.raise_pending (c : Ctx) (w : BitVec 6) : (c.raise w).pending = c.pending := rfl
@[simp] theorem Ctx.raise_bytecode (c : Ctx) (w : BitVec 6) : (c.raise w).bytecode = c.bytecode := rfl
@[simp] theorem Ctx.raise_undo (c : Ctx) (w : BitVec 6) : (c.raise w).undo = c.undo := rfl

@[simp] theorem Ctx.setX_getV (c : Ctx) (d r : BitVec 5) (w : Word) : (c.setX d w).getV r = c.getV r := by simp [Ctx.getV]
@[simp] theorem Ctx.setX_getK (c : Ctx) (d : BitVec 5) (r : BitVec 3) (w : Word) : (c.setX d w).getK r = c.getK r := by
  simp [Ctx.getK]
@[simp] theorem Ctx.setV_getX (c : Ctx) (d r : BitVec 5) (w : Vec) : (c.setV d w).getX r = c.getX r := rfl
@[simp] theorem Ctx.setV_getK (c : Ctx) (d : BitVec 5) (r : BitVec 3) (w : Vec) : (c.setV d w).getK r = c.getK r := rfl
@[simp] theorem Ctx.setK_getX (c : Ctx) (d : BitVec 3) (r : BitVec 5) (w : Word) : (c.setK d w).getX r = c.getX r := by
  simp [Ctx.getX]
@[simp] theorem Ctx.setK_getV (c : Ctx) (d : BitVec 3) (r : BitVec 5) (w : Word) : (c.setK d w).getV r = c.getV r := by
  simp [Ctx.getV]
@[simp] theorem Ctx.raise_getX (c : Ctx) (r : BitVec 5) (w : BitVec 6) : (c.raise w).getX r = c.getX r := rfl
@[simp] theorem Ctx.raise_getV (c : Ctx) (r : BitVec 5) (w : BitVec 6) : (c.raise w).getV r = c.getV r := rfl
@[simp] theorem Ctx.raise_getK (c : Ctx) (r : BitVec 3) (w : BitVec 6) : (c.raise w).getK r = c.getK r := rfl

/-! ### What an update of the context in issue leaves it -/

@[simp] theorem State.setCtx_c (s : State) (c : Ctx) : (s.setCtx s.cur c).c = c := State.ctx_setCtx_same _ _ _

/-- Writing X[d] and retiring an instruction that is not under REP. -/
theorem State.setXRetire_c (s : State) (d : BitVec 5) (v : Word) (h : s.latch.rep = none) :
    (s.setXRetire d v).c = { s.c.setX d v with pc := s.c.pc + toWord s.latch.len } := by
  simp [State.setXRetire, Ctx.retire, h]

/-- Retiring an instruction that is not under REP. -/
theorem State.retire_c (s : State) (h : s.latch.rep = none) :
    s.retire.c = { s.c with pc := s.c.pc + toWord s.latch.len } := by
  simp [State.retire, Ctx.retire, h]

/-! ### What a cold start keeps of memory -/

/-- What a cold start keeps of memory is canonical (R34). -/
theorem Memory.wf_kept (m : Memory) (h : m.wf = true) : m.kept.wf = true := wfCells_filter _ h

end Sys2Proof.Machine
end

