-- ==== Sys2Proof/Laws/Exceptions.lean ====
section
/-! SUPPORT. Laws of the status word, of the banks of x24 to x31, and of entering and leaving a handler (R168, R171, R172). -/

namespace Sys2Proof.Machine

/-! ### The status word -/

variable (pe msv emu kt puih uih pprv prv : Bool)

@[simp] theorem estat_prv : bit (estatOf pe msv emu kt puih uih pprv prv) 0 = prv := by
  cases pe <;> cases msv <;> cases emu <;> cases kt <;> cases puih <;> cases uih <;> cases pprv <;> cases prv <;> rfl
@[simp] theorem estat_pprv : bit (estatOf pe msv emu kt puih uih pprv prv) 2 = pprv := by
  cases pe <;> cases msv <;> cases emu <;> cases kt <;> cases puih <;> cases uih <;> cases pprv <;> cases prv <;> rfl
@[simp] theorem estat_uih : bit (estatOf pe msv emu kt puih uih pprv prv) 3 = uih := by
  cases pe <;> cases msv <;> cases emu <;> cases kt <;> cases puih <;> cases uih <;> cases pprv <;> cases prv <;> rfl
@[simp] theorem estat_puih : bit (estatOf pe msv emu kt puih uih pprv prv) 4 = puih := by
  cases pe <;> cases msv <;> cases emu <;> cases kt <;> cases puih <;> cases uih <;> cases pprv <;> cases prv <;> rfl
@[simp] theorem estat_kt : bit (estatOf pe msv emu kt puih uih pprv prv) 5 = kt := by
  cases pe <;> cases msv <;> cases emu <;> cases kt <;> cases puih <;> cases uih <;> cases pprv <;> cases prv <;> rfl
@[simp] theorem estat_emu : bit (estatOf pe msv emu kt puih uih pprv prv) 6 = emu := by
  cases pe <;> cases msv <;> cases emu <;> cases kt <;> cases puih <;> cases uih <;> cases pprv <;> cases prv <;> rfl
@[simp] theorem estat_msv : bit (estatOf pe msv emu kt puih uih pprv prv) 7 = msv := by
  cases pe <;> cases msv <;> cases emu <;> cases kt <;> cases puih <;> cases uih <;> cases pprv <;> cases prv <;> rfl
@[simp] theorem estat_pe : bit (estatOf pe msv emu kt puih uih pprv prv) 8 = pe := by
  cases pe <;> cases msv <;> cases emu <;> cases kt <;> cases puih <;> cases uih <;> cases pprv <;> cases prv <;> rfl

/-! ### The banks of x24 to x31 -/

theorem ofNat5_hi {j : Nat} (h : j < 8) :
    (BitVec.ofNat 5 (24 + j)).toNat = 24 + j ∧ BitVec.ofNat 5 (24 + j) ≠ 0 := by
  have h1 : (BitVec.ofNat 5 (24 + j)).toNat = 24 + j := by simp only [BitVec.toNat_ofNat]; omega
  refine ⟨h1, fun e => ?_⟩
  have := congrArg BitVec.toNat e
  rw [h1] at this
  simp at this

/-- Registers below x24 are in no bank. -/
theorem Ctx.xn_setBank_lo (c : Ctx) (b : Vector Word 8) {r : Nat} (h : r < 24) : (c.setBank b).xn r = c.xn r := by
  simp only [Ctx.xn, Ctx.getX, Ctx.setBank]
  split
  · rfl
  · simp only [BitVec.toNat_ofNat, Vector.getElem_ofFn]
    rw [dif_neg (by omega)]

/-- x(24 + j) is entry j of the live bank. -/
theorem Ctx.xn_setBank_hi (c : Ctx) (b : Vector Word 8) {j : Nat} (h : j < 8) : (c.setBank b).xn (24 + j) = b[j] := by
  obtain ⟨h1, h0⟩ := ofNat5_hi h
  simp only [Ctx.xn, Ctx.getX, Ctx.setBank, if_neg h0, h1, Vector.getElem_ofFn]
  rw [dif_pos (by omega)]; simp

theorem Ctx.bank_get (c : Ctx) {j : Nat} (h : j < 8) : c.bank[j] = c.xn (24 + j) := by
  obtain ⟨h1, h0⟩ := ofNat5_hi h
  simp only [Ctx.xn, Ctx.getX, Ctx.bank, if_neg h0, h1, Vector.getElem_ofFn]

/-! ### A bank in memory -/

theorem words_length (l : List Word) : (l.flatMap fun w => toBytes 8 w.toNat).length = 8 * l.length := by
  induction l with
  | nil => rfl
  | cons a r ih => simp [ih]; omega

theorem Memory.setBytes_append (m : Memory) (a : Nat) (l₁ l₂ : List Byte) :
    m.setBytes a (l₁ ++ l₂) = (m.setBytes a l₁).setBytes (a + l₁.length) l₂ := by
  induction l₁ generalizing m a with
  | nil => rfl
  | cons b r ih => simp only [List.cons_append, Memory.setBytes, ih, List.length_cons]; congr 1; omega

theorem Memory.read_setBytes_out (m : Memory) (a b n : Nat) (l : List Byte) (h : b + n ≤ a ∨ a + l.length ≤ b) :
    (m.setBytes a l).read b n = m.read b n := by
  have : ∀ b, b + n ≤ a ∨ a + l.length ≤ b → (m.setBytes a l).bytes b n = m.bytes b n := by
    induction n with
    | zero => intros; rfl
    | succ n ih =>
      intro b h
      simp only [Memory.bytes]
      rw [Memory.byte_setBytes_out _ _ _ _ (by omega), ih (by omega) _ (by omega)]
  simp only [Memory.read, this b h]

/-- Word j of a run of words in memory. -/
theorem Memory.read_words (m : Memory) (a : Nat) (l : List Word) {j : Nat} (h : j < l.length) :
    (m.setBytes a (l.flatMap fun w => toBytes 8 w.toNat)).read (a + 8 * j) 8 = l[j].toNat := by
  induction l generalizing m a j with
  | nil => simp at h
  | cons w r ih =>
    rw [List.flatMap_cons, Memory.setBytes_append, toBytes_length]
    cases j with
    | zero =>
      rw [Memory.read_setBytes_out _ _ _ _ _ (by omega)]
      show (m.write a 8 w.toNat).read a 8 = _
      rw [Memory.read_write]; simp; omega
    | succ n =>
      rw [show a + 8 * (n + 1) = a + 8 + 8 * n by omega, ih _ _ (by simpa using h)]; simp

theorem State.writeBank_read (s : State) (t off : Nat) (b : Vector Word 8) {j : Nat} (h : j < 8) :
    (s.writeBank t off b).mem.read (lmLoc t off + 8 * j) 8 = b[j].toNat := by
  simp only [State.writeBank]
  rw [Memory.read_words _ _ _ (by simpa using h)]; simp

theorem State.writeBank_byte (s : State) (t off : Nat) (b : Vector Word 8) {l : Nat}
    (h : l < lmLoc t off ∨ lmLoc t off + 64 ≤ l) : (s.writeBank t off b).mem.byte l = s.mem.byte l := by
  simp only [State.writeBank]
  exact Memory.byte_setBytes_out _ _ _ _ (by rw [words_length]; simpa using h)

/-! ### Entering and leaving -/

/-- Entry on a facet outside a handler: what it comes to. -/
theorem State.enterKernel_facet (s : State) (t : Fin 900) (f : Fin 4) (k : Fin 11) (vector : Nat) (cause info epc : Word)
    (h : (s.ctx (.facet t f k)).kt = false) :
    let c := s.ctx (.facet t f k)
    let r := recordOffset f.val k.val
    s.enterKernel (.facet t f k) vector cause info epc =
      (s.writeBank t.val (bankSlot r c.uih) c.bank).setCtx (.facet t f k)
        ((c.entered true vector cause info epc).setBank (c.entryBank cause info epc r)) := by
  simp only [State.enterKernel, h]; rfl

/-- Entry on a crest core: what it comes to. -/
theorem State.enterKernel_crest (s : State) (k : Fin 32) (j : Fin 2) (vector : Nat) (cause info epc : Word) :
    s.enterKernel (.crest k j) vector cause info epc =
      s.setCtx (.crest k j)
        { (s.ctx (.crest k j)).entered (s.ctx (.crest k j)).kt vector cause info epc with bytecode := false } := rfl

end Sys2Proof.Machine
end

