-- ==== Sys2Proof/Laws/Exec.lean ====
section
/-! SUPPORT. What exec answers for each constructor: its meaning. One lemma per arm, each true by unfolding, so that no proof
unfolds the whole of exec. -/

namespace Sys2Proof.Machine

@[simp] theorem exec_fwcallUnknown (n : BitVec 16) (s : State) :
    exec (.fwcallUnknown n) s = execFwcallUnknown n s := rfl
@[simp] theorem exec_trap (im : BitVec 16) (s : State) :
    exec (.trap im) s = execTrap im s := rfl
@[simp] theorem exec_nop (h : BitVec 28) (s : State) :
    exec (.nop h) s = execNop h s := rfl
@[simp] theorem exec_long (h : BitVec 26) (s : State) :
    exec (.long h) s = execLong h s := rfl
@[simp] theorem exec_rep (c : BitVec 6) (d : BitVec 3) (a : BitVec 3) (b : BitVec 3) (s : State) :
    exec (.rep c d a b) s = execRep c d a b s := rfl
@[simp] theorem exec_add (d : BitVec 5) (a : BitVec 5) (b : BitVec 5) (s : State) :
    exec (.add d a b) s = execAdd d a b s := rfl
@[simp] theorem exec_sub (d : BitVec 5) (a : BitVec 5) (b : BitVec 5) (s : State) :
    exec (.sub d a b) s = execSub d a b s := rfl
@[simp] theorem exec_and (d : BitVec 5) (a : BitVec 5) (b : BitVec 5) (s : State) :
    exec (.and d a b) s = execAnd d a b s := rfl
@[simp] theorem exec_or (d : BitVec 5) (a : BitVec 5) (b : BitVec 5) (s : State) :
    exec (.or d a b) s = execOr d a b s := rfl
@[simp] theorem exec_xor (d : BitVec 5) (a : BitVec 5) (b : BitVec 5) (s : State) :
    exec (.xor d a b) s = execXor d a b s := rfl
@[simp] theorem exec_andn (d : BitVec 5) (a : BitVec 5) (b : BitVec 5) (s : State) :
    exec (.andn d a b) s = execAndn d a b s := rfl
@[simp] theorem exec_orn (d : BitVec 5) (a : BitVec 5) (b : BitVec 5) (s : State) :
    exec (.orn d a b) s = execOrn d a b s := rfl
@[simp] theorem exec_sll (d : BitVec 5) (a : BitVec 5) (b : BitVec 5) (s : State) :
    exec (.sll d a b) s = execSll d a b s := rfl
@[simp] theorem exec_srl (d : BitVec 5) (a : BitVec 5) (b : BitVec 5) (s : State) :
    exec (.srl d a b) s = execSrl d a b s := rfl
@[simp] theorem exec_sra (d : BitVec 5) (a : BitVec 5) (b : BitVec 5) (s : State) :
    exec (.sra d a b) s = execSra d a b s := rfl
@[simp] theorem exec_rol (d : BitVec 5) (a : BitVec 5) (b : BitVec 5) (s : State) :
    exec (.rol d a b) s = execRol d a b s := rfl
@[simp] theorem exec_slt (d : BitVec 5) (a : BitVec 5) (b : BitVec 5) (s : State) :
    exec (.slt d a b) s = execSlt d a b s := rfl
@[simp] theorem exec_sltu (d : BitVec 5) (a : BitVec 5) (b : BitVec 5) (s : State) :
    exec (.sltu d a b) s = execSltu d a b s := rfl
@[simp] theorem exec_min (d : BitVec 5) (a : BitVec 5) (b : BitVec 5) (s : State) :
    exec (.min d a b) s = execMin d a b s := rfl
@[simp] theorem exec_max (d : BitVec 5) (a : BitVec 5) (b : BitVec 5) (s : State) :
    exec (.max d a b) s = execMax d a b s := rfl
@[simp] theorem exec_minu (d : BitVec 5) (a : BitVec 5) (b : BitVec 5) (s : State) :
    exec (.minu d a b) s = execMinu d a b s := rfl
@[simp] theorem exec_maxu (d : BitVec 5) (a : BitVec 5) (b : BitVec 5) (s : State) :
    exec (.maxu d a b) s = execMaxu d a b s := rfl
@[simp] theorem exec_lea (d : BitVec 5) (a : BitVec 5) (b : BitVec 5) (sz : BitVec 2) (s : State) :
    exec (.lea d a b sz) s = execLea d a b sz s := rfl
@[simp] theorem exec_clz (d : BitVec 5) (a : BitVec 5) (s : State) :
    exec (.clz d a) s = execClz d a s := rfl
@[simp] theorem exec_ctz (d : BitVec 5) (a : BitVec 5) (s : State) :
    exec (.ctz d a) s = execCtz d a s := rfl
@[simp] theorem exec_popc (d : BitVec 5) (a : BitVec 5) (s : State) :
    exec (.popc d a) s = execPopc d a s := rfl
@[simp] theorem exec_bswap (d : BitVec 5) (a : BitVec 5) (s : State) :
    exec (.bswap d a) s = execBswap d a s := rfl
@[simp] theorem exec_sextB (d : BitVec 5) (a : BitVec 5) (s : State) :
    exec (.sextB d a) s = execSextB d a s := rfl
@[simp] theorem exec_sextH (d : BitVec 5) (a : BitVec 5) (s : State) :
    exec (.sextH d a) s = execSextH d a s := rfl
@[simp] theorem exec_sextW (d : BitVec 5) (a : BitVec 5) (s : State) :
    exec (.sextW d a) s = execSextW d a s := rfl
@[simp] theorem exec_zextW (d : BitVec 5) (a : BitVec 5) (s : State) :
    exec (.zextW d a) s = execZextW d a s := rfl
@[simp] theorem exec_addi (d : BitVec 5) (a : BitVec 5) (im : BitVec 16) (s : State) :
    exec (.addi d a im) s = execAddi d a im s := rfl
@[simp] theorem exec_andi (d : BitVec 5) (a : BitVec 5) (im : BitVec 16) (s : State) :
    exec (.andi d a im) s = execAndi d a im s := rfl
@[simp] theorem exec_ori (d : BitVec 5) (a : BitVec 5) (im : BitVec 16) (s : State) :
    exec (.ori d a im) s = execOri d a im s := rfl
@[simp] theorem exec_xori (d : BitVec 5) (a : BitVec 5) (im : BitVec 16) (s : State) :
    exec (.xori d a im) s = execXori d a im s := rfl
@[simp] theorem exec_slti (d : BitVec 5) (a : BitVec 5) (im : BitVec 16) (s : State) :
    exec (.slti d a im) s = execSlti d a im s := rfl
@[simp] theorem exec_sltiu (d : BitVec 5) (a : BitVec 5) (im : BitVec 16) (s : State) :
    exec (.sltiu d a im) s = execSltiu d a im s := rfl
@[simp] theorem exec_lih (d : BitVec 5) (a : BitVec 5) (im : BitVec 16) (s : State) :
    exec (.lih d a im) s = execLih d a im s := rfl
@[simp] theorem exec_slli (d : BitVec 5) (a : BitVec 5) (h : BitVec 6) (s : State) :
    exec (.slli d a h) s = execSlli d a h s := rfl
@[simp] theorem exec_srli (d : BitVec 5) (a : BitVec 5) (h : BitVec 6) (s : State) :
    exec (.srli d a h) s = execSrli d a h s := rfl
@[simp] theorem exec_srai (d : BitVec 5) (a : BitVec 5) (h : BitVec 6) (s : State) :
    exec (.srai d a h) s = execSrai d a h s := rfl
@[simp] theorem exec_roli (d : BitVec 5) (a : BitVec 5) (h : BitVec 6) (s : State) :
    exec (.roli d a h) s = execRoli d a h s := rfl
@[simp] theorem exec_mul (d : BitVec 5) (a : BitVec 5) (b : BitVec 5) (s : State) :
    exec (.mul d a b) s = execMul d a b s := rfl
@[simp] theorem exec_mulh (d : BitVec 5) (a : BitVec 5) (b : BitVec 5) (s : State) :
    exec (.mulh d a b) s = execMulh d a b s := rfl
@[simp] theorem exec_mulhu (d : BitVec 5) (a : BitVec 5) (b : BitVec 5) (s : State) :
    exec (.mulhu d a b) s = execMulhu d a b s := rfl
@[simp] theorem exec_mulhsu (d : BitVec 5) (a : BitVec 5) (b : BitVec 5) (s : State) :
    exec (.mulhsu d a b) s = execMulhsu d a b s := rfl
@[simp] theorem exec_div (d : BitVec 5) (a : BitVec 5) (b : BitVec 5) (s : State) :
    exec (.div d a b) s = execDiv d a b s := rfl
@[simp] theorem exec_divu (d : BitVec 5) (a : BitVec 5) (b : BitVec 5) (s : State) :
    exec (.divu d a b) s = execDivu d a b s := rfl
@[simp] theorem exec_rem (d : BitVec 5) (a : BitVec 5) (b : BitVec 5) (s : State) :
    exec (.rem d a b) s = execRem d a b s := rfl
@[simp] theorem exec_remu (d : BitVec 5) (a : BitVec 5) (b : BitVec 5) (s : State) :
    exec (.remu d a b) s = execRemu d a b s := rfl
@[simp] theorem exec_bEq (a : BitVec 5) (b : BitVec 5) (im : BitVec 12) (s : State) :
    exec (.bEq a b im) s = execBEq a b im s := rfl
@[simp] theorem exec_bNe (a : BitVec 5) (b : BitVec 5) (im : BitVec 12) (s : State) :
    exec (.bNe a b im) s = execBNe a b im s := rfl
@[simp] theorem exec_bLt (a : BitVec 5) (b : BitVec 5) (im : BitVec 12) (s : State) :
    exec (.bLt a b im) s = execBLt a b im s := rfl
@[simp] theorem exec_bGe (a : BitVec 5) (b : BitVec 5) (im : BitVec 12) (s : State) :
    exec (.bGe a b im) s = execBGe a b im s := rfl
@[simp] theorem exec_bLtu (a : BitVec 5) (b : BitVec 5) (im : BitVec 12) (s : State) :
    exec (.bLtu a b im) s = execBLtu a b im s := rfl
@[simp] theorem exec_bGeu (a : BitVec 5) (b : BitVec 5) (im : BitVec 12) (s : State) :
    exec (.bGeu a b im) s = execBGeu a b im s := rfl
@[simp] theorem exec_bKany (a : BitVec 5) (b : BitVec 5) (im : BitVec 12) (s : State) :
    exec (.bKany a b im) s = execBKany a b im s := rfl
@[simp] theorem exec_bKall (a : BitVec 5) (b : BitVec 5) (im : BitVec 12) (s : State) :
    exec (.bKall a b im) s = execBKall a b im s := rfl
@[simp] theorem exec_bKnone (a : BitVec 5) (b : BitVec 5) (im : BitVec 12) (s : State) :
    exec (.bKnone a b im) s = execBKnone a b im s := rfl
@[simp] theorem exec_j (im : BitVec 26) (s : State) :
    exec (.j im) s = execJ im s := rfl
@[simp] theorem exec_jl (im : BitVec 26) (s : State) :
    exec (.jl im) s = execJl im s := rfl
@[simp] theorem exec_jr (a : BitVec 5) (s : State) :
    exec (.jr a) s = execJr a s := rfl
@[simp] theorem exec_jlr (d : BitVec 5) (a : BitVec 5) (s : State) :
    exec (.jlr d a) s = execJlr d a s := rfl
@[simp] theorem exec_ld (d : BitVec 5) (a : BitVec 5) (sz : BitVec 3) (im : BitVec 13) (s : State) :
    exec (.ld d a sz im) s = execLd d a sz im s := rfl
@[simp] theorem exec_st (d : BitVec 5) (a : BitVec 5) (sz : BitVec 3) (im : BitVec 13) (s : State) :
    exec (.st d a sz im) s = execSt d a sz im s := rfl
@[simp] theorem exec_ldx (d : BitVec 5) (a : BitVec 5) (b : BitVec 5) (sz : BitVec 3) (s : State) :
    exec (.ldx d a b sz) s = execLdx d a b sz s := rfl
@[simp] theorem exec_stx (d : BitVec 5) (a : BitVec 5) (b : BitVec 5) (sz : BitVec 3) (s : State) :
    exec (.stx d a b sz) s = execStx d a b sz s := rfl
@[simp] theorem exec_ldAcq (d : BitVec 5) (a : BitVec 5) (sz : BitVec 3) (s : State) :
    exec (.ldAcq d a sz) s = execLdAcq d a sz s := rfl
@[simp] theorem exec_stRel (d : BitVec 5) (a : BitVec 5) (sz : BitVec 3) (s : State) :
    exec (.stRel d a sz) s = execStRel d a sz s := rfl
@[simp] theorem exec_raddr (d : BitVec 5) (a : BitVec 5) (b : BitVec 5) (s : State) :
    exec (.raddr d a b) s = execRaddr d a b s := rfl
@[simp] theorem exec_amoAdd (d : BitVec 5) (a : BitVec 5) (b : BitVec 5) (o : BitVec 2) (w : BitVec 1) (s : State) :
    exec (.amoAdd d a b o w) s = execAmoAdd d a b o w s := rfl
@[simp] theorem exec_amoSwap (d : BitVec 5) (a : BitVec 5) (b : BitVec 5) (o : BitVec 2) (w : BitVec 1) (s : State) :
    exec (.amoSwap d a b o w) s = execAmoSwap d a b o w s := rfl
@[simp] theorem exec_amoCas (d : BitVec 5) (a : BitVec 5) (b : BitVec 5) (o : BitVec 2) (w : BitVec 1) (s : State) :
    exec (.amoCas d a b o w) s = execAmoCas d a b o w s := rfl
@[simp] theorem exec_amoMin (d : BitVec 5) (a : BitVec 5) (b : BitVec 5) (o : BitVec 2) (w : BitVec 1) (s : State) :
    exec (.amoMin d a b o w) s = execAmoMin d a b o w s := rfl
@[simp] theorem exec_amoMax (d : BitVec 5) (a : BitVec 5) (b : BitVec 5) (o : BitVec 2) (w : BitVec 1) (s : State) :
    exec (.amoMax d a b o w) s = execAmoMax d a b o w s := rfl
@[simp] theorem exec_amoMinu (d : BitVec 5) (a : BitVec 5) (b : BitVec 5) (o : BitVec 2) (w : BitVec 1) (s : State) :
    exec (.amoMinu d a b o w) s = execAmoMinu d a b o w s := rfl
@[simp] theorem exec_amoMaxu (d : BitVec 5) (a : BitVec 5) (b : BitVec 5) (o : BitVec 2) (w : BitVec 1) (s : State) :
    exec (.amoMaxu d a b o w) s = execAmoMaxu d a b o w s := rfl
@[simp] theorem exec_amoAnd (d : BitVec 5) (a : BitVec 5) (b : BitVec 5) (o : BitVec 2) (w : BitVec 1) (s : State) :
    exec (.amoAnd d a b o w) s = execAmoAnd d a b o w s := rfl
@[simp] theorem exec_amoOr (d : BitVec 5) (a : BitVec 5) (b : BitVec 5) (o : BitVec 2) (w : BitVec 1) (s : State) :
    exec (.amoOr d a b o w) s = execAmoOr d a b o w s := rfl
@[simp] theorem exec_amoXor (d : BitVec 5) (a : BitVec 5) (b : BitVec 5) (o : BitVec 2) (w : BitVec 1) (s : State) :
    exec (.amoXor d a b o w) s = execAmoXor d a b o w s := rfl
@[simp] theorem exec_fenceIssue (t : BitVec 2) (k : BitVec 5) (s : State) :
    exec (.fenceIssue t k) s = execFenceIssue t k s := rfl
@[simp] theorem exec_fenceWait (t : BitVec 2) (s : State) :
    exec (.fenceWait t) s = execFenceWait t s := rfl
@[simp] theorem exec_fenceTest (d : BitVec 5) (t : BitVec 2) (s : State) :
    exec (.fenceTest d t) s = execFenceTest d t s := rfl
@[simp] theorem exec_mtxLock (b : BitVec 5) (s : State) :
    exec (.mtxLock b) s = execMtxLock b s := rfl
@[simp] theorem exec_mtxTry (d : BitVec 5) (b : BitVec 5) (s : State) :
    exec (.mtxTry d b) s = execMtxTry d b s := rfl
@[simp] theorem exec_mtxUnlock (b : BitVec 5) (s : State) :
    exec (.mtxUnlock b) s = execMtxUnlock b s := rfl
@[simp] theorem exec_semP (b : BitVec 5) (s : State) :
    exec (.semP b) s = execSemP b s := rfl
@[simp] theorem exec_semV (b : BitVec 5) (s : State) :
    exec (.semV b) s = execSemV b s := rfl
@[simp] theorem exec_semTry (d : BitVec 5) (b : BitVec 5) (s : State) :
    exec (.semTry d b) s = execSemTry d b s := rfl
@[simp] theorem exec_semRd (d : BitVec 5) (b : BitVec 5) (s : State) :
    exec (.semRd d b) s = execSemRd d b s := rfl
@[simp] theorem exec_beadStart (d : BitVec 5) (a : BitVec 5) (b : BitVec 5) (s : State) :
    exec (.beadStart d a b) s = execBeadStart d a b s := rfl
@[simp] theorem exec_beadWait (a : BitVec 5) (s : State) :
    exec (.beadWait a) s = execBeadWait a s := rfl
@[simp] theorem exec_beadLive (d : BitVec 5) (s : State) :
    exec (.beadLive d) s = execBeadLive d s := rfl
@[simp] theorem exec_srr (d : BitVec 5) (n : BitVec 12) (s : State) :
    exec (.srr d n) s = execSrr d n s := rfl
@[simp] theorem exec_srw (d : BitVec 5) (a : BitVec 5) (n : BitVec 12) (s : State) :
    exec (.srw d a n) s = execSrw d a n s := rfl
@[simp] theorem exec_srs (d : BitVec 5) (a : BitVec 5) (n : BitVec 12) (s : State) :
    exec (.srs d a n) s = execSrs d a n s := rfl
@[simp] theorem exec_src (d : BitVec 5) (a : BitVec 5) (n : BitVec 12) (s : State) :
    exec (.src d a n) s = execSrc d a n s := rfl
@[simp] theorem exec_fadd (d : BitVec 5) (a : BitVec 5) (b : BitVec 5) (y : BitVec 1) (m : BitVec 3) (t : BitVec 1) (s : State) :
    exec (.fadd d a b y m t) s = execFadd d a b y m t s := rfl
@[simp] theorem exec_fsub (d : BitVec 5) (a : BitVec 5) (b : BitVec 5) (y : BitVec 1) (m : BitVec 3) (t : BitVec 1) (s : State) :
    exec (.fsub d a b y m t) s = execFsub d a b y m t s := rfl
@[simp] theorem exec_fmul (d : BitVec 5) (a : BitVec 5) (b : BitVec 5) (y : BitVec 1) (m : BitVec 3) (t : BitVec 1) (s : State) :
    exec (.fmul d a b y m t) s = execFmul d a b y m t s := rfl
@[simp] theorem exec_fdiv (d : BitVec 5) (a : BitVec 5) (b : BitVec 5) (y : BitVec 1) (m : BitVec 3) (t : BitVec 1) (s : State) :
    exec (.fdiv d a b y m t) s = execFdiv d a b y m t s := rfl
@[simp] theorem exec_fsqrt (d : BitVec 5) (a : BitVec 5) (y : BitVec 1) (m : BitVec 3) (t : BitVec 1) (s : State) :
    exec (.fsqrt d a y m t) s = execFsqrt d a y m t s := rfl
@[simp] theorem exec_fmadd (d : BitVec 5) (a : BitVec 5) (b : BitVec 5) (y : BitVec 1) (m : BitVec 3) (t : BitVec 1) (s : State) :
    exec (.fmadd d a b y m t) s = execFmadd d a b y m t s := rfl
@[simp] theorem exec_fmin (d : BitVec 5) (a : BitVec 5) (b : BitVec 5) (t : BitVec 1) (s : State) :
    exec (.fmin d a b t) s = execFmin d a b t s := rfl
@[simp] theorem exec_fmax (d : BitVec 5) (a : BitVec 5) (b : BitVec 5) (t : BitVec 1) (s : State) :
    exec (.fmax d a b t) s = execFmax d a b t s := rfl
@[simp] theorem exec_fneg (d : BitVec 5) (a : BitVec 5) (t : BitVec 1) (s : State) :
    exec (.fneg d a t) s = execFneg d a t s := rfl
@[simp] theorem exec_fabs (d : BitVec 5) (a : BitVec 5) (t : BitVec 1) (s : State) :
    exec (.fabs d a t) s = execFabs d a t s := rfl
@[simp] theorem exec_feq (d : BitVec 5) (a : BitVec 5) (b : BitVec 5) (t : BitVec 1) (s : State) :
    exec (.feq d a b t) s = execFeq d a b t s := rfl
@[simp] theorem exec_flt (d : BitVec 5) (a : BitVec 5) (b : BitVec 5) (t : BitVec 1) (s : State) :
    exec (.flt d a b t) s = execFlt d a b t s := rfl
@[simp] theorem exec_fle (d : BitVec 5) (a : BitVec 5) (b : BitVec 5) (t : BitVec 1) (s : State) :
    exec (.fle d a b t) s = execFle d a b t s := rfl
@[simp] theorem exec_fclass (d : BitVec 5) (a : BitVec 5) (t : BitVec 1) (s : State) :
    exec (.fclass d a t) s = execFclass d a t s := rfl
@[simp] theorem exec_cvt (d : BitVec 5) (a : BitVec 5) (g : BitVec 4) (sz : BitVec 1) (m : BitVec 3) (f : BitVec 4) (y : BitVec 1) (s : State) :
    exec (.cvt d a g sz m f y) s = execCvt d a g sz m f y s := rfl
@[simp] theorem exec_vadd (d : BitVec 5) (a : BitVec 5) (b : BitVec 5) (k : BitVec 3) (z : BitVec 1) (w : BitVec 2) (s : State) :
    exec (.vadd d a b k z w) s = execVadd d a b k z w s := rfl
@[simp] theorem exec_vsub (d : BitVec 5) (a : BitVec 5) (b : BitVec 5) (k : BitVec 3) (z : BitVec 1) (w : BitVec 2) (s : State) :
    exec (.vsub d a b k z w) s = execVsub d a b k z w s := rfl
@[simp] theorem exec_vmul (d : BitVec 5) (a : BitVec 5) (b : BitVec 5) (k : BitVec 3) (z : BitVec 1) (w : BitVec 2) (s : State) :
    exec (.vmul d a b k z w) s = execVmul d a b k z w s := rfl
@[simp] theorem exec_vmulh (d : BitVec 5) (a : BitVec 5) (b : BitVec 5) (k : BitVec 3) (z : BitVec 1) (w : BitVec 2) (s : State) :
    exec (.vmulh d a b k z w) s = execVmulh d a b k z w s := rfl
@[simp] theorem exec_vand (d : BitVec 5) (a : BitVec 5) (b : BitVec 5) (k : BitVec 3) (z : BitVec 1) (w : BitVec 2) (s : State) :
    exec (.vand d a b k z w) s = execVand d a b k z w s := rfl
@[simp] theorem exec_vor (d : BitVec 5) (a : BitVec 5) (b : BitVec 5) (k : BitVec 3) (z : BitVec 1) (w : BitVec 2) (s : State) :
    exec (.vor d a b k z w) s = execVor d a b k z w s := rfl
@[simp] theorem exec_vxor (d : BitVec 5) (a : BitVec 5) (b : BitVec 5) (k : BitVec 3) (z : BitVec 1) (w : BitVec 2) (s : State) :
    exec (.vxor d a b k z w) s = execVxor d a b k z w s := rfl
@[simp] theorem exec_vsll (d : BitVec 5) (a : BitVec 5) (b : BitVec 5) (k : BitVec 3) (z : BitVec 1) (w : BitVec 2) (s : State) :
    exec (.vsll d a b k z w) s = execVsll d a b k z w s := rfl
@[simp] theorem exec_vsrl (d : BitVec 5) (a : BitVec 5) (b : BitVec 5) (k : BitVec 3) (z : BitVec 1) (w : BitVec 2) (s : State) :
    exec (.vsrl d a b k z w) s = execVsrl d a b k z w s := rfl
@[simp] theorem exec_vsra (d : BitVec 5) (a : BitVec 5) (b : BitVec 5) (k : BitVec 3) (z : BitVec 1) (w : BitVec 2) (s : State) :
    exec (.vsra d a b k z w) s = execVsra d a b k z w s := rfl
@[simp] theorem exec_vmin (d : BitVec 5) (a : BitVec 5) (b : BitVec 5) (k : BitVec 3) (z : BitVec 1) (w : BitVec 2) (s : State) :
    exec (.vmin d a b k z w) s = execVmin d a b k z w s := rfl
@[simp] theorem exec_vmax (d : BitVec 5) (a : BitVec 5) (b : BitVec 5) (k : BitVec 3) (z : BitVec 1) (w : BitVec 2) (s : State) :
    exec (.vmax d a b k z w) s = execVmax d a b k z w s := rfl
@[simp] theorem exec_vminu (d : BitVec 5) (a : BitVec 5) (b : BitVec 5) (k : BitVec 3) (z : BitVec 1) (w : BitVec 2) (s : State) :
    exec (.vminu d a b k z w) s = execVminu d a b k z w s := rfl
@[simp] theorem exec_vmaxu (d : BitVec 5) (a : BitVec 5) (b : BitVec 5) (k : BitVec 3) (z : BitVec 1) (w : BitVec 2) (s : State) :
    exec (.vmaxu d a b k z w) s = execVmaxu d a b k z w s := rfl
@[simp] theorem exec_vabs (d : BitVec 5) (a : BitVec 5) (k : BitVec 3) (z : BitVec 1) (w : BitVec 2) (s : State) :
    exec (.vabs d a k z w) s = execVabs d a k z w s := rfl
@[simp] theorem exec_vmerge (d : BitVec 5) (a : BitVec 5) (b : BitVec 5) (k : BitVec 3) (w : BitVec 2) (s : State) :
    exec (.vmerge d a b k w) s = execVmerge d a b k w s := rfl
@[simp] theorem exec_vcmpEq (d : BitVec 5) (a : BitVec 5) (b : BitVec 5) (k : BitVec 3) (z : BitVec 1) (w : BitVec 2) (s : State) :
    exec (.vcmpEq d a b k z w) s = execVcmpEq d a b k z w s := rfl
@[simp] theorem exec_vcmpNe (d : BitVec 5) (a : BitVec 5) (b : BitVec 5) (k : BitVec 3) (z : BitVec 1) (w : BitVec 2) (s : State) :
    exec (.vcmpNe d a b k z w) s = execVcmpNe d a b k z w s := rfl
@[simp] theorem exec_vcmpLt (d : BitVec 5) (a : BitVec 5) (b : BitVec 5) (k : BitVec 3) (z : BitVec 1) (w : BitVec 2) (s : State) :
    exec (.vcmpLt d a b k z w) s = execVcmpLt d a b k z w s := rfl
@[simp] theorem exec_vcmpLtu (d : BitVec 5) (a : BitVec 5) (b : BitVec 5) (k : BitVec 3) (z : BitVec 1) (w : BitVec 2) (s : State) :
    exec (.vcmpLtu d a b k z w) s = execVcmpLtu d a b k z w s := rfl
@[simp] theorem exec_vcmpLe (d : BitVec 5) (a : BitVec 5) (b : BitVec 5) (k : BitVec 3) (z : BitVec 1) (w : BitVec 2) (s : State) :
    exec (.vcmpLe d a b k z w) s = execVcmpLe d a b k z w s := rfl
@[simp] theorem exec_vcmpLeu (d : BitVec 5) (a : BitVec 5) (b : BitVec 5) (k : BitVec 3) (z : BitVec 1) (w : BitVec 2) (s : State) :
    exec (.vcmpLeu d a b k z w) s = execVcmpLeu d a b k z w s := rfl
@[simp] theorem exec_vfadd (d : BitVec 5) (a : BitVec 5) (b : BitVec 5) (k : BitVec 3) (z : BitVec 1) (t : BitVec 2) (r : BitVec 2) (s : State) :
    exec (.vfadd d a b k z t r) s = execVfadd d a b k z t r s := rfl
@[simp] theorem exec_vfsub (d : BitVec 5) (a : BitVec 5) (b : BitVec 5) (k : BitVec 3) (z : BitVec 1) (t : BitVec 2) (r : BitVec 2) (s : State) :
    exec (.vfsub d a b k z t r) s = execVfsub d a b k z t r s := rfl
@[simp] theorem exec_vfmul (d : BitVec 5) (a : BitVec 5) (b : BitVec 5) (k : BitVec 3) (z : BitVec 1) (t : BitVec 2) (r : BitVec 2) (s : State) :
    exec (.vfmul d a b k z t r) s = execVfmul d a b k z t r s := rfl
@[simp] theorem exec_vfma (d : BitVec 5) (a : BitVec 5) (b : BitVec 5) (k : BitVec 3) (z : BitVec 1) (t : BitVec 2) (r : BitVec 2) (s : State) :
    exec (.vfma d a b k z t r) s = execVfma d a b k z t r s := rfl
@[simp] theorem exec_vfdiv (d : BitVec 5) (a : BitVec 5) (b : BitVec 5) (k : BitVec 3) (z : BitVec 1) (t : BitVec 2) (r : BitVec 2) (s : State) :
    exec (.vfdiv d a b k z t r) s = execVfdiv d a b k z t r s := rfl
@[simp] theorem exec_vfsqrt (d : BitVec 5) (a : BitVec 5) (k : BitVec 3) (z : BitVec 1) (t : BitVec 2) (r : BitVec 2) (s : State) :
    exec (.vfsqrt d a k z t r) s = execVfsqrt d a k z t r s := rfl
@[simp] theorem exec_vfmin (d : BitVec 5) (a : BitVec 5) (b : BitVec 5) (k : BitVec 3) (z : BitVec 1) (t : BitVec 2) (s : State) :
    exec (.vfmin d a b k z t) s = execVfmin d a b k z t s := rfl
@[simp] theorem exec_vfmax (d : BitVec 5) (a : BitVec 5) (b : BitVec 5) (k : BitVec 3) (z : BitVec 1) (t : BitVec 2) (s : State) :
    exec (.vfmax d a b k z t) s = execVfmax d a b k z t s := rfl
@[simp] theorem exec_vfneg (d : BitVec 5) (a : BitVec 5) (k : BitVec 3) (z : BitVec 1) (t : BitVec 2) (s : State) :
    exec (.vfneg d a k z t) s = execVfneg d a k z t s := rfl
@[simp] theorem exec_vfabs (d : BitVec 5) (a : BitVec 5) (k : BitVec 3) (z : BitVec 1) (t : BitVec 2) (s : State) :
    exec (.vfabs d a k z t) s = execVfabs d a k z t s := rfl
@[simp] theorem exec_vfcmpEq (d : BitVec 5) (a : BitVec 5) (b : BitVec 5) (k : BitVec 3) (z : BitVec 1) (t : BitVec 2) (s : State) :
    exec (.vfcmpEq d a b k z t) s = execVfcmpEq d a b k z t s := rfl
@[simp] theorem exec_vfcmpLt (d : BitVec 5) (a : BitVec 5) (b : BitVec 5) (k : BitVec 3) (z : BitVec 1) (t : BitVec 2) (s : State) :
    exec (.vfcmpLt d a b k z t) s = execVfcmpLt d a b k z t s := rfl
@[simp] theorem exec_vfcmpLe (d : BitVec 5) (a : BitVec 5) (b : BitVec 5) (k : BitVec 3) (z : BitVec 1) (t : BitVec 2) (s : State) :
    exec (.vfcmpLe d a b k z t) s = execVfcmpLe d a b k z t s := rfl
@[simp] theorem exec_vfcmpUn (d : BitVec 5) (a : BitVec 5) (b : BitVec 5) (k : BitVec 3) (z : BitVec 1) (t : BitVec 2) (s : State) :
    exec (.vfcmpUn d a b k z t) s = execVfcmpUn d a b k z t s := rfl
@[simp] theorem exec_vld (d : BitVec 5) (a : BitVec 5) (k : BitVec 3) (z : BitVec 1) (w : BitVec 2) (s : State) :
    exec (.vld d a k z w) s = execVld d a k z w s := rfl
@[simp] theorem exec_vst (d : BitVec 5) (a : BitVec 5) (k : BitVec 3) (w : BitVec 2) (s : State) :
    exec (.vst d a k w) s = execVst d a k w s := rfl
@[simp] theorem exec_vlds (d : BitVec 5) (a : BitVec 5) (b : BitVec 5) (k : BitVec 3) (z : BitVec 1) (w : BitVec 2) (s : State) :
    exec (.vlds d a b k z w) s = execVlds d a b k z w s := rfl
@[simp] theorem exec_vsts (d : BitVec 5) (a : BitVec 5) (b : BitVec 5) (k : BitVec 3) (w : BitVec 2) (s : State) :
    exec (.vsts d a b k w) s = execVsts d a b k w s := rfl
@[simp] theorem exec_vldx (d : BitVec 5) (a : BitVec 5) (b : BitVec 5) (k : BitVec 3) (z : BitVec 1) (w : BitVec 2) (s : State) :
    exec (.vldx d a b k z w) s = execVldx d a b k z w s := rfl
@[simp] theorem exec_vstx (d : BitVec 5) (a : BitVec 5) (b : BitVec 5) (k : BitVec 3) (w : BitVec 2) (s : State) :
    exec (.vstx d a b k w) s = execVstx d a b k w s := rfl
@[simp] theorem exec_vldb (d : BitVec 5) (a : BitVec 5) (k : BitVec 3) (z : BitVec 1) (w : BitVec 2) (s : State) :
    exec (.vldb d a k z w) s = execVldb d a k z w s := rfl
@[simp] theorem exec_vperm (d : BitVec 5) (a : BitVec 5) (b : BitVec 5) (k : BitVec 3) (z : BitVec 1) (w : BitVec 2) (s : State) :
    exec (.vperm d a b k z w) s = execVperm d a b k z w s := rfl
@[simp] theorem exec_vslide (d : BitVec 5) (a : BitVec 5) (b : BitVec 5) (k : BitVec 3) (z : BitVec 1) (w : BitVec 2) (s : State) :
    exec (.vslide d a b k z w) s = execVslide d a b k z w s := rfl
@[simp] theorem exec_vbcast (d : BitVec 5) (a : BitVec 5) (k : BitVec 3) (z : BitVec 1) (w : BitVec 2) (s : State) :
    exec (.vbcast d a k z w) s = execVbcast d a k z w s := rfl
@[simp] theorem exec_vext (d : BitVec 5) (a : BitVec 5) (b : BitVec 5) (w : BitVec 2) (s : State) :
    exec (.vext d a b w) s = execVext d a b w s := rfl
@[simp] theorem exec_vins (d : BitVec 5) (a : BitVec 5) (b : BitVec 5) (w : BitVec 2) (s : State) :
    exec (.vins d a b w) s = execVins d a b w s := rfl
@[simp] theorem exec_vidx (d : BitVec 5) (k : BitVec 3) (z : BitVec 1) (w : BitVec 2) (s : State) :
    exec (.vidx d k z w) s = execVidx d k z w s := rfl
@[simp] theorem exec_vredAdd (d : BitVec 5) (a : BitVec 5) (k : BitVec 3) (w : BitVec 2) (s : State) :
    exec (.vredAdd d a k w) s = execVredAdd d a k w s := rfl
@[simp] theorem exec_vredMin (d : BitVec 5) (a : BitVec 5) (k : BitVec 3) (w : BitVec 2) (s : State) :
    exec (.vredMin d a k w) s = execVredMin d a k w s := rfl
@[simp] theorem exec_vredMax (d : BitVec 5) (a : BitVec 5) (k : BitVec 3) (w : BitVec 2) (s : State) :
    exec (.vredMax d a k w) s = execVredMax d a k w s := rfl
@[simp] theorem exec_vscanAdd (d : BitVec 5) (a : BitVec 5) (k : BitVec 3) (z : BitVec 1) (w : BitVec 2) (s : State) :
    exec (.vscanAdd d a k z w) s = execVscanAdd d a k z w s := rfl
@[simp] theorem exec_vredFadd (d : BitVec 5) (a : BitVec 5) (k : BitVec 3) (t : BitVec 2) (s : State) :
    exec (.vredFadd d a k t) s = execVredFadd d a k t s := rfl
@[simp] theorem exec_vredFmin (d : BitVec 5) (a : BitVec 5) (k : BitVec 3) (t : BitVec 2) (s : State) :
    exec (.vredFmin d a k t) s = execVredFmin d a k t s := rfl
@[simp] theorem exec_vredFmax (d : BitVec 5) (a : BitVec 5) (k : BitVec 3) (t : BitVec 2) (s : State) :
    exec (.vredFmax d a k t) s = execVredFmax d a k t s := rfl
@[simp] theorem exec_vscanFadd (d : BitVec 5) (a : BitVec 5) (k : BitVec 3) (z : BitVec 1) (t : BitVec 2) (s : State) :
    exec (.vscanFadd d a k z t) s = execVscanFadd d a k z t s := rfl
@[simp] theorem exec_kand (d : BitVec 5) (a : BitVec 5) (b : BitVec 5) (s : State) :
    exec (.kand d a b) s = execKand d a b s := rfl
@[simp] theorem exec_kor (d : BitVec 5) (a : BitVec 5) (b : BitVec 5) (s : State) :
    exec (.kor d a b) s = execKor d a b s := rfl
@[simp] theorem exec_kxor (d : BitVec 5) (a : BitVec 5) (b : BitVec 5) (s : State) :
    exec (.kxor d a b) s = execKxor d a b s := rfl
@[simp] theorem exec_knot (d : BitVec 5) (a : BitVec 5) (s : State) :
    exec (.knot d a) s = execKnot d a s := rfl
@[simp] theorem exec_kmov (d : BitVec 5) (a : BitVec 5) (s : State) :
    exec (.kmov d a) s = execKmov d a s := rfl
@[simp] theorem exec_kpopc (d : BitVec 5) (a : BitVec 5) (s : State) :
    exec (.kpopc d a) s = execKpopc d a s := rfl
@[simp] theorem exec_kfirst (d : BitVec 5) (a : BitVec 5) (s : State) :
    exec (.kfirst d a) s = execKfirst d a s := rfl
@[simp] theorem exec_kset (d : BitVec 5) (a : BitVec 5) (s : State) :
    exec (.kset d a) s = execKset d a s := rfl
@[simp] theorem exec_vcvt (d : BitVec 5) (a : BitVec 5) (f : BitVec 4) (t : BitVec 1) (k : BitVec 3) (z : BitVec 1) (g : BitVec 4) (m : BitVec 3) (s : State) :
    exec (.vcvt d a f t k z g m) s = execVcvt d a f t k z g m s := rfl
@[simp] theorem exec_vpack (d : BitVec 5) (a : BitVec 5) (b : BitVec 5) (k : BitVec 3) (z : BitVec 1) (t : BitVec 1) (w : BitVec 2) (s : State) :
    exec (.vpack d a b k z t w) s = execVpack d a b k z t w s := rfl
@[simp] theorem exec_vunpack (d : BitVec 5) (a : BitVec 5) (h : BitVec 1) (k : BitVec 3) (z : BitVec 1) (u : BitVec 1) (w : BitVec 2) (s : State) :
    exec (.vunpack d a h k z u w) s = execVunpack d a h k z u w s := rfl
@[simp] theorem exec_mmLoadw (a : BitVec 5) (b : BitVec 5) (t : BitVec 8) (s : State) :
    exec (.mmLoadw a b t) s = execMmLoadw a b t s := rfl
@[simp] theorem exec_mmStream (a : BitVec 5) (b : BitVec 5) (t : BitVec 8) (s : State) :
    exec (.mmStream a b t) s = execMmStream a b t s := rfl
@[simp] theorem exec_mmDrain (a : BitVec 5) (b : BitVec 5) (t : BitVec 8) (s : State) :
    exec (.mmDrain a b t) s = execMmDrain a b t s := rfl
@[simp] theorem exec_mmZero (a : BitVec 5) (s : State) :
    exec (.mmZero a) s = execMmZero a s := rfl
@[simp] theorem exec_mmRdrow (d : BitVec 5) (a : BitVec 5) (s : State) :
    exec (.mmRdrow d a) s = execMmRdrow d a s := rfl
@[simp] theorem exec_mmSeq (a : BitVec 5) (s : State) :
    exec (.mmSeq a) s = execMmSeq a s := rfl
@[simp] theorem exec_bzLocate (d : BitVec 5) (s : State) :
    exec (.bzLocate d) s = execBzLocate d s := rfl
@[simp] theorem exec_bzFix (d : BitVec 5) (a : BitVec 5) (s : State) :
    exec (.bzFix d a) s = execBzFix d a s := rfl
@[simp] theorem exec_bzRetry (d : BitVec 5) (s : State) :
    exec (.bzRetry d) s = execBzRetry d s := rfl
@[simp] theorem exec_bzClear (a : BitVec 5) (s : State) :
    exec (.bzClear a) s = execBzClear a s := rfl
@[simp] theorem exec_bzInject (a : BitVec 5) (b : BitVec 5) (s : State) :
    exec (.bzInject a b) s = execBzInject a b s := rfl
@[simp] theorem exec_bzStat (d : BitVec 5) (a : BitVec 5) (s : State) :
    exec (.bzStat d a) s = execBzStat d a s := rfl
@[simp] theorem exec_ttLoad (a : BitVec 5) (t : BitVec 8) (s : State) :
    exec (.ttLoad a t) s = execTtLoad a t s := rfl
@[simp] theorem exec_ttSlice (t : BitVec 8) (s : State) :
    exec (.ttSlice t) s = execTtSlice t s := rfl
@[simp] theorem exec_ttRd (d : BitVec 5) (n : BitVec 5) (t : BitVec 8) (s : State) :
    exec (.ttRd d n t) s = execTtRd d n t s := rfl
@[simp] theorem exec_ttInval (t : BitVec 8) (s : State) :
    exec (.ttInval t) s = execTtInval t s := rfl
@[simp] theorem exec_cpyPush (a : BitVec 5) (s : State) :
    exec (.cpyPush a) s = execCpyPush a s := rfl
@[simp] theorem exec_cpyTry (d : BitVec 5) (a : BitVec 5) (s : State) :
    exec (.cpyTry d a) s = execCpyTry d a s := rfl
@[simp] theorem exec_cpyQuiesce (a : BitVec 5) (s : State) :
    exec (.cpyQuiesce a) s = execCpyQuiesce a s := rfl
@[simp] theorem exec_msgSend (a : BitVec 5) (b : BitVec 5) (s : State) :
    exec (.msgSend a b) s = execMsgSend a b s := rfl
@[simp] theorem exec_msgSendRel (a : BitVec 5) (b : BitVec 5) (s : State) :
    exec (.msgSendRel a b) s = execMsgSendRel a b s := rfl
@[simp] theorem exec_msgMcast (a : BitVec 5) (b : BitVec 5) (s : State) :
    exec (.msgMcast a b) s = execMsgMcast a b s := rfl
@[simp] theorem exec_msgMcastRel (a : BitVec 5) (b : BitVec 5) (s : State) :
    exec (.msgMcastRel a b) s = execMsgMcastRel a b s := rfl
@[simp] theorem exec_mboxPop (d : BitVec 5) (s : State) :
    exec (.mboxPop d) s = execMboxPop d s := rfl
@[simp] theorem exec_mboxCnt (d : BitVec 5) (s : State) :
    exec (.mboxCnt d) s = execMboxCnt d s := rfl
@[simp] theorem exec_tagLook (d : BitVec 5) (a : BitVec 5) (b : BitVec 5) (s : State) :
    exec (.tagLook d a b) s = execTagLook d a b s := rfl
@[simp] theorem exec_tagSet (a : BitVec 5) (b : BitVec 5) (s : State) :
    exec (.tagSet a b) s = execTagSet a b s := rfl
@[simp] theorem exec_tagClr (d : BitVec 5) (a : BitVec 5) (s : State) :
    exec (.tagClr d a) s = execTagClr d a s := rfl
@[simp] theorem exec_tagFlush (d : BitVec 5) (a : BitVec 5) (s : State) :
    exec (.tagFlush d a) s = execTagFlush d a s := rfl
@[simp] theorem exec_qPush (d : BitVec 5) (a : BitVec 5) (b : BitVec 5) (s : State) :
    exec (.qPush d a b) s = execQPush d a b s := rfl
@[simp] theorem exec_qTry (d : BitVec 5) (a : BitVec 5) (b : BitVec 5) (s : State) :
    exec (.qTry d a b) s = execQTry d a b s := rfl
@[simp] theorem exec_qDeq (d : BitVec 5) (a : BitVec 5) (b : BitVec 5) (s : State) :
    exec (.qDeq d a b) s = execQDeq d a b s := rfl
@[simp] theorem exec_qTdeq (d : BitVec 5) (a : BitVec 5) (b : BitVec 5) (s : State) :
    exec (.qTdeq d a b) s = execQTdeq d a b s := rfl
@[simp] theorem exec_qStat (d : BitVec 5) (b : BitVec 5) (s : State) :
    exec (.qStat d b) s = execQStat d b s := rfl
@[simp] theorem exec_qReset (a : BitVec 5) (b : BitVec 5) (s : State) :
    exec (.qReset a b) s = execQReset a b s := rfl
@[simp] theorem exec_taskNext (d : BitVec 5) (a : BitVec 5) (s : State) :
    exec (.taskNext d a) s = execTaskNext d a s := rfl
@[simp] theorem exec_taskDone (a : BitVec 5) (s : State) :
    exec (.taskDone a) s = execTaskDone a s := rfl
@[simp] theorem exec_taskFail (a : BitVec 5) (b : BitVec 5) (s : State) :
    exec (.taskFail a b) s = execTaskFail a b s := rfl
@[simp] theorem exec_taskRearm (a : BitVec 5) (s : State) :
    exec (.taskRearm a) s = execTaskRearm a s := rfl
@[simp] theorem exec_taskSpawn (a : BitVec 5) (b : BitVec 5) (s : State) :
    exec (.taskSpawn a b) s = execTaskSpawn a b s := rfl
@[simp] theorem exec_gangLaunch (d : BitVec 5) (a : BitVec 5) (s : State) :
    exec (.gangLaunch d a) s = execGangLaunch d a s := rfl
@[simp] theorem exec_cnPut (a : BitVec 5) (b : BitVec 5) (p : BitVec 6) (s : State) :
    exec (.cnPut a b p) s = execCnPut a b p s := rfl
@[simp] theorem exec_cnTake (d : BitVec 5) (p : BitVec 6) (s : State) :
    exec (.cnTake d p) s = execCnTake d p s := rfl
@[simp] theorem exec_cnTtake (d : BitVec 5) (p : BitVec 6) (s : State) :
    exec (.cnTtake d p) s = execCnTtake d p s := rfl
@[simp] theorem exec_cnStat (d : BitVec 5) (b : BitVec 5) (p : BitVec 6) (s : State) :
    exec (.cnStat d b p) s = execCnStat d b p s := rfl
@[simp] theorem exec_cnOpen (a : BitVec 5) (p : BitVec 6) (s : State) :
    exec (.cnOpen a p) s = execCnOpen a p s := rfl
@[simp] theorem exec_cnClose (p : BitVec 6) (s : State) :
    exec (.cnClose p) s = execCnClose p s := rfl
@[simp] theorem exec_barArrive (d : BitVec 5) (b : BitVec 5) (s : State) :
    exec (.barArrive d b) s = execBarArrive d b s := rfl
@[simp] theorem exec_barWait (a : BitVec 5) (b : BitVec 5) (s : State) :
    exec (.barWait a b) s = execBarWait a b s := rfl
@[simp] theorem exec_barTest (d : BitVec 5) (a : BitVec 5) (b : BitVec 5) (s : State) :
    exec (.barTest d a b) s = execBarTest d a b s := rfl
@[simp] theorem exec_barCfg (a : BitVec 5) (b : BitVec 5) (s : State) :
    exec (.barCfg a b) s = execBarCfg a b s := rfl
@[simp] theorem exec_txEnter (a : BitVec 5) (b : BitVec 5) (s : State) :
    exec (.txEnter a b) s = execTxEnter a b s := rfl
@[simp] theorem exec_txResume (a : BitVec 5) (s : State) :
    exec (.txResume a) s = execTxResume a s := rfl
@[simp] theorem exec_txResumeSkip (a : BitVec 5) (s : State) :
    exec (.txResumeSkip a) s = execTxResumeSkip a s := rfl
@[simp] theorem exec_icGet (d : BitVec 5) (a : BitVec 5) (s : State) :
    exec (.icGet d a) s = execIcGet d a s := rfl
@[simp] theorem exec_icSet (a : BitVec 5) (b : BitVec 5) (s : State) :
    exec (.icSet a b) s = execIcSet a b s := rfl
@[simp] theorem exec_icClr (a : BitVec 5) (s : State) :
    exec (.icClr a) s = execIcClr a s := rfl
@[simp] theorem exec_holdAdd (d : BitVec 5) (a : BitVec 5) (b : BitVec 5) (s : State) :
    exec (.holdAdd d a b) s = execHoldAdd d a b s := rfl
@[simp] theorem exec_txRelq (d : BitVec 5) (s : State) :
    exec (.txRelq d) s = execTxRelq d s := rfl
@[simp] theorem exec_txRelqRel (a : BitVec 5) (s : State) :
    exec (.txRelqRel a) s = execTxRelqRel a s := rfl
@[simp] theorem exec_txRelqStat (d : BitVec 5) (s : State) :
    exec (.txRelqStat d) s = execTxRelqStat d s := rfl
@[simp] theorem exec_txRelqCfg (a : BitVec 5) (s : State) :
    exec (.txRelqCfg a) s = execTxRelqCfg a s := rfl
@[simp] theorem exec_txClsver (d : BitVec 5) (a : BitVec 5) (s : State) :
    exec (.txClsver d a) s = execTxClsver d a s := rfl
@[simp] theorem exec_tsupixMove (b : BitVec 8) (a : BitVec 8) (s : State) :
    exec (.tsupixMove b a) s = execTsupixMove b a s := rfl
@[simp] theorem exec_tsupixLoadk (k : BitVec 16) (a : BitVec 8) (s : State) :
    exec (.tsupixLoadk k a) s = execTsupixLoadk k a s := rfl
@[simp] theorem exec_tsupixLoadi (k : BitVec 16) (a : BitVec 8) (s : State) :
    exec (.tsupixLoadi k a) s = execTsupixLoadi k a s := rfl
@[simp] theorem exec_tsupixDrop (a : BitVec 8) (s : State) :
    exec (.tsupixDrop a) s = execTsupixDrop a s := rfl
@[simp] theorem exec_tsupixGetglobal (a : BitVec 8) (x : BitVec 8) (y : BitVec 8) (im : BitVec 16) (s : State) :
    exec (.tsupixGetglobal a x y im) s = execTsupixGetglobal a x y im s := rfl
@[simp] theorem exec_tsupixSetglobal (a : BitVec 8) (x : BitVec 8) (y : BitVec 8) (im : BitVec 16) (s : State) :
    exec (.tsupixSetglobal a x y im) s = execTsupixSetglobal a x y im s := rfl
@[simp] theorem exec_tsupixGetattr (a : BitVec 8) (x : BitVec 8) (y : BitVec 8) (im : BitVec 16) (s : State) :
    exec (.tsupixGetattr a x y im) s = execTsupixGetattr a x y im s := rfl
@[simp] theorem exec_tsupixSetattr (a : BitVec 8) (x : BitVec 8) (y : BitVec 8) (im : BitVec 16) (s : State) :
    exec (.tsupixSetattr a x y im) s = execTsupixSetattr a x y im s := rfl
@[simp] theorem exec_tsupixGetitem (a : BitVec 8) (x : BitVec 8) (y : BitVec 8) (im : BitVec 16) (s : State) :
    exec (.tsupixGetitem a x y im) s = execTsupixGetitem a x y im s := rfl
@[simp] theorem exec_tsupixSetitem (a : BitVec 8) (x : BitVec 8) (y : BitVec 8) (im : BitVec 16) (s : State) :
    exec (.tsupixSetitem a x y im) s = execTsupixSetitem a x y im s := rfl
@[simp] theorem exec_tsupixAdd (c : BitVec 8) (b : BitVec 8) (a : BitVec 8) (s : State) :
    exec (.tsupixAdd c b a) s = execTsupixAdd c b a s := rfl
@[simp] theorem exec_tsupixSub (c : BitVec 8) (b : BitVec 8) (a : BitVec 8) (s : State) :
    exec (.tsupixSub c b a) s = execTsupixSub c b a s := rfl
@[simp] theorem exec_tsupixMul (c : BitVec 8) (b : BitVec 8) (a : BitVec 8) (s : State) :
    exec (.tsupixMul c b a) s = execTsupixMul c b a s := rfl
@[simp] theorem exec_tsupixTruediv (c : BitVec 8) (b : BitVec 8) (a : BitVec 8) (s : State) :
    exec (.tsupixTruediv c b a) s = execTsupixTruediv c b a s := rfl
@[simp] theorem exec_tsupixFloordiv (c : BitVec 8) (b : BitVec 8) (a : BitVec 8) (s : State) :
    exec (.tsupixFloordiv c b a) s = execTsupixFloordiv c b a s := rfl
@[simp] theorem exec_tsupixMod (c : BitVec 8) (b : BitVec 8) (a : BitVec 8) (s : State) :
    exec (.tsupixMod c b a) s = execTsupixMod c b a s := rfl
@[simp] theorem exec_tsupixMatmul (c : BitVec 8) (b : BitVec 8) (a : BitVec 8) (s : State) :
    exec (.tsupixMatmul c b a) s = execTsupixMatmul c b a s := rfl
@[simp] theorem exec_tsupixNeg (b : BitVec 8) (a : BitVec 8) (s : State) :
    exec (.tsupixNeg b a) s = execTsupixNeg b a s := rfl
@[simp] theorem exec_tsupixLt (c : BitVec 8) (b : BitVec 8) (a : BitVec 8) (s : State) :
    exec (.tsupixLt c b a) s = execTsupixLt c b a s := rfl
@[simp] theorem exec_tsupixLe (c : BitVec 8) (b : BitVec 8) (a : BitVec 8) (s : State) :
    exec (.tsupixLe c b a) s = execTsupixLe c b a s := rfl
@[simp] theorem exec_tsupixEq (c : BitVec 8) (b : BitVec 8) (a : BitVec 8) (s : State) :
    exec (.tsupixEq c b a) s = execTsupixEq c b a s := rfl
@[simp] theorem exec_tsupixNot (b : BitVec 8) (a : BitVec 8) (s : State) :
    exec (.tsupixNot b a) s = execTsupixNot b a s := rfl
@[simp] theorem exec_tsupixJmp (j : BitVec 24) (s : State) :
    exec (.tsupixJmp j) s = execTsupixJmp j s := rfl
@[simp] theorem exec_tsupixJmpif (k : BitVec 16) (a : BitVec 8) (s : State) :
    exec (.tsupixJmpif k a) s = execTsupixJmpif k a s := rfl
@[simp] theorem exec_tsupixJmpifnot (k : BitVec 16) (a : BitVec 8) (s : State) :
    exec (.tsupixJmpifnot k a) s = execTsupixJmpifnot k a s := rfl
@[simp] theorem exec_tsupixForiter (k : BitVec 16) (a : BitVec 8) (s : State) :
    exec (.tsupixForiter k a) s = execTsupixForiter k a s := rfl
@[simp] theorem exec_tsupixCall (a : BitVec 8) (x : BitVec 8) (y : BitVec 8) (im : BitVec 16) (s : State) :
    exec (.tsupixCall a x y im) s = execTsupixCall a x y im s := rfl
@[simp] theorem exec_tsupixTcall (a : BitVec 8) (x : BitVec 8) (y : BitVec 8) (im : BitVec 16) (s : State) :
    exec (.tsupixTcall a x y im) s = execTsupixTcall a x y im s := rfl
@[simp] theorem exec_tsupixReturn (a : BitVec 8) (s : State) :
    exec (.tsupixReturn a) s = execTsupixReturn a s := rfl
@[simp] theorem exec_tsupixNewtuple (c : BitVec 8) (b : BitVec 8) (a : BitVec 8) (s : State) :
    exec (.tsupixNewtuple c b a) s = execTsupixNewtuple c b a s := rfl
@[simp] theorem exec_tsupixNewlist (c : BitVec 8) (b : BitVec 8) (a : BitVec 8) (s : State) :
    exec (.tsupixNewlist c b a) s = execTsupixNewlist c b a s := rfl
@[simp] theorem exec_tsupixNewdict (a : BitVec 8) (s : State) :
    exec (.tsupixNewdict a) s = execTsupixNewdict a s := rfl
@[simp] theorem exec_tsupixNewobj (a : BitVec 8) (x : BitVec 8) (y : BitVec 8) (im : BitVec 16) (s : State) :
    exec (.tsupixNewobj a x y im) s = execTsupixNewobj a x y im s := rfl
@[simp] theorem exec_tsupixTsync (a : BitVec 8) (s : State) :
    exec (.tsupixTsync a) s = execTsupixTsync a s := rfl
@[simp] theorem exec_tsupixRaise (a : BitVec 8) (s : State) :
    exec (.tsupixRaise a) s = execTsupixRaise a s := rfl
@[simp] theorem exec_tsupixTry (j : BitVec 24) (s : State) :
    exec (.tsupixTry j) s = execTsupixTry j s := rfl
@[simp] theorem exec_tsupixNative (k : BitVec 16) (a : BitVec 8) (s : State) :
    exec (.tsupixNative k a) s = execTsupixNative k a s := rfl
@[simp] theorem exec_lateFault (a : Agent) (s : State) :
    exec (.lateFault a) s = execLateFault a s := rfl
@[simp] theorem exec_userInterruptDelivery (a : Agent) (s : State) :
    exec (.userInterruptDelivery a) s = execUserInterruptDelivery a s := rfl
@[simp] theorem exec_parkWake (a : Agent) (s : State) :
    exec (.parkWake a) s = execParkWake a s := rfl
@[simp] theorem exec_busyEnd (a : Agent) (s : State) :
    exec (.busyEnd a) s = execBusyEnd a s := rfl
@[simp] theorem exec_remoteValueReturn (a : Agent) (s : State) :
    exec (.remoteValueReturn a) s = execRemoteValueReturn a s := rfl
@[simp] theorem exec_homeAccess (id : Nat) (reply : Reply) (s : State) :
    exec (.homeAccess id reply) s = execHomeAccess id reply s := rfl
@[simp] theorem exec_heartbeatMiss (t : Fin 900) (f : Fin 4) (s : State) :
    exec (.heartbeatMiss t f) s = execHeartbeatMiss t f s := rfl
@[simp] theorem exec_hbmiss (t : Fin 900) (f : Fin 4) (s : State) :
    exec (.hbmiss t f) s = execHbmiss t f s := rfl
@[simp] theorem exec_preemption (t : Fin 900) (s : State) :
    exec (.preemption t) s = execPreemption t s := rfl
@[simp] theorem exec_matrixEntryStart (t : Fin 900) (s : State) :
    exec (.matrixEntryStart t) s = execMatrixEntryStart t s := rfl
@[simp] theorem exec_barrierPhaseComplete (slot : Fin 256) (ch : Fin 16) (s : State) :
    exec (.barrierPhaseComplete slot ch) s = execBarrierPhaseComplete slot ch s := rfl
@[simp] theorem exec_copy (o : Owner) (q : Fin 2) (s : State) :
    exec (.copy o q) s = execCopy o q s := rfl
@[simp] theorem exec_gather (o : Owner) (q : Fin 2) (s : State) :
    exec (.gather o q) s = execGather o q s := rfl
@[simp] theorem exec_scatter (o : Owner) (q : Fin 2) (s : State) :
    exec (.scatter o q) s = execScatter o q s := rfl
@[simp] theorem exec_fill (o : Owner) (q : Fin 2) (s : State) :
    exec (.fill o q) s = execFill o q s := rfl
@[simp] theorem exec_mcast (o : Owner) (q : Fin 2) (s : State) :
    exec (.mcast o q) s = execMcast o q s := rfl
@[simp] theorem exec_qfence (o : Owner) (q : Fin 2) (s : State) :
    exec (.qfence o q) s = execQfence o q s := rfl
@[simp] theorem exec_reduceAdd (o : Owner) (q : Fin 2) (s : State) :
    exec (.reduceAdd o q) s = execReduceAdd o q s := rfl
@[simp] theorem exec_port (o : Owner) (q : Fin 2) (reply : BitVec 8) (s : State) :
    exec (.port o q reply) s = execPort o q reply s := rfl
@[simp] theorem exec_tlbinv (o : Owner) (q : Fin 2) (s : State) :
    exec (.tlbinv o q) s = execTlbinv o q s := rfl
@[simp] theorem exec_completion (o : Owner) (q : Fin 2) (s : State) :
    exec (.completion o q) s = execCompletion o q s := rfl
@[simp] theorem exec_semaphoreV (o : Owner) (q : Fin 2) (s : State) :
    exec (.semaphoreV o q) s = execSemaphoreV o q s := rfl
@[simp] theorem exec_messageDelivery (id : Nat) (s : State) :
    exec (.messageDelivery id) s = execMessageDelivery id s := rfl
@[simp] theorem exec_holdrel (id : Nat) (s : State) :
    exec (.holdrel id) s = execHoldrel id s := rfl
@[simp] theorem exec_tresume (id : Nat) (s : State) :
    exec (.tresume id) s = execTresume id s := rfl
@[simp] theorem exec_translationWalk (a : Agent) (s : State) :
    exec (.translationWalk a) s = execTranslationWalk a s := rfl
@[simp] theorem exec_launchCheck (u : Fin 4) (ticket : BitVec 32) (s : State) :
    exec (.launchCheck u ticket) s = execLaunchCheck u ticket s := rfl
@[simp] theorem exec_gangBind (u : Fin 4) (ticket : BitVec 32) (slot : Fin 256) (x0 : Fin 30) (y0 : Fin 30) (s : State) :
    exec (.gangBind u ticket slot x0 y0) s = execGangBind u ticket slot x0 y0 s := rfl
@[simp] theorem exec_gangEnd (slot : Fin 256) (s : State) :
    exec (.gangEnd slot) s = execGangEnd slot s := rfl
@[simp] theorem exec_dispatchMessage (u : Fin 4) (s : State) :
    exec (.dispatchMessage u) s = execDispatchMessage u s := rfl
@[simp] theorem exec_quantumStart (slot : Fin 256) (s : State) :
    exec (.quantumStart slot) s = execQuantumStart slot s := rfl
@[simp] theorem exec_taskDecrement (u : Fin 4) (s : State) :
    exec (.taskDecrement u) s = execTaskDecrement u s := rfl
@[simp] theorem exec_roundBoundary (p : Fin 64) (s : State) :
    exec (.roundBoundary p) s = execRoundBoundary p s := rfl
@[simp] theorem exec_cairnSteal (p : Fin 64) (s : State) :
    exec (.cairnSteal p) s = execCairnSteal p s := rfl
@[simp] theorem exec_kernelCrash (cause : BitVec 8) (s : State) :
    exec (.kernelCrash cause) s = execKernelCrash cause s := rfl
@[simp] theorem exec_liveUpdate (signatureOk : Bool) (level : BitVec 16) (s : State) :
    exec (.liveUpdate signatureOk level) s = execLiveUpdate signatureOk level s := rfl
@[simp] theorem exec_signetAlarm (cause : AlarmCause) (agent : BitVec 16) (s : State) :
    exec (.signetAlarm cause agent) s = execSignetAlarm cause agent s := rfl
@[simp] theorem exec_coldStart (bad : List (Nat × Nat)) (routersOk : Bool) (s : State) :
    exec (.coldStart bad routersOk) s = execColdStart bad routersOk s := rfl
@[simp] theorem exec_clockStep (mhz : BitVec 16) (s : State) :
    exec (.clockStep mhz) s = execClockStep mhz s := rfl
@[simp] theorem exec_rtail (v : BitVec 16) (s : State) :
    exec (.rtail v) s = execRtail v s := rfl
@[simp] theorem exec_rfix (v : BitVec 64) (s : State) :
    exec (.rfix v) s = execRfix v s := rfl
@[simp] theorem exec_registerWrite (off : BitVec 16) (v : BitVec 64) (s : State) :
    exec (.registerWrite off v) s = execRegisterWrite off v s := rfl
@[simp] theorem exec_bar2Access (addr : BitVec 64) (n : Nat) (write : Option (BitVec 512)) (s : State) :
    exec (.bar2Access addr n write) s = execBar2Access addr n write s := rfl
@[simp] theorem exec_packetReceive (port : Fin 12) (p : Packet) (s : State) :
    exec (.packetReceive port p) s = execPacketReceive port p s := rfl
@[simp] theorem exec_lsGapTimeout (port : Fin 12) (ids : List Nat) (s : State) :
    exec (.lsGapTimeout port ids) s = execLsGapTimeout port ids s := rfl
@[simp] theorem exec_linkFailure (port : Fin 12) (lanesLeft : Nat) (s : State) :
    exec (.linkFailure port lanesLeft) s = execLinkFailure port lanesLeft s := rfl
@[simp] theorem exec_routingEntryWrite (port : Fin 12) (dest : BitVec 13) (v : BitVec 32) (s : State) :
    exec (.routingEntryWrite port dest v) s = execRoutingEntryWrite port dest v s := rfl
@[simp] theorem exec_keyEntryWrite (port : Fin 12) (ingress : Bool) (im : Fin 64) (v : BitVec 32) (s : State) :
    exec (.keyEntryWrite port ingress im v) s = execKeyEntryWrite port ingress im v s := rfl
@[simp] theorem exec_domainTableWrite (n : BitVec 8) (v : BitVec 64) (s : State) :
    exec (.domainTableWrite n v) s = execDomainTableWrite n v s := rfl
@[simp] theorem exec_codewin (addr : BitVec 64) (s : State) :
    exec (.codewin addr) s = execCodewin addr s := rfl
@[simp] theorem exec_tsupixUnassignedOpcode (op : BitVec 8) (s : State) :
    exec (.tsupixUnassignedOpcode op) s = execTsupixUnassignedOpcode op s := rfl
@[simp] theorem exec_mboxinUnknownCommand (cmd : BitVec 8) (s : State) :
    exec (.mboxinUnknownCommand cmd) s = execMboxinUnknownCommand cmd s := rfl
@[simp] theorem exec_crcBurst (port : Fin 12) (lane : Fin 8) (s : State) :
    exec (.crcBurst port lane) s = execCrcBurst port lane s := rfl
@[simp] theorem exec_portRecovery (port : Fin 12) (s : State) :
    exec (.portRecovery port) s = execPortRecovery port s := rfl
@[simp] theorem exec_runoff (s : State) :
    exec (.runoff) s = execRunoff s := rfl
@[simp] theorem exec_kret (s : State) :
    exec (.kret) s = execKret s := rfl
@[simp] theorem exec_uiret (s : State) :
    exec (.uiret) s = execUiret s := rfl
@[simp] theorem exec_halt (s : State) :
    exec (.halt) s = execHalt s := rfl
@[simp] theorem exec_wfi (s : State) :
    exec (.wfi) s = execWfi s := rfl
@[simp] theorem exec_fwcallFirmwareLevel (s : State) :
    exec (.fwcallFirmwareLevel) s = execFwcallFirmwareLevel s := rfl
@[simp] theorem exec_fwcallRegionTeardown (s : State) :
    exec (.fwcallRegionTeardown) s = execFwcallRegionTeardown s := rfl
@[simp] theorem exec_fwcallFaultDomainTeardown (s : State) :
    exec (.fwcallFaultDomainTeardown) s = execFwcallFaultDomainTeardown s := rfl
@[simp] theorem exec_fwcallPanic (s : State) :
    exec (.fwcallPanic) s = execFwcallPanic s := rfl
@[simp] theorem exec_fwcallThaw (s : State) :
    exec (.fwcallThaw) s = execFwcallThaw s := rfl
@[simp] theorem exec_fwcallRegisterNoticeContext (s : State) :
    exec (.fwcallRegisterNoticeContext) s = execFwcallRegisterNoticeContext s := rfl
@[simp] theorem exec_fwcallSetReceiveWindow (s : State) :
    exec (.fwcallSetReceiveWindow) s = execFwcallSetReceiveWindow s := rfl
@[simp] theorem exec_fwcallReadDomainEntry (s : State) :
    exec (.fwcallReadDomainEntry) s = execFwcallReadDomainEntry s := rfl
@[simp] theorem exec_future (s : State) :
    exec (.future) s = execFuture s := rfl
@[simp] theorem exec_beadEnd (s : State) :
    exec (.beadEnd) s = execBeadEnd s := rfl
@[simp] theorem exec_hbeat (s : State) :
    exec (.hbeat) s = execHbeat s := rfl
@[simp] theorem exec_mmSwap (s : State) :
    exec (.mmSwap) s = execMmSwap s := rfl
@[simp] theorem exec_mmWait (s : State) :
    exec (.mmWait) s = execMmWait s := rfl
@[simp] theorem exec_mmSave (s : State) :
    exec (.mmSave) s = execMmSave s := rfl
@[simp] theorem exec_mmRest (s : State) :
    exec (.mmRest) s = execMmRest s := rfl
@[simp] theorem exec_mmSync (s : State) :
    exec (.mmSync) s = execMmSync s := rfl
@[simp] theorem exec_mboxWait (s : State) :
    exec (.mboxWait) s = execMboxWait s := rfl
@[simp] theorem exec_gangExit (s : State) :
    exec (.gangExit) s = execGangExit s := rfl
@[simp] theorem exec_tsupixNop (s : State) :
    exec (.tsupixNop) s = execTsupixNop s := rfl
@[simp] theorem exec_tsupixPoptry (s : State) :
    exec (.tsupixPoptry) s = execTsupixPoptry s := rfl
@[simp] theorem exec_freeze (s : State) :
    exec (.freeze) s = execFreeze s := rfl
@[simp] theorem exec_thaw (s : State) :
    exec (.thaw) s = execThaw s := rfl
@[simp] theorem exec_faultRecordReoffer (s : State) :
    exec (.faultRecordReoffer) s = execFaultRecordReoffer s := rfl
@[simp] theorem exec_takeover (s : State) :
    exec (.takeover) s = execTakeover s := rfl
@[simp] theorem exec_levels (s : State) :
    exec (.levels) s = execLevels s := rfl
@[simp] theorem exec_status (s : State) :
    exec (.status) s = execStatus s := rfl
@[simp] theorem exec_alarmlog (s : State) :
    exec (.alarmlog) s = execAlarmlog s := rfl
@[simp] theorem exec_crash (s : State) :
    exec (.crash) s = execCrash s := rfl
@[simp] theorem exec_dibread (s : State) :
    exec (.dibread) s = execDibread s := rfl
@[simp] theorem exec_mboxoutRead (s : State) :
    exec (.mboxoutRead) s = execMboxoutRead s := rfl
@[simp] theorem exec_kernelCrashNotice (s : State) :
    exec (.kernelCrashNotice) s = execKernelCrashNotice s := rfl
@[simp] theorem exec_signetAlarmNotice (s : State) :
    exec (.signetAlarmNotice) s = execSignetAlarmNotice s := rfl
@[simp] theorem exec_mapfail (s : State) :
    exec (.mapfail) s = execMapfail s := rfl
@[simp] theorem exec_bringUpComplete (s : State) :
    exec (.bringUpComplete) s = execBringUpComplete s := rfl
@[simp] theorem exec_frozenNotice (s : State) :
    exec (.frozenNotice) s = execFrozenNotice s := rfl
@[simp] theorem exec_ringHostToDevice (s : State) :
    exec (.ringHostToDevice) s = execRingHostToDevice s := rfl
@[simp] theorem exec_ringDeviceToHost (s : State) :
    exec (.ringDeviceToHost) s = execRingDeviceToHost s := rfl
@[simp] theorem exec_ringMessage (s : State) :
    exec (.ringMessage) s = execRingMessage s := rfl
@[simp] theorem exec_illegal (s : State) :
    exec (.illegal) s = execIllegal s := rfl
@[simp] theorem exec_warmReboot (s : State) :
    exec (.warmReboot) s = execWarmReboot s := rfl

end Sys2Proof.Machine
end

