-- ==== Sys2Proof/Laws/Outcomes.lean ====
section
/-! SUPPORT. What the shared operations come to in the terms of the claims: an instruction that writes a register, goes on, parks
or traps. -/

namespace Sys2Proof.Safety

open Sys2Proof.Machine

theorem completes_of {i : Instr} {s t : State} {p : State → Prop} (e : exec i s = .next t) (h : p t) : Completes i s p :=
  ⟨t, e, h⟩

/-- Changing the context in issue changes nothing else. -/
theorem onlyIssuer_mod (s : State) (f : Ctx → Ctx) : OnlyIssuer s (s.mod f) :=
  ⟨rfl, fun _ h => State.ctx_modCtx_other _ _ h⟩

/-- Replacing it, too. -/
theorem onlyIssuer_setCtx (s : State) (c : Ctx) : OnlyIssuer s (s.setCtx s.cur c) :=
  ⟨rfl, fun _ h => State.ctx_setCtx_other _ _ h⟩

/-- A written x register and a new pc. -/
theorem setX_pc (c : Ctx) (d : BitVec 5) (v p : Word) :
    { c.setX d v with pc := p } = { c with x := (c.setX d v).x, pc := p } := by
  unfold Ctx.setX; split <;> rfl

theorem setX_keeps_pc (c : Ctx) (d : BitVec 5) (v : Word) : (c.setX d v).pc = c.pc := by
  unfold Ctx.setX; split <;> rfl

/-- An instruction that ends in setXRetire writes its register (R91). -/
theorem writesX_of {i : Instr} {s : State} {d : BitVec 5} {v : Word} (hr : s.latch.rep = none)
    (e : exec i s = .next (s.setXRetire d v)) : WritesX i s d v := by
  have hc : (s.setXRetire d v).c = { s.c with x := (s.c.setX d v).x, pc := follows s } := by
    rw [State.setXRetire, State.c_mod, Ctx.retire, hr]
    dsimp only
    rw [setX_keeps_pc]
    exact setX_pc _ _ _ _
  refine ⟨_, e, onlyIssuer_mod s _, ?_, by rw [hc]⟩
  intro r
  rw [hc]
  exact Ctx.getX_setX s.c d r v

/-- An instruction that ends in retire goes on in line. -/
theorem goesOn_of {i : Instr} {s : State} (hr : s.latch.rep = none) (e : exec i s = .next s.retire) : GoesTo i s (follows s) :=
  ⟨_, e, onlyIssuer_mod s _, by rw [State.retire, State.c_mod, Ctx.retire, hr]; rfl⟩

/-- One that changes the pc goes there. -/
theorem goesTo_of {i : Instr} {s : State} {pc : Word} (e : exec i s = .next (s.mod fun c => { c with pc := pc })) :
    GoesTo i s pc := ⟨_, e, onlyIssuer_mod s _, State.c_mod _ _⟩

/-- One that ends in park parks. -/
theorem parks_of {i : Instr} {s : State} {why : Park} (e : exec i s = .next (s.park why)) : Parks i s why :=
  ⟨_, e, onlyIssuer_mod s _, State.c_mod _ _⟩

/-- A precise fault outside a handler, or of a crest core: the entry, and repidx 0 (R93, R171). -/
theorem trap_eq {s : State} (code : Nat) (info : Word) (hk : s.c.kt = false ∨ isCrest s.cur = true) (hr : s.latch.rep = none) :
    s.trap code info = (s.enterKernel s.cur (vectorOf code) (ecauseOf 0 code false none) info s.c.resume).modCtx s.cur
      fun c => { c with repidx := 0 } := by
  have h : ((s.ctx s.cur).kt && !isCrest s.cur) = false := by
    rcases hk with h | h
    · have : (s.ctx s.cur).kt = false := h
      simp [this]
    · simp [h]
  simp [State.trap, State.trapAt, hr, h, State.c]

/-- The cause of a precise fault is its code (R167). -/
theorem ecauseOf_precise (code : Nat) : ecauseOf 0 code false none = toWord code := by simp [ecauseOf]

/-- The vector of a fault (R170). -/
theorem vectorOf_eq (code : Nat) : vectorOf code = if code = 2 ∨ code = 3 then 0x40 else 0 := by
  by_cases h2 : code = 2
  · subst h2; rfl
  · by_cases h3 : code = 3
    · subst h3; rfl
    · simp [vectorOf, Code.future, Code.feature, h2, h3]

/-- A fault of a crest context enters the kernel there (R171). -/
theorem entersCrest_of {i : Instr} {s : State} {k : Fin 32} {j : Fin 2} {code : Nat} {info : Word} (hc : s.cur = .crest k j)
    (hr : s.latch.rep = none) (e : exec i s = .next (s.trap code info)) :
    EntersCrest i s (if code = 2 ∨ code = 3 then 0x40 else 0) (toWord code) info := by
  rw [trap_eq code info (.inr (by rw [hc]; rfl)) hr, ecauseOf_precise, vectorOf_eq] at e
  generalize (if code = 2 ∨ code = 3 then 0x40 else 0) = vector at e ⊢
  rw [hc, State.enterKernel_crest, ← hc] at e
  have hcc : s.ctx s.cur = s.c := rfl
  rw [hcc] at e
  generalize hV : ({ s.c.entered s.c.kt vector (toWord code) info s.c.resume with bytecode := false } : Ctx) = v at e
  obtain ⟨u, hU⟩ : ∃ u, u = (s.setCtx s.cur v).modCtx s.cur fun c => { c with repidx := 0 } := ⟨_, rfl⟩
  rw [← hU] at e
  have huc : u.c = { v with repidx := 0 } := by
    rw [hU]; show State.ctx _ _ = _
    rw [show ((s.setCtx s.cur v).modCtx s.cur fun c => { c with repidx := 0 }).cur = s.cur from rfl,
      State.ctx_modCtx_same, State.ctx_setCtx_same]
  have hst : u.c.estat = estatOf s.c.pe s.c.msv (vector = 0x40) s.c.kt s.c.uih false s.c.kernel true := by rw [huc, ← hV]; rfl
  refine ⟨u, e, ⟨by rw [hU]; rfl, fun a ha => ?_⟩, ?_, ?_, ?_, ?_, ?_, ?_, ?_⟩
  · rw [hU, State.ctx_modCtx_other _ _ ha, State.ctx_setCtx_other _ _ ha]
  all_goals first
    | (simp only [Ctx.kernel, Ctx.pprv, Ctx.uih, Ctx.puih, Ctx.kt, Ctx.emu]; rw [hst]; simp [Ctx.kernel, Ctx.uih, Ctx.kt])
    | (rw [huc, ← hV]; rfl)

/-- A context as an entry on a facet leaves it: its own fields apart from the banks. -/
theorem entered_fields (c : Ctx) (b : Vector Word 8) (vector : Nat) (cause info epc : Word) :
    { (c.entered true vector cause info epc).setBank b with repidx := 0 } = { c with
      x := ((c.entered true vector cause info epc).setBank b).x
      estat := ((c.entered true vector cause info epc).setBank b).estat
      epc := epc, ecause := cause, einfo := info, repidx := 0, pc := (c.tvec &&& ~~~0xFF) + toWord vector } := by
  unfold Ctx.setBank Ctx.entered; rfl

/-- Its status (R168, R171). -/
theorem entered_status (c : Ctx) (b : Vector Word 8) (vector : Nat) (cause info epc : Word) :
    ((c.entered true vector cause info epc).setBank b).estat =
      estatOf c.pe c.msv (vector = 0x40) true c.uih false c.kernel true := by
  unfold Ctx.setBank Ctx.entered; rfl

/-- And its registers: the kernel bank with the cause (R171). -/
theorem entered_bank (c : Ctx) (vector : Nat) (cause info epc : Word) (record : Nat) :
    let v := (c.entered true vector cause info epc).setBank (c.entryBank cause info epc record)
    v.xn 24 = cause ∧ v.xn 25 = info ∧ v.xn 26 = epc ∧ v.xn 27 = toWord record ∧
      (∀ j : Fin 4, v.xn (28 + j.val) = c.kbank[4 + j.val]) ∧ ∀ r, r < 24 → v.xn r = c.xn r := by
  refine ⟨?_, ?_, ?_, ?_, fun j => ?_, fun r hr => ?_⟩
  · exact (Ctx.xn_setBank_hi _ _ (j := 0) (by omega)).trans (by simp [Ctx.entryBank])
  · exact (Ctx.xn_setBank_hi _ _ (j := 1) (by omega)).trans (by simp [Ctx.entryBank])
  · exact (Ctx.xn_setBank_hi _ _ (j := 2) (by omega)).trans (by simp [Ctx.entryBank])
  · exact (Ctx.xn_setBank_hi _ _ (j := 3) (by omega)).trans (by simp [Ctx.entryBank])
  · rw [show 28 + j.val = 24 + (4 + j.val) by omega]
    refine (Ctx.xn_setBank_hi _ _ (j := 4 + j.val) (by omega)).trans ?_
    simp only [Ctx.entryBank, Vector.getElem_ofFn]
    rw [if_neg (by omega), if_neg (by omega), if_neg (by omega), if_neg (by omega)]
  · exact Ctx.xn_setBank_lo _ _ hr

/-- Writing a bank writes memory and nothing else. -/
theorem writeBank_frame (s : State) (t off : Nat) (b : Vector Word 8) :
    s.writeBank t off b = { s with mem := (s.writeBank t off b).mem } := rfl

theorem writeBank_ctx (s : State) (t off : Nat) (b : Vector Word 8) (a : Agent) : (s.writeBank t off b).ctx a = s.ctx a := rfl

/-- The contexts and the rest of the state after an entry, for any context. -/
theorem entry_c (w : State) (a : Agent) (v : Ctx) (h : w.cur = a) :
    ((w.setCtx a v).modCtx a fun c => { c with repidx := 0 }).c = { v with repidx := 0 } := by
  show State.ctx _ _ = _
  rw [show ((w.setCtx a v).modCtx a fun c => { c with repidx := 0 }).cur = w.cur from rfl, h, State.ctx_modCtx_same,
    State.ctx_setCtx_same]

theorem entry_other (w : State) (a b : Agent) (v : Ctx) (h : b ≠ a) :
    ((w.setCtx a v).modCtx a fun c => { c with repidx := 0 }).ctx b = w.ctx b := by
  rw [State.ctx_modCtx_other _ _ h, State.ctx_setCtx_other _ _ h]

theorem entry_frame (s w : State) (a : Agent) (v : Ctx) (hw : w = { s with mem := w.mem }) :
    ∃ x, ((w.setCtx a v).modCtx a fun c => { c with repidx := 0 }) = { s with ctxs := x, mem := w.mem } := by
  rw [hw]; exact ⟨_, rfl⟩

/-- A fault of a facet context outside a handler enters the kernel there (R171). -/
theorem entersFacet_of {i : Instr} {s : State} {t : Fin 900} {f : Fin 4} {k : Fin 11} {vector : Nat} {cause info : Word}
    (hc : s.cur = .facet t f k) (hk : s.c.kt = false)
    (e : exec i s = .next ((s.enterKernel s.cur vector cause info s.c.resume).modCtx s.cur fun c => { c with repidx := 0 })) :
    EntersFacet i s t f k vector cause info := by
  have hcc : s.ctx (.facet t f k) = s.c := by rw [State.c, hc]
  rw [hc, State.enterKernel_facet _ _ _ _ _ _ _ _ (by rw [hcc]; exact hk)] at e
  rw [hcc] at e
  generalize hr : recordOffset f.val k.val = r at e
  generalize hV : (s.c.entered true vector cause info s.c.resume).setBank (s.c.entryBank cause info s.c.resume r) = v at e
  generalize hW : s.writeBank t.val (bankSlot r s.c.uih) s.c.bank = w at e
  have hwc : ∀ a, w.ctx a = s.ctx a := by intro a; rw [← hW]; exact writeBank_ctx _ _ _ _ _
  have hw : w = { s with mem := w.mem } := by
    have := writeBank_frame s t.val (bankSlot r s.c.uih) s.c.bank
    rw [hW] at this; exact this
  have huc := entry_c w (.facet t f k) v (by rw [hw]; exact hc)
  have hoth := fun a ha => (entry_other w (.facet t f k) a v ha).trans (hwc a)
  have hfr := entry_frame s w (.facet t f k) v hw
  generalize ((w.setCtx (.facet t f k) v).modCtx (.facet t f k) fun c => { c with repidx := 0 }) = u at e huc hoth hfr
  obtain ⟨x, hx⟩ := hfr
  have hm : u.mem = w.mem := by rw [hx]
  obtain ⟨b1, b2, b3, b4, b5, b6⟩ := entered_bank s.c vector cause info s.c.resume r
  rw [hV] at b1 b2 b3 b4 b5 b6
  have hst := entered_status s.c (s.c.entryBank cause info s.c.resume r) vector cause info s.c.resume
  have hfl := entered_fields s.c (s.c.entryBank cause info s.c.resume r) vector cause info s.c.resume
  rw [hV] at hst hfl
  have hxv : ∀ r, u.c.xn r = v.xn r := by intro r; rw [huc]; rfl
  have hxx : u.c.x = v.x := by rw [huc]
  have hes : u.c.estat = v.estat := by rw [huc]
  simp only [← hxv] at b1 b2 b3 b4 b5 b6
  rw [← huc, ← hxx, ← hes] at hfl
  rw [← hes] at hst
  refine ⟨u, e, ?_⟩
  unfold saveSlot
  rw [hr]
  refine ⟨⟨by rw [hm]; exact hx.trans (by rw [hx]), fun a ha => hoth a (by rw [← hc]; exact ha), fun l hl => ?_⟩,
    fun j hj => ?_, b1, b2, b3, b4, b5, b6, ?_, ?_, ?_, ?_, ?_, ?_, ?_, ?_, hfl⟩
  · rw [hm, ← hW]; exact State.writeBank_byte _ _ _ _ hl
  · rw [hm, ← hW, ← Ctx.bank_get _ hj]; exact State.writeBank_read _ _ _ _ hj
  all_goals
    simp only [Ctx.kernel, Ctx.pprv, Ctx.uih, Ctx.puih, Ctx.kt, Ctx.emu, Ctx.pe, Ctx.msv]
    rw [hst]
    simp [Ctx.kernel, Ctx.uih, Ctx.pe, Ctx.msv]

/-- What ends in trap takes the precise fault (R91, R171). -/
theorem traps_of {i : Instr} {s : State} {code : Nat} {info : Word} (hr : s.latch.rep = none)
    (e : exec i s = .next (s.trap code info)) : Traps i s code info := by
  refine ⟨fun t f k hc hk => ?_, fun k j hc => entersCrest_of hc hr e⟩
  rw [trap_eq code info (.inl hk) hr, ecauseOf_precise, vectorOf_eq] at e
  exact entersFacet_of hc hk e

end Sys2Proof.Safety
end

