-- ==== Sys2Proof/Laws/Operations.lean ====
section
/-! SUPPORT. What the checks that the instructions share let through, and what an access does at its home. -/

namespace Sys2Proof.Safety

open Sys2Proof.Machine

/-! ### The checks before an effect (R51, R91, R119) -/

theorem allPerformed_iff (s : State) (a : Agent) : s.allPerformed a = true ↔ NothingOpen s a := by
  simp only [State.allPerformed, NothingOpen, Bool.and_eq_true, Bool.not_eq_true', List.any_eq_false, decide_eq_true_eq,
    List.mem_flatten, Vector.mem_toList_iff]
  constructor
  · rintro ⟨⟨h1, h2⟩, h3⟩
    exact ⟨h1, h2, fun u x hx => h3 x ⟨_, Vector.getElem_mem _, hx⟩⟩
  · rintro ⟨h1, h2, h3⟩
    refine ⟨⟨h1, h2⟩, ?_⟩
    rintro x ⟨l, hl, hx⟩
    obtain ⟨i, hi, rfl⟩ := Vector.mem_iff_getElem.mp hl
    exact h3 ⟨i, hi⟩ x hx

/-- A release goes on once everything of its context is performed. -/
theorem afterRelease_done {s : State} (k : State → State) (h : Releases s) : s.afterRelease k = k s := by
  have e : (s.ctx s.cur).late = [] := h.2
  simp [State.afterRelease, (allPerformed_iff s s.cur).mpr h.1, State.dueLate, e]

/-- A late fault that has come by then is taken before it. -/
theorem afterRelease_late {s : State} {l : LateFault} (k : State → State) (h : NothingOpen s s.cur)
    (hl : s.c.late.head? = some l) : s.afterRelease k = s.takeFault s.cur l := by
  have e : (s.ctx s.cur).late.head? = some l := hl
  simp [State.afterRelease, (allPerformed_iff s s.cur).mpr h, State.dueLate, e]

/-- And waits until then. -/
theorem afterRelease_waits {s : State} (k : State → State) (h : ¬NothingOpen s s.cur) : s.afterRelease k = s.park .order := by
  rw [State.afterRelease, if_neg fun e => h ((allPerformed_iff s s.cur).mp e)]

theorem needKernel_user {s : State} (k : State → State) (h : s.c.kernel = false) : s.needKernel k = s.trapWord Code.priv := by
  simp [State.needKernel, h]

theorem needKernel_kernel {s : State} (k : State → State) (h : s.c.kernel = true) : s.needKernel k = k s := by
  simp [State.needKernel, h]

theorem needLimits_ok {s : State} {ok : Bool} (k : State → State) (h : ok = true) : s.needLimits ok k = k s := by
  simp [State.needLimits, h]

theorem needLimits_bad {s : State} {ok : Bool} (k : State → State) (h : ok = false) :
    s.needLimits ok k = s.trapWord Code.illegal := by simp [State.needLimits, h]

theorem needAligned_ok {s : State} {va : Word} {n : Nat} (k : State → State) (h : va.toNat % n = 0) :
    s.needAligned va n k = k s := by simp [State.needAligned, h]

theorem needAligned_bad {s : State} {va : Word} {n : Nat} (k : State → State) (h : va.toNat % n ≠ 0) :
    s.needAligned va n k = s.trap Code.align va := by simp [State.needAligned, h]

/-- The firmware is called from a crest core at kernel privilege (R173). -/
theorem onFirmware_calls {s : State} {k : Fin 32} {c : Fin 2} (f : State → State) (h : Calls s k c) : s.onFirmware f = f s := by
  obtain ⟨hc, hk, -⟩ := h
  have : fmaskOf s.cur / 2 ^ 12 % 2 = 1 := by rw [hc]; simp [fmaskOf, isCrest]
  rw [State.onFirmware, State.needFeature, if_pos this, needKernel_kernel _ hk]

/-- On a facet it traps FEATURE. -/
theorem onFirmware_facet {s : State} (f : State → State) (h : isCrest s.cur = false) :
    s.onFirmware f = s.trapWord Code.feature := by
  have : ¬fmaskOf s.cur / 2 ^ 12 % 2 = 1 := by simp [fmaskOf, h]
  rw [State.onFirmware, State.needFeature, if_neg this]

/-! ### An access at its home (R24, R43, R126) -/

theorem takeSoftError_none {s : State} (l n : Nat) (h : s.softErrors = []) : s.takeSoftError l n = (s, false) := by
  simp [State.takeSoftError, h]

theorem performAt_load {s : State} (l n v : Nat) (h : s.softErrors = []) :
    s.performAt .load l n v = (s, .ok (s.mem.read l n)) := by
  simp only [State.performAt, takeSoftError_none l n h]

theorem performAt_store {s : State} (l n v : Nat) (h : s.softErrors = []) :
    s.performAt .store l n v = ({ s with mem := s.mem.write l n v }, .ok 0) := by
  simp only [State.performAt, takeSoftError_none l n h, State.poke]

/-- An atomic gives the old value, and stores the new one where there is one. -/
theorem performAt_amo {s : State} (op : Amo) (cmp l n v : Nat) (h : s.softErrors = []) :
    s.performAt (.amo op cmp) l n v =
      (match amoNew op n (s.mem.read l n) v cmp with
       | some w => { s with mem := s.mem.write l n w }
       | none => s, .ok (s.mem.read l n)) := by
  simp only [State.performAt, takeSoftError_none l n h, State.poke]
  cases amoNew op n (s.mem.read l n) v cmp <;> rfl

/-- HBM has no windows. -/
theorem arrive_hbm {s : State} (src : Option Nat) (kind : AccKind) {l : Nat} (n v : Nat) (h : l < 2 ^ 40) :
    s.arrive src kind l n v = s.performAt kind l n v := by
  have e : decide (2 ^ 40 ≤ l) = false := decide_eq_false (Nat.not_le.mpr h)
  simp only [State.arrive, e, Bool.false_and, Bool.false_eq_true, if_false]

/-! ### An access by its agent (R43, R365) -/

/-- What is known to be dirty is all that noting a store changes. -/
theorem noteDirty_only (s t : State) (core loc n : Nat) :
    s.noteDirty t core loc n = { t with dirty := (s.noteDirty t core loc n).dirty } := by
  unfold State.noteDirty; split <;> rfl

/-- A facet's access leaves nothing dirty. -/
theorem performBy_facet {s : State} {t : Fin 900} {f : Fin 4} {k : Fin 11} (direct : Bool) (kind : AccKind) (l n v : Nat) :
    s.performBy (.facet t f k) direct kind l n v =
      if direct then s.performAt kind l n v else s.arrive (some t.val) kind l n v := rfl

/-- An access answers what its home does, and leaves the state as its home leaves it but for what is known to be dirty. -/
theorem performBy_home (s : State) (a : Agent) (direct : Bool) (kind : AccKind) (l n v : Nat) :
    let r := if direct then s.performAt kind l n v else s.arrive (tileNo a) kind l n v
    (s.performBy a direct kind l n v).2 = r.2 ∧
      (s.performBy a direct kind l n v).1 = { r.1 with dirty := (s.performBy a direct kind l n v).1.dirty } := by
  intro r
  change (match a, kind, r.2 with
    | .crest k _, .store, .ok _ => (s.noteDirty r.1 k.val l n, r.2)
    | _, _, _ => r).2 = _ ∧ (match a, kind, r.2 with
    | .crest k _, .store, .ok _ => (s.noteDirty r.1 k.val l n, r.2)
    | _, _, _ => r).1 = { r.1 with dirty := (match a, kind, r.2 with
    | .crest k _, .store, .ok _ => (s.noteDirty r.1 k.val l n, r.2)
    | _, _, _ => r).1.dirty }
  generalize r = r
  split
  · exact ⟨rfl, noteDirty_only ..⟩
  · exact ⟨rfl, rfl⟩

/-! ### Whole replies (R374, R385) -/

theorem onCommand_requested {s : State} {command : Nat} (value : State → Nat) (h : Requests s command) :
    s.onCommand command value = s.reply command (value s) := by
  obtain ⟨h1, h2, h3, h4⟩ := h
  simp [State.onCommand, Mgmt.mayReply, Mgmt.command, h1, h2, h3, h4]

theorem repliesTo_of {i : Instr} {s : State} {command value : Nat} (hv : value < 2 ^ 48)
    (e : exec i s = .next (s.reply command value)) : RepliesTo i s command value := by
  refine ⟨_, e, ?_⟩
  simp only [State.reply, State.modMgmt, State.writeOut]
  rw [Nat.mod_eq_of_lt hv]

end Sys2Proof.Safety
end

