-- ==== Sys2Proof/Tests/Slice0.lean ====
section
/-! SUPPORT. Tests: words written out from the spec's encodings and what they decode to, ill-formed instructions that the
well-formedness check refuses, single steps, and for every statement states that meet its hypotheses. -/

namespace Sys2Proof.Tests

set_option Elab.async false

open Sys2Proof.Machine Sys2Proof.Safety

/-! ### Small states -/

/-- Context 3 of facet 1 of tile 5. -/
abbrev fa : Agent := .facet 5 1 3

/-- The control context of that facet. -/
abbrev f0 : Agent := .facet 5 1 0

/-- Context 1 of crest core 2. -/
abbrev cr : Agent := .crest 2 1

/-- A context at user privilege at 0x1000, its code window from 0 to 0x3C_0000. -/
def user : Ctx := { Ctx.initial with run := .ready, pc := 0x1000, cwin := 0x003C_0000_0000_0000 }

/-- The same at kernel privilege. -/
def kern : Ctx := { user with estat := 1 }

/-- The reset state with one context as given, in issue. -/
def issuing (a : Agent) (c : Ctx) : State := { State.reset.setCtx a c with cur := a }

/-- The context with some x registers as listed. -/
def regs (l : List (Nat × Word)) (c : Ctx) : Ctx := l.foldl (fun c p => c.setXn p.1 p.2) c

/-- The state with n bytes of memory at a location as given. -/
def stored (s : State) (l n v : Nat) : State := { s with mem := s.mem.write l n v }

/-! ### Words from the encodings of the spec, and what they decode to -/

theorem test_decode_major00 :
    decode 0b000000_0000100000_1000000000000001 = .trap 32769 ∧
    decode 0b000000_00010000000000000000000000 = .kret ∧
    decode 0b000000_00011000000000000000000000 = .uiret ∧
    decode 0b000000_00100000000000000000000000 = .halt ∧
    decode 0b000000_00101000000000000000000000 = .wfi ∧
    decode 0b000000_00110000000000000000000000 = .fwcallFirmwareLevel ∧
    decode 0b000000_00110000000000000000000001 = .fwcallRegionTeardown ∧
    decode 0b000000_00110000000000000000000010 = .fwcallFaultDomainTeardown ∧
    decode 0b000000_00110000000000000000010000 = .fwcallPanic ∧
    decode 0b000000_00110000000000000000010001 = .fwcallThaw ∧
    decode 0b000000_00110000000000000000100000 = .fwcallRegisterNoticeContext ∧
    decode 0b000000_00110000000000000000110000 = .fwcallSetReceiveWindow ∧
    decode 0b000000_00110000000000000001000000 = .fwcallReadDomainEntry := by
  decide +kernel

theorem test_decode_hints :
    decode 0b1110_10_00000000000000000000000001 = .nop 134217729 := by
  decide +kernel

theorem test_decode_major3F :
    decode 0b111111_10000000000000000000000001 = .long 33554433 := by
  decide +kernel

theorem test_decode_major3E :
    decode 0b111110_100001_110_111_100_00000000000 = .rep 33 6 7 4 := by
  decide +kernel

theorem test_decode_major01 :
    decode 0b000001_10001_10010_10011_00000000000 = .add 17 18 19 ∧
    decode 0b000001_10001_10010_10011_00000000001 = .sub 17 18 19 ∧
    decode 0b000001_10001_10010_10011_00000000010 = .and 17 18 19 ∧
    decode 0b000001_10001_10010_10011_00000000011 = .or 17 18 19 ∧
    decode 0b000001_10001_10010_10011_00000000100 = .xor 17 18 19 ∧
    decode 0b000001_10001_10010_10011_00000000101 = .andn 17 18 19 ∧
    decode 0b000001_10001_10010_10011_00000000110 = .orn 17 18 19 ∧
    decode 0b000001_10001_10010_10011_00000001000 = .sll 17 18 19 ∧
    decode 0b000001_10001_10010_10011_00000001001 = .srl 17 18 19 ∧
    decode 0b000001_10001_10010_10011_00000001010 = .sra 17 18 19 ∧
    decode 0b000001_10001_10010_10011_00000001011 = .rol 17 18 19 ∧
    decode 0b000001_10001_10010_10011_00000010000 = .slt 17 18 19 ∧
    decode 0b000001_10001_10010_10011_00000010001 = .sltu 17 18 19 ∧
    decode 0b000001_10001_10010_10011_00000010010 = .min 17 18 19 ∧
    decode 0b000001_10001_10010_10011_00000010011 = .max 17 18 19 ∧
    decode 0b000001_10001_10010_10011_00000010100 = .minu 17 18 19 ∧
    decode 0b000001_10001_10010_10011_00000010101 = .maxu 17 18 19 ∧
    decode 0b000001_10001_10010_10011_000000110_01 = .lea 17 18 19 1 ∧
    decode 0b000001_10001_10010_0000000000100000 = .clz 17 18 ∧
    decode 0b000001_10001_10010_0000000000100001 = .ctz 17 18 ∧
    decode 0b000001_10001_10010_0000000000100010 = .popc 17 18 ∧
    decode 0b000001_10001_10010_0000000000100011 = .bswap 17 18 ∧
    decode 0b000001_10001_10010_0000000000100100 = .sextB 17 18 ∧
    decode 0b000001_10001_10010_0000000000100101 = .sextH 17 18 := by
  decide +kernel

theorem test_decode_major01b :
    decode 0b000001_10001_10010_0000000000100110 = .sextW 17 18 ∧
    decode 0b000001_10001_10010_0000000000100111 = .zextW 17 18 := by
  decide +kernel

theorem test_decode_major02 :
    decode 0b000010_10001_10010_1000000000000011 = .addi 17 18 32771 := by
  decide +kernel

theorem test_decode_major03 :
    decode 0b000011_10001_10010_1000000000000011 = .andi 17 18 32771 := by
  decide +kernel

theorem test_decode_major04 :
    decode 0b000100_10001_10010_1000000000000011 = .ori 17 18 32771 := by
  decide +kernel

theorem test_decode_major05 :
    decode 0b000101_10001_10010_1000000000000011 = .xori 17 18 32771 := by
  decide +kernel

theorem test_decode_major06 :
    decode 0b000110_10001_10010_1000000000000011 = .slti 17 18 32771 := by
  decide +kernel

theorem test_decode_major07 :
    decode 0b000111_10001_10010_1000000000000011 = .sltiu 17 18 32771 := by
  decide +kernel

theorem test_decode_major08 :
    decode 0b001000_10001_10010_1000000000000011 = .lih 17 18 32771 := by
  decide +kernel

theorem test_decode_major09 :
    decode 0b001001_10001_10010_0000000000_100011 = .slli 17 18 35 ∧
    decode 0b001001_10001_10010_0000000100_100011 = .srli 17 18 35 ∧
    decode 0b001001_10001_10010_0000001000_100011 = .srai 17 18 35 ∧
    decode 0b001001_10001_10010_0000001100_100011 = .roli 17 18 35 := by
  decide +kernel

theorem test_decode_major0A :
    decode 0b001010_10001_10010_10011_00000000000 = .mul 17 18 19 ∧
    decode 0b001010_10001_10010_10011_00000000001 = .mulh 17 18 19 ∧
    decode 0b001010_10001_10010_10011_00000000010 = .mulhu 17 18 19 ∧
    decode 0b001010_10001_10010_10011_00000000011 = .mulhsu 17 18 19 ∧
    decode 0b001010_10001_10010_10011_00000000100 = .div 17 18 19 ∧
    decode 0b001010_10001_10010_10011_00000000101 = .divu 17 18 19 ∧
    decode 0b001010_10001_10010_10011_00000000110 = .rem 17 18 19 ∧
    decode 0b001010_10001_10010_10011_00000000111 = .remu 17 18 19 := by
  decide +kernel

theorem test_decode_major0B :
    decode 0b001011_10001_10010_0000_100000000011 = .bEq 17 18 2051 ∧
    decode 0b001011_10001_10010_0001_100000000011 = .bNe 17 18 2051 ∧
    decode 0b001011_10001_10010_0010_100000000011 = .bLt 17 18 2051 ∧
    decode 0b001011_10001_10010_0011_100000000011 = .bGe 17 18 2051 ∧
    decode 0b001011_10001_10010_0100_100000000011 = .bLtu 17 18 2051 ∧
    decode 0b001011_10001_10010_0101_100000000011 = .bGeu 17 18 2051 ∧
    decode 0b001011_10001_10010_1000_100000000011 = .bKany 17 18 2051 ∧
    decode 0b001011_10001_10010_1001_100000000011 = .bKall 17 18 2051 ∧
    decode 0b001011_10001_10010_1010_100000000011 = .bKnone 17 18 2051 := by
  decide +kernel

theorem test_decode_major0D :
    decode 0b001101_10000000000000000000000001 = .j 33554433 := by
  decide +kernel

theorem test_decode_major0E :
    decode 0b001110_10000000000000000000000001 = .jl 33554433 := by
  decide +kernel

theorem test_decode_major0F :
    decode 0b001111_00000_10001_0000000000000000 = .jr 17 ∧
    decode 0b001111_10001_10010_0000000000000001 = .jlr 17 18 := by
  decide +kernel

theorem test_decode_major10 :
    decode 0b010000_10001_10010_111_1000000000100 = .ld 17 18 7 4100 := by
  decide +kernel

theorem test_decode_major11 :
    decode 0b010001_10001_10010_111_1000000000100 = .st 17 18 7 4100 := by
  decide +kernel

theorem test_decode_major12 :
    decode 0b010010_10001_10010_10011_00000000_100 = .ldx 17 18 19 4 ∧
    decode 0b010010_10001_10010_10011_00001000_100 = .stx 17 18 19 4 ∧
    decode 0b010010_10001_10010_0000000010000_111 = .ldAcq 17 18 7 ∧
    decode 0b010010_10001_10010_0000000011000_111 = .stRel 17 18 7 ∧
    decode 0b010010_10001_10010_10011_00100000000 = .raddr 17 18 19 := by
  decide +kernel

theorem test_decode_major13 :
    decode 0b010011_10001_10010_10011_0000_01_1_0000 = .amoAdd 17 18 19 1 1 ∧
    decode 0b010011_10001_10010_10011_0001_01_1_0000 = .amoSwap 17 18 19 1 1 ∧
    decode 0b010011_10001_10010_10011_0010_01_1_0000 = .amoCas 17 18 19 1 1 ∧
    decode 0b010011_10001_10010_10011_0011_01_1_0000 = .amoMin 17 18 19 1 1 ∧
    decode 0b010011_10001_10010_10011_0100_01_1_0000 = .amoMax 17 18 19 1 1 ∧
    decode 0b010011_10001_10010_10011_0101_01_1_0000 = .amoMinu 17 18 19 1 1 ∧
    decode 0b010011_10001_10010_10011_0110_01_1_0000 = .amoMaxu 17 18 19 1 1 ∧
    decode 0b010011_10001_10010_10011_0111_01_1_0000 = .amoAnd 17 18 19 1 1 ∧
    decode 0b010011_10001_10010_10011_1000_01_1_0000 = .amoOr 17 18 19 1 1 ∧
    decode 0b010011_10001_10010_10011_1001_01_1_0000 = .amoXor 17 18 19 1 1 := by
  decide +kernel

theorem test_decode_major14 :
    decode 0b010100_000000000000000000_01_0_10010 = .fenceIssue 1 18 ∧
    decode 0b010100_000000000000000001_01_000000 = .fenceWait 1 ∧
    decode 0b010100_10001_0000000000010_10_000000 = .fenceTest 17 2 := by
  decide +kernel

theorem test_decode_major15 :
    decode 0b010101_0000000000_10001_00000000000 = .mtxLock 17 ∧
    decode 0b010101_10001_00000_10010_00100000000 = .mtxTry 17 18 ∧
    decode 0b010101_0000000000_10001_01000000000 = .mtxUnlock 17 ∧
    decode 0b010101_0000000000_10001_01100000000 = .semP 17 ∧
    decode 0b010101_0000000000_10001_10000000000 = .semV 17 ∧
    decode 0b010101_10001_00000_10010_10100000000 = .semTry 17 18 ∧
    decode 0b010101_10001_00000_10010_11000000000 = .semRd 17 18 := by
  decide +kernel

theorem test_decode_major16 :
    decode 0b010110_10001_10010_10011_00000000000 = .beadStart 17 18 19 ∧
    decode 0b010110_00000000000000000000000001 = .beadEnd ∧
    decode 0b010110_00000_10001_0000000000000010 = .beadWait 17 ∧
    decode 0b010110_10001_000000000000000000011 = .beadLive 17 ∧
    decode 0b010110_00000000000000000000000100 = .hbeat := by
  decide +kernel

theorem test_decode_major17 :
    decode 0b010111_10001_000000000_100000000010 = .srr 17 2050 ∧
    decode 0b010111_10001_10010_0100_100000000011 = .srw 17 18 2051 ∧
    decode 0b010111_10001_10010_1000_100000000011 = .srs 17 18 2051 ∧
    decode 0b010111_10001_10010_1100_100000000011 = .src 17 18 2051 := by
  decide +kernel

theorem test_decode_major18 :
    decode 0b011000_10001_10010_10011_1_101_1_000000 = .fadd 17 18 19 1 5 1 ∧
    decode 0b011000_10001_10010_10011_1_101_1_000001 = .fsub 17 18 19 1 5 1 ∧
    decode 0b011000_10001_10010_10011_1_101_1_000010 = .fmul 17 18 19 1 5 1 ∧
    decode 0b011000_10001_10010_10011_1_101_1_000011 = .fdiv 17 18 19 1 5 1 ∧
    decode 0b011000_10001_10010_00000_1_100_1_000100 = .fsqrt 17 18 1 4 1 ∧
    decode 0b011000_10001_10010_10011_1_101_1_000101 = .fmadd 17 18 19 1 5 1 ∧
    decode 0b011000_10001_10010_10011_0000_1_001000 = .fmin 17 18 19 1 ∧
    decode 0b011000_10001_10010_10011_0000_1_001001 = .fmax 17 18 19 1 ∧
    decode 0b011000_10001_10010_000000000_1_001010 = .fneg 17 18 1 ∧
    decode 0b011000_10001_10010_000000000_1_001011 = .fabs 17 18 1 ∧
    decode 0b011000_10001_10010_10011_0000_1_010000 = .feq 17 18 19 1 ∧
    decode 0b011000_10001_10010_10011_0000_1_010001 = .flt 17 18 19 1 ∧
    decode 0b011000_10001_10010_10011_0000_1_010010 = .fle 17 18 19 1 ∧
    decode 0b011000_10001_10010_000000000_1_010011 = .fclass 17 18 1 := by
  decide +kernel

theorem test_decode_major19 :
    decode 0b011001_10001_10010_1011_1_101_1110_1_000 = .cvt 17 18 11 1 5 14 1 := by
  decide +kernel

theorem test_decode_major1A :
    decode 0b011010_10001_10010_10011_100_1_11_00000 = .vadd 17 18 19 4 1 3 ∧
    decode 0b011010_10001_10010_10011_100_1_11_00001 = .vsub 17 18 19 4 1 3 ∧
    decode 0b011010_10001_10010_10011_100_1_11_00010 = .vmul 17 18 19 4 1 3 ∧
    decode 0b011010_10001_10010_10011_100_1_11_00011 = .vmulh 17 18 19 4 1 3 ∧
    decode 0b011010_10001_10010_10011_100_1_11_00100 = .vand 17 18 19 4 1 3 ∧
    decode 0b011010_10001_10010_10011_100_1_11_00101 = .vor 17 18 19 4 1 3 ∧
    decode 0b011010_10001_10010_10011_100_1_11_00110 = .vxor 17 18 19 4 1 3 ∧
    decode 0b011010_10001_10010_10011_100_1_11_00111 = .vsll 17 18 19 4 1 3 ∧
    decode 0b011010_10001_10010_10011_100_1_11_01000 = .vsrl 17 18 19 4 1 3 ∧
    decode 0b011010_10001_10010_10011_100_1_11_01001 = .vsra 17 18 19 4 1 3 ∧
    decode 0b011010_10001_10010_10011_100_1_11_01010 = .vmin 17 18 19 4 1 3 ∧
    decode 0b011010_10001_10010_10011_100_1_11_01011 = .vmax 17 18 19 4 1 3 ∧
    decode 0b011010_10001_10010_10011_100_1_11_01100 = .vminu 17 18 19 4 1 3 ∧
    decode 0b011010_10001_10010_10011_100_1_11_01101 = .vmaxu 17 18 19 4 1 3 ∧
    decode 0b011010_10001_10010_00000_111_1_10_01110 = .vabs 17 18 7 1 2 ∧
    decode 0b011010_10001_10010_10011_100_0_10_01111 = .vmerge 17 18 19 4 2 ∧
    decode 0b011010_10001_10010_10011_100_1_11_10000 = .vcmpEq 17 18 19 4 1 3 ∧
    decode 0b011010_10001_10010_10011_100_1_11_10001 = .vcmpNe 17 18 19 4 1 3 ∧
    decode 0b011010_10001_10010_10011_100_1_11_10010 = .vcmpLt 17 18 19 4 1 3 ∧
    decode 0b011010_10001_10010_10011_100_1_11_10011 = .vcmpLtu 17 18 19 4 1 3 ∧
    decode 0b011010_10001_10010_10011_100_1_11_10100 = .vcmpLe 17 18 19 4 1 3 ∧
    decode 0b011010_10001_10010_10011_100_1_11_10101 = .vcmpLeu 17 18 19 4 1 3 := by
  decide +kernel

theorem test_decode_major1B :
    decode 0b011011_10001_10010_10011_100_1_11_000_01 = .vfadd 17 18 19 4 1 3 1 ∧
    decode 0b011011_10001_10010_10011_100_1_11_001_01 = .vfsub 17 18 19 4 1 3 1 ∧
    decode 0b011011_10001_10010_10011_100_1_11_010_01 = .vfmul 17 18 19 4 1 3 1 ∧
    decode 0b011011_10001_10010_10011_100_1_11_011_01 = .vfma 17 18 19 4 1 3 1 ∧
    decode 0b011011_10001_10010_10011_100_1_11_100_01 = .vfdiv 17 18 19 4 1 3 1 ∧
    decode 0b011011_10001_10010_00000_111_1_10_101_11 = .vfsqrt 17 18 7 1 2 3 ∧
    decode 0b011011_10001_10010_10011_100_1_11_11000 = .vfmin 17 18 19 4 1 3 ∧
    decode 0b011011_10001_10010_10011_100_1_11_11001 = .vfmax 17 18 19 4 1 3 ∧
    decode 0b011011_10001_10010_00000_111_1_10_11010 = .vfneg 17 18 7 1 2 ∧
    decode 0b011011_10001_10010_00000_111_1_10_11011 = .vfabs 17 18 7 1 2 ∧
    decode 0b011011_10001_10010_10011_100_1_11_11100 = .vfcmpEq 17 18 19 4 1 3 ∧
    decode 0b011011_10001_10010_10011_100_1_11_11101 = .vfcmpLt 17 18 19 4 1 3 ∧
    decode 0b011011_10001_10010_10011_100_1_11_11110 = .vfcmpLe 17 18 19 4 1 3 ∧
    decode 0b011011_10001_10010_10011_100_1_11_11111 = .vfcmpUn 17 18 19 4 1 3 := by
  decide +kernel

theorem test_decode_major1C :
    decode 0b011100_10001_10010_00000_111_1_10_00000 = .vld 17 18 7 1 2 ∧
    decode 0b011100_10001_10010_00000_111_0_01_00001 = .vst 17 18 7 1 ∧
    decode 0b011100_10001_10010_10011_100_1_11_00010 = .vlds 17 18 19 4 1 3 ∧
    decode 0b011100_10001_10010_10011_100_0_10_00011 = .vsts 17 18 19 4 2 ∧
    decode 0b011100_10001_10010_10011_100_1_11_00100 = .vldx 17 18 19 4 1 3 ∧
    decode 0b011100_10001_10010_10011_100_0_10_00101 = .vstx 17 18 19 4 2 ∧
    decode 0b011100_10001_10010_00000_111_1_10_00110 = .vldb 17 18 7 1 2 := by
  decide +kernel

theorem test_decode_major1D :
    decode 0b011101_10001_10010_10011_100_1_11_00000 = .vperm 17 18 19 4 1 3 ∧
    decode 0b011101_10001_10010_10011_100_1_11_00001 = .vslide 17 18 19 4 1 3 ∧
    decode 0b011101_10001_10010_00000_111_1_10_00010 = .vbcast 17 18 7 1 2 ∧
    decode 0b011101_10001_10010_10011_0000_01_00011 = .vext 17 18 19 1 ∧
    decode 0b011101_10001_10010_10011_0000_01_00100 = .vins 17 18 19 1 ∧
    decode 0b011101_10001_0000000000_110_1_01_00101 = .vidx 17 6 1 1 ∧
    decode 0b011101_10001_10010_00000_111_0_01_00110 = .vredAdd 17 18 7 1 ∧
    decode 0b011101_10001_10010_00000_111_0_01_00111 = .vredMin 17 18 7 1 ∧
    decode 0b011101_10001_10010_00000_111_0_01_01000 = .vredMax 17 18 7 1 ∧
    decode 0b011101_10001_10010_00000_111_1_10_01001 = .vscanAdd 17 18 7 1 2 ∧
    decode 0b011101_10001_10010_00000_111_0_01_10000 = .vredFadd 17 18 7 1 ∧
    decode 0b011101_10001_10010_00000_111_0_01_10001 = .vredFmin 17 18 7 1 ∧
    decode 0b011101_10001_10010_00000_111_0_01_10010 = .vredFmax 17 18 7 1 ∧
    decode 0b011101_10001_10010_00000_111_1_10_10011 = .vscanFadd 17 18 7 1 2 := by
  decide +kernel

theorem test_decode_major1E :
    decode 0b011110_10001_10010_10011_00000000000 = .kand 17 18 19 ∧
    decode 0b011110_10001_10010_10011_00000000001 = .kor 17 18 19 ∧
    decode 0b011110_10001_10010_10011_00000000010 = .kxor 17 18 19 ∧
    decode 0b011110_10001_10010_0000000000000011 = .knot 17 18 ∧
    decode 0b011110_10001_10010_0000000000000100 = .kmov 17 18 ∧
    decode 0b011110_10001_10010_0000000000000101 = .kpopc 17 18 ∧
    decode 0b011110_10001_10010_0000000000000110 = .kfirst 17 18 ∧
    decode 0b011110_10001_10010_0000000000000111 = .kset 17 18 := by
  decide +kernel

theorem test_decode_major1F :
    decode 0b011111_10001_10010_1011_1_101_1_0101_100 = .vcvt 17 18 11 1 5 1 5 4 ∧
    decode 0b011111_10001_10010_10011_100_1_1101_1_01 = .vpack 17 18 19 4 1 1 1 ∧
    decode 0b011111_10001_10010_0000_1_100_1_1110_1_01 = .vunpack 17 18 1 4 1 1 1 := by
  decide +kernel

theorem test_decode_major20 :
    decode 0b100000_00000_10001_10010_10000011_000 = .mmLoadw 17 18 131 ∧
    decode 0b100000_00000_10001_10010_10000011_001 = .mmStream 17 18 131 ∧
    decode 0b100000_00000_10001_10010_10000011_010 = .mmDrain 17 18 131 ∧
    decode 0b100000_00000_10001_0000000000000011 = .mmZero 17 ∧
    decode 0b100000_00000000000000000000001011 = .mmSwap ∧
    decode 0b100000_10001_10010_0000000000010011 = .mmRdrow 17 18 ∧
    decode 0b100000_00000000000000000000011011 = .mmWait ∧
    decode 0b100000_00000000000000000000100011 = .mmSave ∧
    decode 0b100000_00000000000000000000101011 = .mmRest ∧
    decode 0b100000_00000000000000000000110011 = .mmSync := by
  decide +kernel

theorem test_decode_major21 :
    decode 0b100001_00000_10001_0000000000000000 = .mmSeq 17 := by
  decide +kernel

theorem test_decode_major22 :
    decode 0b100010_10001_000000000000000000000 = .bzLocate 17 ∧
    decode 0b100010_10001_10010_0000000000000001 = .bzFix 17 18 ∧
    decode 0b100010_10001_000000000000000000010 = .bzRetry 17 ∧
    decode 0b100010_00000_10001_0000000000000011 = .bzClear 17 ∧
    decode 0b100010_00000_10001_10010_00000000100 = .bzInject 17 18 ∧
    decode 0b100010_10001_10010_0000000000000101 = .bzStat 17 18 := by
  decide +kernel

theorem test_decode_major23 :
    decode 0b100011_00000_10001_00000_10000010_000 = .ttLoad 17 130 ∧
    decode 0b100011_000000000000000_10000001_001 = .ttSlice 129 ∧
    decode 0b100011_10001_00000_10010_10000011_010 = .ttRd 17 18 131 ∧
    decode 0b100011_000000000000000_10000001_011 = .ttInval 129 := by
  decide +kernel

theorem test_decode_major24 :
    decode 0b100100_00000_10001_0000000000000000 = .cpyPush 17 ∧
    decode 0b100100_10001_10010_0000000000000001 = .cpyTry 17 18 ∧
    decode 0b100100_00000_10001_0000000000000010 = .cpyQuiesce 17 := by
  decide +kernel

theorem test_decode_major25 :
    decode 0b100101_00000_10001_10010_00000000000 = .msgSend 17 18 ∧
    decode 0b100101_00000_10001_10010_00000000001 = .msgSendRel 17 18 ∧
    decode 0b100101_00000_10001_10010_00000000010 = .msgMcast 17 18 ∧
    decode 0b100101_00000_10001_10010_00000000011 = .msgMcastRel 17 18 := by
  decide +kernel

theorem test_decode_major26 :
    decode 0b100110_00000000000000000000000000 = .mboxWait ∧
    decode 0b100110_10001_000000000000000000001 = .mboxPop 17 ∧
    decode 0b100110_10001_000000000000000000010 = .mboxCnt 17 := by
  decide +kernel

theorem test_decode_major27 :
    decode 0b100111_10001_10010_10011_00000000000 = .tagLook 17 18 19 ∧
    decode 0b100111_00000_10001_10010_00000000001 = .tagSet 17 18 ∧
    decode 0b100111_10001_10010_0000000000000010 = .tagClr 17 18 ∧
    decode 0b100111_10001_10010_0000000000000011 = .tagFlush 17 18 := by
  decide +kernel

theorem test_decode_major28 :
    decode 0b101000_10001_10010_10011_00000000000 = .qPush 17 18 19 ∧
    decode 0b101000_10001_10010_10011_00000000001 = .qTry 17 18 19 ∧
    decode 0b101000_10001_10010_10011_00000000010 = .qDeq 17 18 19 ∧
    decode 0b101000_10001_10010_10011_00000000011 = .qTdeq 17 18 19 ∧
    decode 0b101000_10001_00000_10010_00000000100 = .qStat 17 18 ∧
    decode 0b101000_00000_10001_10010_00000000101 = .qReset 17 18 := by
  decide +kernel

theorem test_decode_major29 :
    decode 0b101001_10001_10010_0000000000000000 = .taskNext 17 18 ∧
    decode 0b101001_00000_10001_0000000000000001 = .taskDone 17 ∧
    decode 0b101001_00000_10001_10010_00000000010 = .taskFail 17 18 ∧
    decode 0b101001_00000_10001_0000000000000011 = .taskRearm 17 ∧
    decode 0b101001_00000_10001_10010_00000000100 = .taskSpawn 17 18 ∧
    decode 0b101001_10001_10010_0000000000000101 = .gangLaunch 17 18 ∧
    decode 0b101001_00000000000000000000000110 = .gangExit := by
  decide +kernel

theorem test_decode_major2A :
    decode 0b101010_00000_10001_10010_100011_00000 = .cnPut 17 18 35 ∧
    decode 0b101010_10001_0000000000_100010_00001 = .cnTake 17 34 ∧
    decode 0b101010_10001_0000000000_100010_00010 = .cnTtake 17 34 ∧
    decode 0b101010_10001_00000_10010_100011_00011 = .cnStat 17 18 35 ∧
    decode 0b101010_00000_10001_00000_100010_00100 = .cnOpen 17 34 ∧
    decode 0b101010_000000000000000_100001_00101 = .cnClose 33 := by
  decide +kernel

theorem test_decode_major2B :
    decode 0b101011_10001_00000_10010_00000000000 = .barArrive 17 18 ∧
    decode 0b101011_00000_10001_10010_00100000000 = .barWait 17 18 ∧
    decode 0b101011_10001_10010_10011_01000000000 = .barTest 17 18 19 ∧
    decode 0b101011_00000_10001_10010_01100000000 = .barCfg 17 18 := by
  decide +kernel

theorem test_decode_major2C :
    decode 0b101100_00000_10001_10010_00000000000 = .txEnter 17 18 ∧
    decode 0b101100_00000_10001_0000000000000001 = .txResume 17 ∧
    decode 0b101100_00000_10001_0000000000000010 = .txResumeSkip 17 ∧
    decode 0b101100_10001_10010_0000000000000011 = .icGet 17 18 ∧
    decode 0b101100_00000_10001_10010_00000000100 = .icSet 17 18 ∧
    decode 0b101100_00000_10001_0000000000000101 = .icClr 17 ∧
    decode 0b101100_10001_10010_10011_00000000110 = .holdAdd 17 18 19 ∧
    decode 0b101100_10001_000000000000000000111 = .txRelq 17 ∧
    decode 0b101100_00000_10001_0000000000001000 = .txRelqRel 17 ∧
    decode 0b101100_10001_000000000000000001001 = .txRelqStat 17 ∧
    decode 0b101100_00000_10001_0000000000001010 = .txRelqCfg 17 ∧
    decode 0b101100_10001_10010_0000000000001011 = .txClsver 17 18 := by
  decide +kernel

theorem test_decode_bytecode :
    decodeBytecode 0b000000000000000000000000_00000000 = .tsupixNop ∧
    decodeBytecode 0b00000000_10000001_10000010_00000001 = .tsupixMove 129 130 ∧
    decodeBytecode 0b1000000000000001_10000010_00000010 = .tsupixLoadk 32769 130 ∧
    decodeBytecode 0b1000000000000001_10000010_00000011 = .tsupixLoadi 32769 130 ∧
    decodeBytecode 0b0000000000000000_10000001_00000100 = .tsupixDrop 129 ∧
    decodeBytecode 0b10000001_10000010_10000011_00001011 = .tsupixAdd 129 130 131 ∧
    decodeBytecode 0b10000001_10000010_10000011_00001100 = .tsupixSub 129 130 131 ∧
    decodeBytecode 0b10000001_10000010_10000011_00001101 = .tsupixMul 129 130 131 ∧
    decodeBytecode 0b10000001_10000010_10000011_00001110 = .tsupixTruediv 129 130 131 ∧
    decodeBytecode 0b10000001_10000010_10000011_00001111 = .tsupixFloordiv 129 130 131 ∧
    decodeBytecode 0b10000001_10000010_10000011_00010000 = .tsupixMod 129 130 131 ∧
    decodeBytecode 0b10000001_10000010_10000011_00010001 = .tsupixMatmul 129 130 131 ∧
    decodeBytecode 0b00000000_10000001_10000010_00010010 = .tsupixNeg 129 130 ∧
    decodeBytecode 0b10000001_10000010_10000011_00010011 = .tsupixLt 129 130 131 ∧
    decodeBytecode 0b10000001_10000010_10000011_00010100 = .tsupixLe 129 130 131 ∧
    decodeBytecode 0b10000001_10000010_10000011_00010101 = .tsupixEq 129 130 131 ∧
    decodeBytecode 0b00000000_10000001_10000010_00010110 = .tsupixNot 129 130 ∧
    decodeBytecode 0b100000000000000000000001_00010111 = .tsupixJmp 8388609 ∧
    decodeBytecode 0b1000000000000001_10000010_00011000 = .tsupixJmpif 32769 130 ∧
    decodeBytecode 0b1000000000000001_10000010_00011001 = .tsupixJmpifnot 32769 130 ∧
    decodeBytecode 0b1000000000000001_10000010_00011010 = .tsupixForiter 32769 130 ∧
    decodeBytecode 0b0000000000000000_10000001_00011101 = .tsupixReturn 129 ∧
    decodeBytecode 0b10000001_10000010_10000011_00011110 = .tsupixNewtuple 129 130 131 ∧
    decodeBytecode 0b10000001_10000010_10000011_00011111 = .tsupixNewlist 129 130 131 := by
  decide +kernel

theorem test_decode_bytecodeb :
    decodeBytecode 0b0000000000000000_10000001_00100000 = .tsupixNewdict 129 ∧
    decodeBytecode 0b0000000000000000_10000001_00100010 = .tsupixTsync 129 ∧
    decodeBytecode 0b0000000000000000_10000001_00100011 = .tsupixRaise 129 ∧
    decodeBytecode 0b100000000000000000000001_00100100 = .tsupixTry 8388609 ∧
    decodeBytecode 0b000000000000000000000000_00100101 = .tsupixPoptry ∧
    decodeBytecode 0b1000000000000001_10000010_00100110 = .tsupixNative 32769 130 := by
  decide +kernel

/-! ### States that meet the hypotheses: integer instructions, prefixes, exceptions -/

theorem test_meets_latch : (issuing fa user).latch.rep = none ∧ (issuing fa user).latch.len = 4 ∧ (issuing fa user).cur = fa ∧
    (issuing cr kern).latch.rep = none ∧ (issuing cr kern).cur = cr := by decide +kernel

theorem test_meets_mask_and_jump_operands :
    let s := issuing fa (regs [(2, 0x2000), (3, 0x2002)] user)
    (s.c.getX 2).toNat % 4 = 0 ∧ (s.c.getX 3).toNat % 4 ≠ 0 ∧ (7 : BitVec 5).toNat ≤ 7 ∧ 7 < (8 : BitVec 5).toNat := by
  decide +kernel

theorem test_meets_facet_entry :
    let s := issuing fa user
    s.cur = .facet 5 1 3 ∧ s.c.kt = false ∧ s.latch.rep = none ∧ s.c.kernel = false := by decide +kernel

theorem test_meets_crest_entry : (issuing cr kern).cur = .crest 2 1 ∧ (issuing cr kern).latch.rep = none := by decide +kernel

theorem test_meets_kret :
    ((issuing fa kern).cur = .facet 5 1 3 ∧ (issuing fa kern).c.kernel = true ∧ (issuing fa kern).c.pe = false) ∧
    ((issuing cr kern).cur = .crest 2 1 ∧ (issuing cr kern).c.kernel = true ∧ bit (issuing cr kern).c.epc 0 = false) ∧
    (issuing fa user).c.kernel = false ∧ (issuing fa user).c.kt = false ∧ (issuing fa user).latch.rep = none := by decide +kernel

theorem test_meets_double :
    let s := issuing fa { kern with estat := 0x21 }
    s.cur = .facet 5 1 3 ∧ s.c.kt = true ∧ (s.queue 0).open_ = false ∧ s.mem.byte (lmLoc 5 0x3F_F020) = 0 := by decide +kernel

/-- A facet's fetch of a word leaves the state. -/
theorem fetched_at {s : State} {pc : Word} {w : Insn} {t : Fin 900} {f : Fin 4} {k : Fin 11} (a : s.cur = .facet t f k)
    (h : (s.fetch pc).2 = .word w) : s.fetch pc = (s, .word w) := by
  simp only [State.fetch, a] at h ⊢
  split at h <;> simp_all

theorem test_meets_long :
    ∀ n ∈ [0x0822_0005, 0x0C22_0005, 0x1022_0005, 0x1422_0005, 0x1822_0005, 0x1C22_0005, 0x2022_0005, 0x0400_0007, 0,
      0xC000_0000],
      let s := stored (issuing fa user) (lmLoc 5 0x1004) 4 n
      s.latch.rep = none ∧ s.fetch (s.c.pc + 4) = (s, .word (BitVec.ofNat 32 n)) := by
  have h : ∀ n ∈ [0x0822_0005, 0x0C22_0005, 0x1022_0005, 0x1422_0005, 0x1822_0005, 0x1C22_0005, 0x2022_0005, 0x0400_0007, 0,
      0xC000_0000], let s := stored (issuing fa user) (lmLoc 5 0x1004) 4 n
      (s.fetch (s.c.pc + 4)).2 = .word (BitVec.ofNat 32 n) := by decide +kernel
  exact fun n hn => ⟨rfl, fetched_at rfl (h n hn)⟩

theorem test_long_words :
    decode 0x0822_0005 = .addi 1 2 5 ∧ decode 0x0C22_0005 = .andi 1 2 5 ∧ decode 0x1022_0005 = .ori 1 2 5 ∧
    decode 0x1422_0005 = .xori 1 2 5 ∧ decode 0x1822_0005 = .slti 1 2 5 ∧ decode 0x1C22_0005 = .sltiu 1 2 5 ∧
    decode 0x2022_0005 = .lih 1 2 5 ∧ decode 0x0400_0007 = .illegal ∧ decode 0 = .runoff ∧
    decode 0xC000_0000 = .future := by decide +kernel

theorem test_meets_rep :
    ∃ w : Insn, encode (.vadd 4 8 12 0 0 2) = some (32, w.toNat) ∧
      (let s := stored (issuing fa user) (lmLoc 5 0x1004) 4 w.toNat
       s.fetch (s.c.pc + 4) = (s, .word w) ∧ s.c.repidx.toNat < 20 ∧ s.c.kt = false) ∧
      (let s := stored (issuing fa { user with repidx := 20 }) (lmLoc 5 0x1004) 4 w.toNat
       s.fetch (s.c.pc + 4) = (s, .word w) ∧ 20 ≤ s.c.repidx.toNat) ∧
      12 + (20 - 1) * 1 ≤ 31 ∧ ¬12 + (21 - 1) * 1 ≤ 31 :=
  ⟨BitVec.ofNat 32 ((encode (.vadd 4 8 12 0 0 2)).getD (0, 0)).2, by decide +kernel,
    ⟨fetched_at rfl (by decide +kernel), by decide +kernel, by decide +kernel⟩, ⟨fetched_at rfl (by decide +kernel), by decide +kernel⟩,
    by decide⟩

theorem test_meets_repetition :
    ∀ i ∈ [0, 62], let s := { issuing fa user with latch := ⟨0, 0, 8, some (i, 63)⟩ }
      s.latch.rep = some (i, 63) ∧ i < 63 ∧ 63 < 64 := by decide +kernel

/-- A context with a message interrupt pending and its handler enabled. -/
def pending : Ctx := { user with uvec := 0x2001, pending := [⟨0, 1, 2⟩] }

theorem test_meets_user_interrupt :
    let c := (issuing fa pending).ctx fa
    c.pending = [⟨0, 1, 2⟩] ∧ bit c.uvec 0 = true ∧ c.uih = false ∧ c.kernel = false ∧ c.frozen = false ∧ c.run = .ready := by
  decide +kernel

theorem test_meets_user_interrupt_at_a_park :
    ∀ r ∈ [Run.parked .wfi, .parked .mailbox, .parked (.matrix 3)],
      let c := (issuing fa { pending with run := r }).ctx fa
      c.pending = [⟨0, 1, 2⟩] ∧ bit c.uvec 0 = true ∧ c.uih = false ∧ c.kernel = false ∧ c.frozen = false ∧ c.run = r ∧
        c.bytecode = false := by decide +kernel

theorem test_meets_uiret :
    (issuing fa { user with estat := 8 }).c.uih = true ∧ (issuing fa user).c.uih = false ∧
    (issuing cr { regs [(31, 0x1001)] user with estat := 8 }).c.uih = true ∧
    bit ((issuing cr { regs [(31, 0x1001)] user with estat := 8 }).c.xn 31) 0 = true := by decide +kernel

/-! ### Stopping, waiting, the heartbeat -/

/-- A store of the context to tile 6 that is under way. -/
def underWay (a : Agent) : Access :=
  { id := 7, agent := a, kind := .store, todo := [⟨0, 0xF000_0000_0180_0000, .loc (lmLoc 6 0), 8, 1⟩], done := []
    refused := none, back := .none, latch := ⟨0, 0, 4, none⟩, ring := none }

/-- The state with that store under way. -/
def busyNet (s : State) : State := { s with net := [underWay s.cur] }

theorem test_meets_nothing_open : ∀ s ∈ [issuing fa user, issuing f0 kern, issuing cr kern], Releases s := by
  unfold Releases NothingOpen; decide +kernel

theorem test_meets_something_open : ∀ s ∈ [busyNet (issuing fa user), busyNet (issuing f0 user), busyNet (issuing cr kern)],
    ¬NothingOpen s s.cur := by unfold NothingOpen; decide +kernel

theorem test_meets_holds_record : HoldsRecord (issuing f0 user) := by unfold HoldsRecord; decide +kernel

theorem test_meets_halt_and_wfi :
    isBead (issuing f0 user).cur = false ∧ isBead (issuing cr user).cur = false ∧ (issuing fa kern).c.kernel = true ∧
    (issuing fa user).c.kernel = false ∧ (issuing fa user).c.pending = [] ∧ (issuing fa pending).c.pending ≠ [] ∧
    bit (issuing fa pending).c.uvec 0 = true ∧ (issuing fa pending).c.uih = false := by decide +kernel

theorem test_meets_busy :
    let at_ := fun (now : Nat) => { issuing fa { user with run := .busy 24 } with now := now }
    ((at_ 24).ctx fa).run = .busy 24 ∧ 24 ≤ (at_ 24).now ∧ ((at_ 23).ctx fa).run = .busy 24 ∧ (at_ 23).now < 24 := by
  decide +kernel

/-- A ring whose next entry is open. -/
def fullRing : Ni := { Ni.initial with ring := Ni.initial.ring.set 0 { RingEntry.initial with open_ := true } }

theorem test_meets_ring_busy :
    let s := issuing fa { user with run := .ringBusy }
    let u := s.modNi (.facet 5 1) fun _ => fullRing
    let opened := fun (s : State) => let n := s.ni (ownerOf fa); (n.ring.toList.getD (n.seq.toNat % 16) RingEntry.initial).open_
    (s.ctx fa).run = .ringBusy ∧ opened s = false ∧ (u.ctx fa).run = .ringBusy ∧ opened u = true := by decide +kernel

theorem test_meets_ring_free : RingFree (issuing fa user) (.facet 5 1) ∧
    ¬RingFree ((issuing fa user).modNi (.facet 5 1) fun _ => fullRing) (.facet 5 1) := by unfold RingFree; decide +kernel

theorem test_meets_heartbeat :
    let late := (issuing fa user).modFacet 5 1 fun f => { f with hbLeft := 0 }
    isCrest (issuing cr kern).cur = true ∧ (late.facet 5 1).hbLeft = 0 ∧ (late.facet 5 1).hbInterval ≠ 0 ∧
    (late.facet 5 1).fenced = false ∧ ((issuing fa user).facet 5 1).hbLeft ≠ 0 := by decide +kernel

theorem test_meets_heartbeat_report :
    let s := (((issuing fa user).modFacet 5 1 fun f => { f with fenced := true, missed := true }).modTile 5
      fun t => { t with gang := some 0 }).modTile 6 fun t => { t with gang := some 0 }
    (s.facet 5 1).missed = true ∧ HoldsRecord s ∧ 5 % 30 ≠ 29 ∧ (s.tile 6).gang = (s.tile 5).gang ∧ (s.tile 5).gang ≠ none ∧
    ((s.ni (.facet 6 0)).mail.all fun e => !e.reserve) = true := by unfold HoldsRecord; decide +kernel

/-! ### Memory instructions -/

theorem test_meets_local_read :
    LocalRead (issuing fa user) 5 0 0x3B_FFF8 8 ∧ LocalRead (issuing fa kern) 5 0 0x3F_FFF8 8 ∧
    LocalWrite (issuing fa user) 5 0 0x3B_FFFF 1 ∧ LocalWrite (issuing fa kern) 5 0 0x3C_4000 8 ∧
    ¬LocalWrite (issuing fa kern) 5 0 0x3C_3FF8 8 ∧ ¬LocalRead (issuing fa user) 5 0 0x3B_FFFC 8 := by
  unfold LocalWrite LocalRead
  refine ⟨?_, ?_, ?_, ?_, ?_, ?_⟩ <;> decide +kernel

theorem test_meets_local_operands :
    let s := issuing fa (regs [(2, 0x3B_FFF0)] user)
    (LocalRead s 5 s.c.spc (s.c.getX 2 + (8 : BitVec 13).signExtend 64) 8 ∧ LocalWrite s 5 s.c.spc (s.c.getX 2) 4) ∧
    (LocalWrite s 5 ((s.c.getX 3).setWidth 8) (s.c.getX 2) 8 ∧ Releases s) ∧
    ¬NothingOpen (busyNet s) s.cur ∧ LocalWrite (busyNet s) 5 s.c.spc (s.c.getX 2) 8 := by
  refine ⟨⟨?_, ?_⟩, ⟨?_, ?_⟩, ?_, ?_⟩ <;> first
    | unfold LocalWrite LocalRead; decide +kernel
    | unfold LocalRead; decide +kernel
    | unfold Releases NothingOpen; decide +kernel
    | unfold NothingOpen; decide +kernel

theorem test_meets_address_faults :
    let at_ := fun (va : Word) => ((issuing fa (regs [(2, va)] user)).c.getX 2).toNat
    at_ 9 % 8 ≠ 0 ∧ at_ 0x40_0000 % 8 = 0 ∧ 0x40_0000 ≤ at_ 0x40_0000 ∧ at_ 0x40_0000 < 2 ^ 60 ∧
    at_ 0x3C_0000 < 0x40_0000 ∧ 0x3C_0000 < at_ 0x3C_0000 + 1 ∧ (issuing fa user).c.kernel = false ∧
    15 * 2 ^ 60 ≤ at_ 0xF000_0001_0000_0000 ∧ 2 ^ 32 ≤ at_ 0xF000_0001_0000_0000 % 2 ^ 60 ∧
    900 ≤ at_ 0xF000_0000_E100_0000 / 2 ^ 22 % 2 ^ 10 ∧ isCrest (issuing cr (regs [(2, 8)] kern)).cur = true ∧
    ((issuing cr (regs [(2, 8)] kern)).c.getX 2).toNat < 2 ^ 60 := by decide +kernel

/-- A context of a gang of 2 by 2 tiles, at rank 3. -/
def ranked : Ctx := { user with gangw := 2, gangh := 2, rank := 3 }

theorem test_meets_raddr :
    let s := issuing (.facet 36 1 3) (regs [(2, 0x3B_FFFF), (3, 3), (4, 4), (5, 0x3C_0000)] ranked)
    let c := s.c
    c.gangw.toNat * c.gangh.toNat ≤ (c.getX 4).toNat ∧ 0x3C_0000 ≤ (c.getX 5).toNat ∧ (issuing fa user).c.gangw.toNat = 0 ∧
    0 < c.gangw.toNat ∧ (c.getX 3).toNat < c.gangw.toNat * c.gangh.toNat ∧ (c.getX 2).toNat < 0x3C_0000 ∧
    c.rank.toNat % 2 ≤ 36 % 30 ∧ 36 % 30 - c.rank.toNat % 2 + 2 ≤ 30 ∧ c.rank.toNat / 2 ≤ 36 / 30 ∧
    36 / 30 - c.rank.toNat / 2 + c.gangh.toNat ≤ 30 := by decide +kernel

theorem test_meets_fences :
    let s := issuing fa user
    let u := busyNet (issuing fa { user with tokens := user.tokens.set 1 ⟨[7]⟩ })
    (∀ i ∈ (s.c.tokens[1]).ids, i ∉ s.openIds s.cur) ∧ s.openMessages s.cur = [] ∧ s.openDecrements s.cur = [] ∧
    s.openCopies s.cur = [] ∧ s.openEntries s.cur = [] ∧ ¬∀ i ∈ (u.c.tokens[1]).ids, i ∉ u.openIds u.cur := by decide +kernel

theorem test_meets_remote_issue :
    let s := issuing fa (regs [(2, 0xF000_0000_01BF_FFF8)] user)
    s.cur = .facet 5 1 3 ∧ s.latch.rep = none ∧ 0x3F_FFF8 % 8 = 0 ∧ (s.c.getX 2).toNat = 15 * 2 ^ 60 + 6 * 2 ^ 22 + 0x3F_FFF8 ∧
    s.c.spc = 0 ∧ (s.facet 5 1).fenced = false := by decide +kernel

/-- A window of 8 bytes at offset 0 that any source reads and writes. -/
def openWindow : Word := 0xE000_0008_0000_0000

/-- The state with a load or store of tile 6 under way. -/
def remote (k : AccKind) (s : State) : State := { s with net := [{ underWay fa with kind := k }] }

theorem test_meets_home :
    let s := (issuing fa user).modTile 6 fun t => { t with win := t.win.set 2 openWindow }
    let e : Elem := ⟨0, 0xF000_0000_0180_0000, .loc (lmLoc 6 0), 8, 1⟩
    (∀ k ∈ [AccKind.load, .store],
      let s := remote k s
      s.net = [{ underWay fa with kind := k }] ∧ { underWay fa with kind := k }.todo = [e] ∧ 2 ^ 60 ≤ e.va.toNat ∧ e.target = .loc (lmLoc 6 0) ∧
      TakesAccesses s 6 ∧ WindowGrants (s.tile 6).win[2] 0 e.bytes (k = .load) (k = .store) ∧ s.msgs = [] ∧
      s.softErrors = []) ∧
    ∀ j : Fin 4, bits ((issuing fa user).tile 6).win[j] 53 32 ≤ bits ((issuing fa user).tile 6).win[j] 21 0 := by
  unfold TakesAccesses WindowGrants; decide +kernel

theorem test_meets_remote_value :
    let x := fun (r : Option (Byte × Nat × Word)) (d : List (Nat × Nat)) =>
      { underWay fa with kind := .load, todo := [], done := d, refused := r, back := .scalar 4 8 false }
    let s := { issuing fa { user with run := .blocked } with net := [x none [(0, 2 ^ 64 - 1)]] }
    s.net = [x none [(0, 2 ^ 64 - 1)]] ∧ (x none [(0, 2 ^ 64 - 1)]).agent = fa ∧ (x none []).latch.rep = none ∧
    2 ^ 64 - 1 < 256 ^ 8 ∧ (x (some (8, 0, 0x10)) []).refused = some (8, 0, 0x10) ∧ (8 : Byte) ≠ 2 ∧ (8 : Byte) ≠ 3 ∧
    (s.ctx fa).kt = false ∧ isCrest cr = true := by decide +kernel

theorem test_meets_late_fault :
    let s := issuing fa { user with late := [⟨0x08, 0x10, some 0xFFFF, none, false⟩, ⟨0x1B, 0, none, none, false⟩] }
    (s.ctx fa).late = [⟨0x08, 0x10, some 0xFFFF, none, false⟩, ⟨0x1B, 0, none, none, false⟩] ∧ (s.ctx fa).run = .ready ∧ (s.ctx fa).kt = false ∧
    (0x08 : Byte) ≠ 2 ∧ (0x08 : Byte) ≠ 3 := by decide +kernel

/-- A facet context parked on the page at an address, with a fourth level of page tables at 0x4_0000. -/
def parkedOn (va : Word) (root : Nat) : State :=
  stored (stored (issuing fa { user with run := .parked (.translation va 0 0 none) }) Config.anchor 8 root) 0x3_0000 8 0x4_0001

theorem test_meets_translation :
    let va : Word := 0x1000_0000_0030_0000
    let s := parkedOn va 0x10000
    let v := va.toNat
    let root := s.mem.read (Config.anchor + 8 * s.mgmt.domain.toNat) 8
    let e1 := s.mem.read (root + 8 * (v / 2 ^ 55 % 2 ^ 9)) 8
    let e2 := s.mem.read (e1 / 2 ^ 16 * 2 ^ 16 + 8 * (v / 2 ^ 42 % 2 ^ 13)) 8
    let e3 := s.mem.read (e2 / 2 ^ 16 * 2 ^ 16 + 8 * (v / 2 ^ 29 % 2 ^ 13)) 8
    let at4 := e3 / 2 ^ 16 * 2 ^ 16 + 8 * (v / 2 ^ 16 % 2 ^ 13)
    let node := fun (e : Nat) => e < 2 ^ 39 ∧ e % 2 ^ 16 = 1
    let good := fun (e : Nat) => e < 2 ^ 39 ∧ e % 2 = 1 ∧ e / 2 ^ 6 % 2 ^ 10 = 0
    let readable := fun (e : Nat) => e / 4 % 2 = 1 ∧ e / 32 % 2 = 1
    (s.ctx fa).run = .parked (.translation va 0 0 none) ∧ s.cur = fa ∧ root < 2 ^ 39 ∧ root % 2 ^ 16 = 0 ∧ root ≠ 0 ∧
    node e1 ∧ node e2 ∧ node e3 ∧ good ((stored s at4 8 0x30_003D).mem.read at4 8) ∧
    readable ((stored s at4 8 0x30_003D).mem.read at4 8) ∧ good ((stored s at4 8 0x30_0001).mem.read at4 8) ∧
    ¬readable ((stored s at4 8 0x30_0001).mem.read at4 8) ∧ s.c.kt = false ∧
    (parkedOn va 0).mem.read (Config.anchor + 8 * (parkedOn va 0).mgmt.domain.toNat) 8 = 0 ∧ HoldsRecord (parkedOn va 0) := by
  unfold HoldsRecord; decide +kernel

/-- A message of crest context 1 of core 2 to context 3 of facet 1 of tile 5. -/
def toFacet (lo hi : Word) : Message :=
  { id := 9, group := 9, sender := some cr, kernel := true, dest := .facet 5 1, ctx := 3, lo := lo, hi := hi, destWord := 5
    ring := none, refusals := [] }

/-- Context 3 parked on a translation of its launch 7, its tile in a gang, and an answer of the kernel on the way. -/
def answered (hi : Word) : State :=
  { (issuing fa { user with run := .parked (.translation 0x10 0 0 (some 7)) }).modTile 5 (fun t => { t with gang := some 0 }) with
    msgs := [toFacet 0xE1_0007 hi] }

theorem test_meets_tresume :
    ((toFacet 0xE1_0007 0).dest = .facet 5 1 ∧ (toFacet 0xE1_0007 0).kernel = true ∧ (toFacet 0xE1_0007 0).ctx = (3 : Fin 11).val ∧
      bits (toFacet 0xE1_0007 0).lo 23 16 = 0xE1 ∧ bits (toFacet 0xE1_0007 0).lo 15 0 = (7 : BitVec 16).toNat) ∧
    (answered 0).msgs = [toFacet 0xE1_0007 0] ∧ (answered 6).msgs = [toFacet 0xE1_0007 6] ∧ (answered 7).msgs = [toFacet 0xE1_0007 7] ∧
    (answered 0).net = [] ∧ ((answered 0).ctx fa).run = .parked (.translation 0x10 0 0 (some 7)) ∧
    ((answered 0).tile 5).gang ≠ none ∧ ((answered 0).tile 5).spilled = false ∧ ((answered 0).facet 5 1).fenced = false ∧
    ((answered 0).ni (.facet 5 1)).quiescing = false ∧ ((answered 0).ctx fa).kt = false := by decide +kernel

/-! ### Synchronisation inside a tile -/

/-- The tile of the facet changed. -/
def onTile (g : Tile → Tile) (s : State) : State := s.modTile 5 g

/-- The state with mutex 15 held and waited for. -/
def mutex (o : Option (BitVec 6)) (w : List Agent) (s : State) : State := onTile (fun t => { t with mutexes := t.mutexes.set 15 ⟨o, w⟩ }) s

theorem test_meets_mutexes :
    let s := issuing fa (regs [] user)
    let m := fun (s : State) => (s.tile 5).mutexes[15]
    (15 : BitVec 5).toNat = (15 : Fin 16).val ∧ (m s).owner = none ∧ (m s).waiters = [] ∧
    (m (mutex (some 1) [] s)).owner = some 1 ∧ (1 : BitVec 6) ≠ 0x13 ∧
    (m (mutex (some 0x13) [] s)).owner = some (BitVec.ofNat 6 (16 * 1 + 3)) ∧ (m (mutex (some 0x13) [] s)).waiters = [] ∧
    (m (mutex (some 0x13) [.facet 5 0 2] s)).waiters = [.facet 5 0 2] ∧ Agent.facet 5 0 2 ≠ s.cur ∧ Releases s ∧
    ¬NothingOpen (busyNet s) s.cur := by unfold Releases NothingOpen; decide +kernel

/-- The state with semaphore 31 as given. -/
def semaphore (x : Sem) (s : State) : State := onTile (fun t => { t with sems := t.sems.set 31 x }) s

theorem test_meets_semaphores :
    let s := issuing fa user
    let m := fun (s : State) => (s.tile 5).sems[31]
    (m (semaphore ⟨1, false, []⟩ s)).count ≠ 0 ∧ (m (semaphore ⟨1, false, []⟩ s)).waiters = [] ∧ (m s).count = 0 ∧
    (m (semaphore ⟨0xFFFF, false, []⟩ s)).waiters = [] ∧ (m (semaphore ⟨0xFFFF, false, []⟩ s)).count = 0xFFFF ∧
    (m (semaphore ⟨0, false, [.facet 5 0 2]⟩ s)).waiters = [.facet 5 0 2] ∧
    Releases (semaphore ⟨0, false, [.facet 5 0 2]⟩ s) ∧ ¬NothingOpen (busyNet s) s.cur := by
  unfold Releases NothingOpen; decide +kernel

/-- The state with barrier channel 15 as given. -/
def channel (x : Channel) (s : State) : State := onTile (fun t => { t with channels := t.channels.set 15 x }) s

theorem test_meets_barriers :
    let s := issuing f0 user
    let m := fun (s : State) => (s.tile 5).channels[15]
    let old := channel ⟨1, 0xF, none, 2, false⟩ s
    (∀ g : Fin 4, (s.facet 5 g).fenced = false) ∧ (m s).members.getLsbD 1 = true ∧ (m s).arrived.getLsbD 1 = false ∧
    Releases s ∧ ¬NothingOpen (busyNet s) s.cur ∧ (m old).arrived.getLsbD 1 = true ∧
    (m (channel ⟨0, 0xD, none, 0, false⟩ s)).members.getLsbD 1 = false ∧
    (1 ≤ ((m old).count - 0).toNat ∧ ((m old).count - 0).toNat ≤ 2 ^ 31) ∧
    ¬(1 ≤ ((m s).count - 0).toNat ∧ ((m s).count - 0).toNat ≤ 2 ^ 31) ∧ (4 : BitVec 5).toNat ≤ 4 ∧ 4 < (5 : BitVec 5).toNat ∧
    (issuing fa user).cur = .facet 5 1 3 ∧ (3 : Fin 11) ≠ 0 := by unfold Releases NothingOpen; decide +kernel

/-- A gang of w by h tiles whose origin is tile 5, with ready pool 3. -/
def aGang (w h : Nat) : Gang :=
  { x0 := 5, y0 := 0, w := w, h := h, phase := .running, rid := 7, ticket := 1, unit_ := 2, core := 2, ctx := 1
    rcb := 0x1000_0000_0031_0000, pool := 3, budget := 900, fdom := 0, fq := 1, save := 0
    terms := ⟨0, 0, 0x40_0000, 0, 0⟩, kept := [] }

/-- The state in which that gang is bound in slot 255. -/
def bound (g : Gang) (s : State) : State := { onTile (fun t => { t with gang := some 255 }) s with gangs := s.gangs.put 255 g }

theorem test_meets_barrier_phase :
    let s := bound (aGang 25 1) (issuing f0 user)
    let tiles := (List.range 1).flatMap fun y => (List.range 25).map fun x => 30 * (0 + y) + 5 + x
    let u := bound (aGang 1 1) (channel ⟨0, 0xF, none, 0xF, true⟩ (issuing f0 user))
    s.gangs.find 255 = some (aGang 25 1) ∧ 5 + 25 ≤ 30 ∧ (∃ t ∈ tiles, (s.tile t).channels[15].reported = false) ∧
    u.gangs.find 255 = some (aGang 1 1) ∧ (u.tile 5).channels[15].reported = true := by decide +kernel

theorem test_meets_beads :
    let s := issuing f0 (regs [(2, 0x2000), (3, 0x2002), (4, 10), (5, 11)] user)
    let one := s.setCtx (.facet 5 1 10) user
    let all := [1, 2, 3, 4, 5, 6, 7, 8, 9, 10].foldl (fun s k => s.setCtx (.facet 5 1 k) user) s
    let live := fun (s : State) (j : Fin 11) => (s.ctx (.facet 5 1 j)).run ≠ .notLive
    (s.c.getX 2).toNat % 4 = 0 ∧ (s.c.getX 3).toNat % 4 ≠ 0 ∧ Releases s ∧ ¬live s 1 ∧ (∀ j, j ≠ 0 → live all j) ∧
    Releases all ∧ (s.c.getX 4).toNat % 16 = (10 : Fin 11).val ∧ live one 10 ∧ 10 < (s.c.getX 5).toNat % 16 ∧
    ¬live s 10 := by unfold Releases NothingOpen; decide +kernel

theorem test_meets_bead_end :
    let s := issuing fa user
    let owns := fun (s : State) (m : Fin 16) => (s.tile 5).mutexes[m].owner = some (BitVec.ofNat 6 (16 * 1 + 3))
    (∀ m, ¬owns s m) ∧ Releases s ∧ owns (mutex (some 0x13) [] s) 15 ∧
    ∀ j : Fin 16, j < 15 → ¬owns (mutex (some 0x13) [] s) j := by unfold Releases NothingOpen; decide +kernel

/-! ### Special registers and floating point -/

theorem test_meets_special_registers :
    (issuing fa kern).c.kernel = true ∧ (issuing fa user).c.kernel = false ∧
    ((issuing fa (regs [(2, 5)] user)).c.getX 2).toNat % 8 < 6 ∧ 6 ≤ ((issuing fa (regs [(2, 6)] user)).c.getX 2).toNat % 8 ∧
    ((issuing fa user).srRead fa 7 ||| 5).toNat % 8 < 6 ∧ ((issuing fa user).srRead fa 7 &&& ~~~5).toNat % 8 < 6 := by
  decide +kernel

theorem test_meets_crest_traps :
    (issuing cr kern).cur = .crest 2 1 ∧ (issuing cr kern).latch.rep = none ∧ (15 : BitVec 5).toNat < 16 ∧
    (4 : BitVec 5).toNat ≤ 4 ∧ (issuing cr kern).c.kernel = true := by decide +kernel

theorem test_meets_codes :
    (0 : Nat) ≤ 12 ∧ 12 ≤ 12 ∧ (12 : Nat) ≠ 7 ∧ 2 ^ 64 - 1 < 2 ^ fmtBits 0 ∧ (decodeFmt 12 0).isNan = false ∧
    (decodeFmt 0 0xFFF0_0000_0000_0000).isNan = false ∧ (decodeFmt 0 0x7FF8_0000_0000_0000).isNan = true := by decide +kernel

theorem test_meets_rounding_fields :
    (1 : BitVec 1) = 1 ∧ (5 : BitVec 3).toNat ≤ 5 ∧ 5 < (6 : BitVec 3).toNat ∧ (0 : BitVec 1) = 0 ∧
    ((12 : BitVec 4).toNat ≤ 12 ∧ (12 : BitVec 4) ≠ 7) ∧ ¬((7 : BitVec 4).toNat ≤ 12 ∧ (7 : BitVec 4) ≠ 7) ∧
    ¬((13 : BitVec 4).toNat ≤ 12 ∧ (13 : BitVec 4) ≠ 7) := by decide

/-! ### The vector unit -/

theorem test_meets_vectors :
    let s := issuing fa { user with k := user.k.set 1 1 }
    let z := issuing fa user
    (7 : BitVec 5).toNat ≤ 7 ∧ 7 < (8 : BitVec 5).toNat ∧ activeElems s 2 1 32 16 ≠ [] ∧ activeElems z 2 1 32 16 = [] ∧
    Safety.on s 1 0 = true ∧ (5 : BitVec 3).toNat ≤ 5 ∧ 5 < (6 : BitVec 3).toNat ∧ (1 : BitVec 2) ≠ 0 := by decide +kernel

theorem test_meets_vector_memory :
    let s := issuing fa { regs [(2, 0x3B_FFC0), (3, 8)] user with k := user.k.set 1 3 }
    let u := s.modNi (.facet 5 1) fun _ => fullRing
    (∀ j ∈ [0, 1], LocalWrite s 5 s.c.spc (s.c.getX 2 + toWord (4 * j)) 4) ∧
    (∀ j ∈ [0, 1], LocalRead s 5 s.c.spc (s.c.getX 2 + toWord j * s.c.getX 3) 4) ∧
    (∀ j ∈ [0, 1], LocalRead s 5 s.c.spc (s.c.getX 2 + toWord (elem (s.c.getV 4) 32 j)) 4) ∧
    (∀ j, j < 16 → Safety.on s 1 j = true → j ∈ [0, 1]) ∧ RingFree s (.facet 5 1) ∧ ¬RingFree u (.facet 5 1) := by
  unfold LocalWrite LocalRead RingFree
  refine ⟨?_, ?_, ?_, ?_, ?_, ?_⟩ <;> decide +kernel

/-! ### The matrix engine -/

/-- A tile whose four control contexts are at kernel privilege, the other three parked at the clasp with a word, values and what
their instruction does. -/
def clasped (word : Insn) (vals : List Word) (j : Joint) (c : Ctx) : State :=
  let s := [0, 2, 3].foldl (fun s g => s.setCtx (.facet 5 g 0) { c with run := .parked .clasp }) (issuing f0 c)
  { s with
    latch := ⟨word, word, 4, none⟩
    mms := s.mms.put 5 { Mm.initial with clasp := (Vector.replicate 4 (some ⟨word, vals, 0, j⟩)).set 1 none } }

theorem test_meets_clasp :
    LastAtClasp (clasped 0x8000_0000 [0, 32, 1] (.queued .swap false) kern) 5 1 [0, 32, 1] (.queued .swap false)
      (Vector.replicate 4 0) := by
  unfold LastAtClasp RingFree; decide +kernel

theorem test_meets_joint_operands :
    let s := clasped 0 [] .sync (regs [(2, 0x3B_FFE0), (3, 0x5000_0000), (4, 4), (5, 0)] kern)
    let u := clasped 0 [] .sync (regs [(5, 3)] user)
    (255 : BitVec 8) ≠ 0 ∧ bits (s.c.getX 3) 30 28 < 6 ∧ (s.c.getX 2).toNat % 32 = 0 ∧ (s.c.getX 2).toNat < 0x3C_0000 ∧
    s.c.kernel = true ∧ bit (u.c.getX 5) 2 = false ∧ bit (s.mm 5).bz.site 1 = false ∧
    bit (({ u with mms := u.mms.put 5 { u.mm 5 with bz := { (u.mm 5).bz with site := 2 } } }).mm 5).bz.site 1 = true ∧
    ∃ g : Fin 4, (s.ctx (.facet 5 g 0)).msv = false := by decide +kernel

/-- A tensor record of 32-bit integers in local memory with its lengths and strides on two axes. -/
def intTensor (base d0 s0 d1 s1 : Nat) : Vec :=
  BitVec.ofNat 512 (0x0B + (if d1 = 1 then 1 else 2) * 2 ^ 8 + 2 ^ 24 + base * 2 ^ 64 + d0 * 2 ^ 128 + d1 * 2 ^ 160 + 2 ^ 192 + 2 ^ 224 +
    s0 * 2 ^ 256 + s1 * 2 ^ 288)

theorem test_meets_tensor_table :
    let r := recSeal (intTensor 0x1000 4 4 8 1)
    let s := stored (clasped 0 [] .sync (regs [(2, 0x3B_FFC0)] user)) (lmLoc 5 0x3B_FFC0) 64 r.toNat
    let put := fun (v : Vec) => s.modTile 5 fun t => { t with tensors := t.tensors.put 255 v }
    recOk (BitVec.ofNat 512 (s.mem.read (lmLoc 5 (s.c.getX 2).toNat) 64)) = true ∧ (s.c.getX 2).toNat % 64 = 0 ∧
    (s.c.getX 2).toNat < 0x3C_0000 ∧ s.softErrors = [] ∧ recValid (((put r).tile 5).tensor 255) = true ∧
    recSliced (((put r).tile 5).tensor 255) = false := by decide +kernel

theorem test_meets_clasp_mismatch :
    let s := { clasped 0x8000_0028 [0, 0, 0] .sync user with cur := .facet 5 3 0, latch := ⟨0x8000_0000, 0x8000_0000, 4, none⟩ }
    let m := s.mm 5
    let e : ClaspEntry := ⟨0x8000_0028, [0, 0, 0], 0, .sync⟩
    let s := (s.setCtx (.facet 5 3 0) user).setCtx (.facet 5 1 0) { user with run := .parked .clasp }
    let u := { s with mms := s.mms.put 5 { m with clasp := #v[some e, some e, some e, none] } }
    let v := { s with mms := s.mms.put 5 Mm.initial }
    u.cur = .facet 5 3 0 ∧ u.latch.rep = none ∧ u.c.kt = false ∧ RingFree u (.facet 5 3) ∧
    (u.mm 5).clasp.toList.getD 2 none = some e ∧ e.agrees e = true ∧ e.word ≠ u.latch.word ∧
    (∀ g : Fin 4, (u.ctx (.facet 5 g 0)).frozen = false ∧ (u.ctx (.facet 5 g 0)).kt = false) ∧
    (v.mm 5).clasp.toList.getD 0 none = none := by unfold RingFree; decide +kernel

/-- The matrix engine of the tile with one entry in its queue. -/
def entry (op : MmOp) (s : State) : State :=
  { s with mms := s.mms.put 5 { s.mm 5 with queue := [{
      id := 3, op := op, recs := [0], seqs := Vector.replicate 4 0, pos := 0, held := [], stopping := false, flags := 0, kts := 0 }] } }

theorem test_meets_matrix_singles :
    let s := issuing f0 (regs [(2, 511), (3, 512), (4, 7), (5, 0)] user)
    let z := fun (row col : Word) => { Bezel.initial with row := row, col := col }
    let one := fun (z : Bezel) => bit z.row 63 = true ∧ bit z.row 62 = false ∧ bits z.row 61 52 = 1 ∧ bits z.col 37 32 = 1
    (30 : BitVec 5).toNat < 31 ∧ (s.c.getX 2).toNat < 512 ∧ 512 ≤ (s.c.getX 3).toNat ∧ (s.mm 5).queue = [] ∧
    (∃ e, ((entry .swap s).mm 5).queue = [] ++ [e] ∧ e.op ≠ .qfence) ∧ (7 : BitVec 5).toNat ≤ 7 ∧
    one (z 0x8010_0000_0000_0005 0x1_8000_0000) ∧ bits (z 0 0x1_8000_0000).col 31 0 = 2 ^ 31 ∧ ¬one (z 0 0) ∧
    (s.c.getX 4).toNat % 8 = 7 ∧ (s.c.getX 5).toNat % 8 = (0 : Fin 4).val := by
  refine ⟨by decide, by decide +kernel, by decide +kernel, by decide +kernel, ⟨_, rfl, by decide⟩, ?_⟩
  decide +kernel

theorem test_meets_matrix_traps :
    (issuing fa user).cur = .facet 5 1 3 ∧ (issuing f0 user).cur = .facet 5 1 0 ∧ (issuing f0 user).c.kernel = false ∧
    6 ≤ bits ((issuing f0 (regs [(2, 0x6000_0000), (3, 4)] user)).c.getX 2) 30 28 ∧
    bit ((issuing f0 (regs [(2, 0x6000_0000), (3, 4)] user)).c.getX 3) 2 = true := by decide +kernel

theorem test_meets_matrix_entries :
    ∀ op ∈ [MmOp.swap, .zero 511 1, .inject 0x4000_01FF 0x3F80_0000, .clear 1, .loadw 1 0 0 4],
      let s := entry op (issuing f0 user)
      ((s.mm 5).queue.all fun e => e.op = op && e.stopping = false && e.flags = 0 && !recValid (e.recs.getD 0 0)) = true ∧
      (s.mm 5).queue.length = 1 ∧ s.freeze = false ∧ 511 + 1 ≤ 512 ∧ bits (0x4000_01FF : Word) 31 30 = 1 ∧
      bit (1 : Word) 0 = true ∧ bit (1 : Word) 1 = false ∧ bit (1 : Word) 2 = false ∧
      ∀ y ∈ (s.mm 5).queue, y.op ≠ .save ∧ y.op ≠ .rest ∧ y.op ≠ .qfence := by decide +kernel

/-! ### The copy engine -/

theorem test_meets_copy_push :
    let s := issuing fa (regs [(28, 0x1_0000_0000_0001)] user)
    let full := s.modNi (.facet 5 1) fun n => { n with cq := n.cq.set 1 (List.replicate 8
      ⟨0, [0, 0, 0, 0], fa, 0, false, 0, .queued, [], 0, 0, 0, [], []⟩) }
    (28 : BitVec 5).toNat ≤ 28 ∧ bits (s.c.xn 28) 48 48 = (1 : Fin 2).val ∧ bits (s.c.xn 28) 7 0 ≠ 6 ∧ RingFree s (.facet 5 1) ∧
    ((s.ni (.facet 5 1)).cq[1]).length < 8 ∧ 8 ≤ ((full.ni (.facet 5 1)).cq[1]).length ∧ 28 < (29 : BitVec 5).toNat := by
  unfold RingFree; decide +kernel

/-- A request of four words of context 3. -/
def request (w0 w1 w2 w3 : Word) : CopyReq := ⟨4, [w0, w1, w2, w3], fa, 0, false, 0, .queued, [], 0, 0, 0, [], []⟩

/-- The state with that request at the head of copy queue 1. -/
def copying (r : CopyReq) : State := (issuing fa user).modNi (.facet 5 1) fun n => { n with cq := n.cq.set 1 [r] }

/-- The first word of a request of a kind that asks for a completion. -/
def mb (kind : Nat) : Word := toWord (kind + 2 ^ 56)

theorem test_meets_copy_heads :
    ∀ kind ∈ [1, 2, 3, 4, 5, 6, 7, 9],
      let r := request (mb kind) 0x100 0x3B_FFC0 0x40
      CopyHead (copying r) 5 1 3 1 r kind := by unfold CopyHead; decide +kernel

theorem test_meets_copy_blocks :
    let r := request (mb 1) 0x101 0x3B_FFC0 0x3F
    bits (r.w 0) 23 8 = 0 ∧ InBlock r (r.w 1).toNat (bits (r.w 3) 31 0) ∧ InBlock r (r.w 2).toNat (bits (r.w 3) 31 0) := by
  unfold InBlock; decide +kernel

theorem test_meets_multicast_copy :
    let r := request (mb 5) 0x100 0 (toWord (8 + 6 * 2 ^ 32))
    let s := (copying r).modTile 6 fun t => { t with win := t.win.set 2 openWindow }
    CopyHead s 5 1 3 1 r 5 ∧ InBlock r (r.w 1).toNat (bits (r.w 3) 31 0) ∧ bits (r.w 3) 41 32 = 6 ∧ bits (r.w 3) 52 48 = 0 ∧
    bits (r.w 3) 60 56 = 0 ∧ TakesAccesses s 6 ∧ WindowGrants (s.tile 6).win[2] (r.w 2).toNat (bits (r.w 3) 31 0) false true := by
  unfold CopyHead InBlock TakesAccesses WindowGrants; decide +kernel

/-- Three tensors of a tile: 1 and 2 rows of one element, 3 an index of one element that is i. -/
def tensors (i : Nat) (r : CopyReq) : State :=
  stored ((copying r).modTile 5 fun t => { t with
    tensors := ((t.tensors.put 1 (intTensor 0x1000 1 1 8 1)).put 2 (intTensor 0x2000 1 1 8 1)).put 3 (intTensor 0x3000 4 1 1 1) })
    (lmLoc 5 0x300C) 4 i

/-- A gather or scatter through tensors 1, 2 and 3 of one row, from index 3 on, to or from row 5. -/
def rowRequest (kind : Nat) : CopyReq := request (toWord (kind + 2 ^ 8 + 2 * 2 ^ 16 + 2 ^ 56)) (toWord (3 + 3 * 2 ^ 32)) 5 1

theorem test_meets_gather_and_scatter :
    ∀ p ∈ [(2, 7), (3, 7), (2, 2 ^ 32 - 1)],
      let r := rowRequest p.1
      let idx := intTensor 0x3000 4 1 1 1
      CopyHead (tensors p.2 r) 5 1 3 1 r p.1 ∧ ((tensors p.2 r).tile 5).tensor (bits (r.w 1) 7 0) = idx ∧ bits (r.w 3) 31 0 = 1 ∧
      bits (r.w 1) 63 32 = 3 ∧ bits (r.w 2) 31 0 = 5 ∧ (tensors p.2 r).mem.read (lmLoc 5 (intOffset idx 3 0)) 4 = p.2 := by
  unfold CopyHead; decide +kernel

theorem test_meets_int_tensors :
    let s := tensors 7 (rowRequest 2)
    let src := (s.tile 5).tensor 1
    let dst := (s.tile 5).tensor 2
    recD src 0 = 1 ∧ recD dst 0 = 1 ∧ recRank (intTensor 0x3000 4 1 1 1) = 1 ∧ IntTensor (intTensor 0x3000 4 1 1 1) 3 0 ∧
    ∀ i ∈ [0, 5, 7], IntTensor src 0 i ∧ IntTensor dst 0 i := by unfold IntTensor; decide +kernel

theorem test_meets_reduce :
    let r := request (toWord (7 + 2 ^ 8 + 2 * 2 ^ 16 + 2 ^ 56)) (toWord (7 * 2 ^ 32)) (toWord (5 * 2 ^ 32)) (toWord (1 + 2 ^ 32))
    let s := tensors 0 r
    CopyHead s 5 1 3 1 r 7 ∧ bits (r.w 3) 31 0 = 1 ∧ bits (r.w 3) 63 32 = 1 ∧
    IntTensor ((s.tile 5).tensor (bits (r.w 0) 15 8)) (bits (r.w 1) 31 0) (bits (r.w 1) 63 32) ∧
    IntTensor ((s.tile 5).tensor (bits (r.w 0) 23 16)) (bits (r.w 2) 31 0) (bits (r.w 2) 63 32) := by
  unfold CopyHead IntTensor; decide +kernel

theorem test_meets_copy_events :
    let f := request (mb 6) 0 0 0
    let i := { request (mb 9) 0 0x100 1 with priv := true }
    let v := { request (toWord (31 * 2 ^ 51 + 2 ^ 56)) 0 0 0 with phase := .signalling, targets := [(5, none)] }
    let c := { request (mb 1) 0 0 0 with phase := .completing }
    let mail := fun n => (copying c).modNi (.facet 5 1) fun x => { x with mail := List.replicate n ⟨3, 0, 0, false, false⟩ }
    (CopyHead (copying f) 5 1 3 1 f 6 ∧ bits (f.w 1) 8 0 = 0) ∧
    (CopyHead (copying i) 5 1 3 1 i 9 ∧ i.priv = true ∧ (copying i).net = [] ∧ bit (i.w 2) 8 = true) ∧
    (((copying v).ni (.facet 5 1)).cq[1] = [v] ∧ bits (v.w 0) 55 51 = 31 ∧ bit (v.w 0) 56 = true ∧
      ((copying v).tile 5).sems[31].waiters = [] ∧ ((copying v).tile 5).sems[31].count.toNat < 65535) ∧
    ((mail 30).ni (.facet 5 1)).cq[1] = [c] ∧ bit (c.w 0) 57 = false ∧
    (((mail 30).ni (.facet 5 1)).mail.filter fun e => !e.reserve).length < 31 ∧
    31 ≤ (((mail 31).ni (.facet 5 1)).mail.filter fun e => !e.reserve).length := by unfold CopyHead; decide +kernel

theorem test_meets_port_request :
    let r := request (toWord (8 + 2 ^ 56 + 2 ^ 58)) 0x100 (toWord (12 + 0x40 * 2 ^ 32)) 0x4000
    let s := copying r
    (s.ni (.facet 5 1)).cq[1] = [r] ∧ r.words.length = 4 ∧ r.agent = .facet 5 1 3 ∧ r.phase = .queued ∧ s.freeze = false ∧
    bits (r.w 0) 7 0 = 8 ∧ bits (r.w 0) 31 27 = 0 ∧ bit (r.w 0) 56 = true ∧ bit (r.w 0) 58 = true ∧ r.after = [] ∧
    bits (r.w 2) 3 0 = 12 ∧ bits (r.w 3) 15 14 = 1 ∧ InBlock r (r.w 1).toNat (bits (r.w 2) 63 32) := by
  unfold InBlock; decide +kernel

theorem test_meets_quiesce :
    let s := issuing fa (regs [(2, 0)] kern)
    let r := { request (mb 1) 0 0 0 with phase := .signalling }
    let u := s.modNi (.facet 5 1) fun n => { n with cq := n.cq.set 0 [r] }
    s.c.kernel = true ∧ bit (s.c.getX 2) 0 = false ∧ (∀ q : Fin 2, ∀ r ∈ (s.ni (.facet 5 1)).cq[q], r.phase = .queued) ∧
    u.c.kernel = true ∧ (u.ni (.facet 5 1)).cq[0] = [r] ∧ r.phase = .signalling ∧ (issuing fa user).c.kernel = false := by
  decide +kernel

/-! ### Messages and the tag table -/

theorem test_meets_messages :
    let s := issuing fa (regs [(2, toWord (899 + 3 * 2 ^ 16 + 10 * 2 ^ 24)), (3, 0xEF_0001), (5, toWord (28 + 2 ^ 48)), (6, 900),
      (7, toWord (11 * 2 ^ 24)), (8, 0x7F_0000), (9, 0xF0_0000)] user)
    let w := s.c.getX 2
    let v := s.c.getX 3
    (3 : BitVec 5).toNat ≤ 30 ∧ bit w 63 = false ∧ bits w 9 0 < 900 ∧ bits w 27 24 ≤ 10 ∧ 0x80 ≤ bits v 23 16 ∧
    bits v 23 16 ≤ 0xEF ∧ s.c.spc = 0 ∧ RingFree s (.facet 5 1) ∧ (s.facet 5 1).fenced = false ∧ Releases s ∧
    ¬NothingOpen (busyNet s) s.cur ∧ bits (s.c.getX 5) 52 48 = 1 ∧ bits (s.c.getX 5) 60 56 = 0 ∧
    bits (s.c.getX 5) 9 0 % 30 < 29 ∧ 900 ≤ bits (s.c.getX 6) 9 0 ∧ 10 < bits (s.c.getX 7) 27 24 ∧
    bits (s.c.getX 8) 23 16 < 0x80 ∧ 0xEF < bits (s.c.getX 9) 23 16 ∧ (31 : BitVec 5).toNat = 31 := by
  unfold RingFree Releases NothingOpen; decide +kernel

theorem test_meets_message_delivery :
    let m := { toFacet 0x80_0000 7 with sender := some (.facet 7 0 2), ctx := 10 }
    let s := fun (gang : Option Nat) (n : Nat) => { ((issuing fa user).modTile 5 (fun t => { t with gang := gang })).modNi
      (.facet 5 1) (fun x => { x with mail := List.replicate n ⟨3, 0, 0, false, false⟩ }) with msgs := [m] }
    let takes := fun (s : State) => (s.tile 5).gang ≠ none ∧ (s.facet 5 1).fenced = false ∧
      (s.ni (.facet 5 1)).quiescing = false ∧ (s.tile 5).spilled = false ∧
      ((s.ni (.facet 5 1)).mail.filter fun e => !e.reserve).length < 31
    (s (some 0) 30).msgs = [m] ∧ (s (some 0) 30).net = [] ∧ m.ring = none ∧ m.refusals = [] ∧ m.ctx ≤ 10 ∧ takes (s (some 0) 30) ∧
    ¬takes (s (some 0) 31) ∧ ¬takes (s none 0) ∧ bit m.destWord 63 = false ∧ bits m.destWord 9 0 = 5 := by decide +kernel

theorem test_meets_mailbox :
    let s := issuing fa user
    let e : MailEntry := ⟨3, 1, 2, false, false⟩
    let x : MailEntry := ⟨4, 0, 0, false, false⟩
    let u := s.modNi (.facet 5 1) fun n => { n with mail := [x] ++ e :: [x] }
    let mine := fun (s : State) => (s.ni (ownerOf s.cur)).mail.filter fun e => e.ctx = ctxNo s.cur && !e.held
    mine s = [] ∧ mine u ≠ [] ∧ (30 : BitVec 5).toNat ≤ 30 ∧ (u.ni (ownerOf u.cur)).mail = [x] ++ e :: [x] ∧
    x.ctx ≠ ctxNo u.cur ∧ e.ctx = ctxNo u.cur ∧ (31 : BitVec 5).toNat = 31 := by decide +kernel

/-- The tile with one tag slot. -/
def tagged (n : Nat) (v : BitVec 32) (s : State) : State := onTile (fun t => { t with tags := t.tags.put n v }) s

theorem test_meets_tags :
    let s := issuing fa (regs [(2, 0x100), (3, 8), (4, 9), (5, 0x8_01FF), (6, 0x9_0000)] user)
    let key := fun (code : Nat) (va : Word) => BitVec.ofNat 32 (2 ^ 31 + code * 2 ^ 26 + va.toNat / 2 ^ (8 + code) % 2 ^ 26)
    let tags := fun (s : State) => (s.tile 5).tags
    let u := tagged 511 (key 8 0x100) s
    bits (s.c.getX 5) 19 16 ≤ 8 ∧ ((tags u).cells.map fun c => c.1).Nodup ∧ bits (s.c.getX 3) 3 0 ≤ 8 ∧
    (tags u).cells = [(511, key 8 0x100)] ∧ key 8 0x100 &&& ~~~0x4000_0000 = key (bits (s.c.getX 3) 3 0) (s.c.getX 2) ∧
    (∀ c ∈ (tags s).cells, c.2 &&& ~~~0x4000_0000 ≠ key (bits (s.c.getX 3) 3 0) (s.c.getX 2)) ∧
    (tags (tagged 511 0xC000_0000 s)).cells = (511, 0xC000_0000) :: [] ∧ bits (s.c.getX 5) 8 0 ≤ 511 ∧
    bit (0xC000_0000 : BitVec 32) 31 = true ∧ bit (0xC000_0000 : BitVec 32) 30 = true ∧
    (∀ c ∈ (tags u).cells, 511 ≤ c.1 → bit c.2 31 = false ∨ bit c.2 30 = false) ∧ 8 < bits (s.c.getX 6) 19 16 ∧
    8 < bits (s.c.getX 4) 3 0 := by decide +kernel

/-! ### Work queues and fault records -/

/-- A facet context of a bound gang of region 7, its registers naming queue 4095 (x3) and an address (x2). -/
def ganged (c : Ctx) : State := bound (aGang 1 1) (issuing fa (regs [(2, 0x3B_FFC0), (3, 4095)] c))

/-- An open queue of region 7 to which gangs may push and from which they may take. -/
def openQueue (n : Nat) : Queue := { Queue.initial with open_ := true, flags := 0x15, rid := 7, items := List.replicate n 1 }

/-- The state with queue 4095 as given. -/
def withQueue (q : Queue) (s : State) : State := { s with queues := s.queues.put 4095 q }

theorem test_meets_gang_region : GangRegion (withQueue (openQueue 0) (ganged user)) 5 7 :=
  ⟨255, aGang 1 1, by decide +kernel, by decide +kernel, by decide +kernel⟩

theorem test_meets_queue_push :
    let s := fun (q : Queue) => withQueue q (ganged user)
    let w : DeqWaiter := ⟨.facet 6 0 0, 4, lmLoc 6 0⟩
    let q := fun (q : Queue) => (s q).queue (bits ((s q).c.getX 3) 11 0)
    let slot := { openQueue 64 with scree := 0x1000_0000_0030_0000, quota := 1 }
    (∀ x ∈ [openQueue 63, { openQueue 0 with waiters := [w] }, openQueue 64, slot],
      (s x).cur = .facet 5 1 3 ∧ (s x).latch.rep = none ∧ q x = x ∧ x.open_ = true ∧ bit x.flags 2 = true ∧ Releases (s x)) ∧
    (openQueue 63).items.length < 64 ∧ w.agent ≠ (s slot).cur ∧ slot.items.length = 64 ∧ slot.scount < slot.quota ∧
    ((s slot).unitPa (slot.scree + toWord (64 * ((slot.shead + slot.scount) % slot.quota))) 1 |>.toOption) = some 0x30_0000 ∧
    (openQueue 64).quota ≤ (openQueue 64).scount ∧ (s slot).c.kt = false ∧ Queue.initial.open_ = false := by
  unfold Releases NothingOpen; decide +kernel

theorem test_meets_queue_item :
    LocalRead (ganged user) 5 0 0x3B_FFC0 64 ∧ LocalWrite (ganged user) 5 0 0x3B_FFC0 64 ∧
    (ganged user).c.getX 2 = 0x3B_FFC0 := by
  unfold LocalWrite LocalRead; decide +kernel

theorem test_meets_queue_take :
    let s := fun (q : Queue) => withQueue q (ganged user)
    let deep := { openQueue 64 with scree := 0x1000_0000_0030_0000, quota := 1, scount := 1 }
    (∀ x ∈ [openQueue 1, openQueue 0, deep],
      (s x).queue (bits ((s x).c.getX 3) 11 0) = x ∧ x.open_ = true ∧ bit x.flags 4 = true ∧ x.waiters = []) ∧
    (openQueue 1).items = 1 :: [] ∧ (openQueue 1).scount = 0 ∧ deep.scount = 0 + 1 ∧ deep.items.length = 64 ∧
    ((s deep).unitPa (deep.scree + toWord (64 * (deep.shead % deep.quota))) 0 |>.toOption) = some 0x30_0000 ∧ (openQueue 0).items = [] := by
  decide +kernel

theorem test_meets_queue_addresses :
    let s := issuing fa (regs [(2, 0x20), (3, 0xF000_0000_0180_0000)] user)
    (s.c.getX 2).toNat % 64 ≠ 0 ∧ (s.c.getX 3).toNat % 64 = 0 ∧ bits (s.c.getX 3) 63 60 = 15 := by decide +kernel

theorem test_meets_queue_stat_and_reset :
    let s := withQueue { openQueue 64 with scount := 2 ^ 32 - 1 } (ganged kern)
    let w : DeqWaiter := ⟨.facet 6 0 0, 4, lmLoc 6 0⟩
    let u := withQueue { openQueue 0 with waiters := [w] } (issuing fa (regs [(3, 4095)] kern))
    (s.queue 4095).items.length ≤ 64 ∧ (s.queue 4095).scount < 2 ^ 32 ∧ s.c.kernel = true ∧ s.c.getX 2 ≠ 0 ∧
    LocalRead s 5 0 (s.c.getX 2) 32 ∧ Releases s ∧ (s.queue 4095).waiters = [] ∧ u.c.getX 2 = 0 ∧ u.c.kernel = true ∧
    Releases u ∧ (u.queue 4095).waiters = [w] ∧ w.agent ≠ u.cur ∧ (ganged user).c.kernel = false := by
  unfold LocalRead Releases NothingOpen; decide +kernel

/-- The state with one fault record held. -/
def holding (s : State) : State := { s with mgmt := { s.mgmt with records := ⟨[6], 2 ^ 16⟩ } }

theorem test_meets_fault_record :
    let s := holding (issuing fa user)
    let u := { s with queues := s.queues.put 0 (openQueue 63) }
    s.mgmt.records.held = [6] ∧ (u.queue 0).open_ = true ∧ (u.queue 0).scount = 0 ∧ (u.queue 0).items.length < 64 ∧
    (u.queue 0).waiters = [] ∧ u.mgmt.records.held = [6] ∧ (s.queue 0).open_ = false ∧ (issuing fa user).mgmt.records.held = [] := by
  decide +kernel

/-! ### Cairn -/

/-- A shard with these elements on chip. -/
def shard (chip : List PoolElem) : Shard :=
  { chip := chip, scree := [], held := [], waits := [], admitted := 0, removed := 0, summary := ⟨none, none, 0, 0⟩ }

/-- A pool of region 7 that gangs use, with h = 2, p = q = 1. -/
def pool (shards : List Shard) : Pool :=
  { s := shards.length, h := 2, p := 1, q := 1, period := 1024, limit := 0, rid := 7, flags := 0x0A, scree := 0, quota := 0
    opened := 0, round := 0, threshold := none, shards := shards, counter := 9, tasks := 0, steals := [] }

/-- An element. -/
def elt (key : Word) : PoolElem := ⟨key, 1, 0, 0, 0⟩

/-- The gang's context with pool 63 as given. -/
def withPool (p : Pool) (s : State) : State := { s with pools := s.pools.put 63 p }

theorem test_meets_cairn_put :
    let s := fun (p : Pool) => withPool p (ganged user)
    let one := pool [shard [elt 3, elt 5]]
    let four := fun (n : Nat) => pool (List.replicate 4 { shard [] with admitted := n })
    let full := pool [shard (List.replicate 4096 (elt 3))]
    let i := fun (p : Pool) => (5 % 30 / 15 + 2 * (5 / 450) + 4 - 63 % 4) % 4 % min p.s 4 + 4 * (5 % max (p.s / 4) 1)
    (ganged user).pool 63 = none ∧ Releases (ganged user) ∧
    (∀ p ∈ [one, four 0, four 1], (s p).pool (63 : BitVec 6).toNat = some p ∧ bit p.flags 1 = true ∧ p.rid = 7 ∧
      (p.shards[i p]?).isSome = true) ∧
    ¬bit { one with flags := 0 }.flags 1 = true ∧ one.s = 1 ∧ one.shards[i one]? = some (shard [elt 3, elt 5]) ∧
    (four 0).p = 1 ∧ (0 : Nat) < (four 0).p ∧ (four 1).s ≠ 1 ∧ (four 1).p ≤ 1 ∧ 4096 + full.quota ≤ (List.replicate 4096 (elt 3)).length := by
  unfold Releases NothingOpen; decide +kernel

theorem test_meets_chip_in_order : ChipInOrder (pool [shard [elt 3, elt 5]]) (shard [elt 3, elt 5]) := by
  unfold ChipInOrder; decide +kernel

theorem test_meets_cairn_take :
    let s := fun (p : Pool) => withPool p (ganged user)
    let none_ := pool (List.replicate 4 (shard []))
    let seen := { shard [elt 3] with summary := ⟨some 3, none, 1, 0⟩ }
    let some_ := pool [shard [], shard [], seen, shard []]
    let at_ := fun (p : Pool) => (5 % 30 / 15 + 2 * (5 / 450) + 4 - 63 % 4) % 4 % min p.s 4 + 4 * (5 % max (p.s / 4) 1)
    (29 : BitVec 5).toNat ≤ 29 ∧ (s none_).pool 63 = some none_ ∧ bit none_.flags 3 = true ∧ none_.s ≠ 1 ∧
    none_.shards[at_ none_]? = some (shard []) ∧ (∀ y ∈ none_.shards, y.summary.count = 0) ∧ some_.shards[at_ some_]? = some (shard []) ∧
    some_.shards[2]? = some seen ∧ 0 < seen.summary.count ∧ seen.summary.least = some 3 ∧
    (∀ h, h < 4 → h ≠ 2 → (some_.shards[h]?).map (fun z => z.summary.least) = some none) := by decide +kernel

theorem test_meets_one_shard :
    OneShard (pool [shard [elt 3]]) (shard [elt 3]) ∧ OneShard (pool [shard []]) (shard []) ∧ (shard []).held = [] ∧
    (shard [elt 3]).chip = elt 3 :: [] := by unfold OneShard; decide +kernel

theorem test_meets_cairn_steal :
    let y : Steal := ⟨⟨fa, 4, true, 0⟩, 0, 15, true⟩
    let p := fun (x : Shard) (t : Option (Word × Nat)) => { pool (List.replicate 15 (shard []) ++ [x]) with steals := [y], threshold := t }
    let s := withPool (p (shard [elt 3]) none) (ganged user)
    s.pool 63 = some (p (shard [elt 3]) none) ∧ (p (shard []) none).steals = [y] ∧ (p (shard []) none).s ≠ 1 ∧
    (p (shard []) none).limit = 0 ∧ (p (shard [elt 3]) none).shards[y.victim]? = some (shard [elt 3]) ∧ y.victim < 16 ∧
    (shard [elt 3]).removed < (p (shard []) none).q ∧ (elt 3).key.toNat ≤ (3 : Word).toNat ∧ y.take.wait = true ∧
    (p (shard []) none).shards[y.from_]? = some (shard []) ∧ (p (shard []) none).threshold = none := by decide +kernel

theorem test_meets_cairn_stat :
    let p := pool (List.replicate 4 { shard [] with summary := ⟨some 1, some 2, 2 ^ 32 - 1, 3⟩ })
    let s := withPool p (ganged user)
    let sel := fun (b : Word) => bits b 5 4
    s.pool (63 : BitVec 6).toNat = some p ∧ sel 0x30 = 3 ∧ p.s ≠ 1 ∧ p.s * (p.h + p.p + p.q) < 2 ^ 16 ∧ (pool [shard []]).s = 1 ∧
    sel 0x04 ≠ 3 ∧ p.s ≤ bits (0x04 : Word) 3 0 ∧ bits (0x13 : Word) 3 0 < p.s ∧ sel 0x03 = 0 ∧ sel 0x13 = 1 ∧ sel 0x23 = 2 ∧
    (p.shards[3]?).map (fun x => decide (x.summary.count < 2 ^ 32)) = some true := by decide +kernel

theorem test_meets_cairn_open_and_close :
    let d := 1 + 1024 * 2 ^ 32 + 7 * 2 ^ 96
    let s := issuing fa (regs [(2, 0x3F_FFC0)] kern)
    let good := stored s (lmLoc 5 0x3F_FFC0) 64 d
    let w : PoolTake := ⟨.facet 6 0 0, 4, true, 0⟩
    let closing := withPool (pool [{ shard [] with waits := [w] }]) good
    s.c.kernel = true ∧ Releases s ∧ descOk (s.mem.read (lmLoc 5 0x3F_FFC0) 64) = false ∧
    descOk (good.mem.read (lmLoc 5 0x3F_FFC0) 64) = true ∧ good.pool 63 = none ∧ closing.pool 63 ≠ none ∧
    ((pool [{ shard [] with waits := [w] }]).shards.flatMap fun x => x.waits) = [w] ∧ w.agent ≠ closing.cur ∧
    Releases closing ∧ (issuing fa user).c.kernel = false := by unfold Releases NothingOpen; decide +kernel

theorem test_meets_descriptor_read : LocalRead (issuing fa kern) 5 0 0x3F_FFC0 64 := by unfold LocalRead; decide +kernel

theorem test_meets_round_boundary :
    let at_ := fun (now : Nat) (p : Pool) => { withPool p (ganged user) with now := now }
    let one := pool [shard [elt 3]]
    let w : PoolTake := ⟨fa, 4, true, 0⟩
    let four := pool [{ shard [] with waits := [w] }, shard [], shard [], shard []]
    (at_ 1023 one).pool 63 = some one ∧ ¬one.opened + one.period * (one.round + 1) ≤ (at_ 1023 one).now ∧
    one.opened + one.period * (one.round + 1) ≤ (at_ 1024 one).now ∧ (shard [elt 3]).waits = [] ∧
    four.opened + four.period * (four.round + 1) ≤ (at_ 1024 four).now ∧
    (∀ x ∈ four.shards, x.chip = [] ∧ x.scree = [] ∧ x.held = []) ∧ (four.shards.flatMap fun x => x.waits) = [w] := by
  decide +kernel

/-! ### Task graphs -/

/-- The gang's context with its ready pool 3 as given, and its tile's arena from 0x1000 to 0x2000. -/
def tasked (p : Pool) (c : Ctx) : State :=
  let s := bound (aGang 1 1) (issuing fa c)
  stored { s with pools := s.pools.put 3 p } (lmLoc 5 0x3F_F100) 8 (0x1000 + 0x2000 * 2 ^ 32)

theorem test_meets_no_task_waits : NoTaskWaits (tasked (pool [shard []]) user) := by
  intro u
  simp only [State.tile, Table.get, tasked, bound, stored, onTile, State.modTile, issuing, State.setCtx, State.reset, Table.put,
    Table.empty, erase, insertKey, lookup]
  split <;> rfl

theorem test_meets_pool_gang (p : Pool) (x : Shard) (h : OneShard p x) (e : x.held = []) (t : NoTaskWaits (tasked p user)) :
    PoolGang (tasked p user) 5 255 (aGang 1 1) p x :=
  ⟨rfl, rfl, rfl, by decide, by decide, rfl, h, e, t⟩

/-- A pool as it stands with n tasks in flight. -/
def flying (n : Nat) (p : Pool) : Pool := { p with tasks := n }

/-- A TCB at 0x1000_0000_0030_0000, in memory at 0x30_0000, of a state, a type 63, priority 0 and pool 3. -/
def tcbIn (state nsucc jptr : Nat) (s : State) : State :=
  stored (stored s 0x30_0008 8 jptr) 0x30_0010 6 (state + 63 * 2 ^ 16 + nsucc * 2 ^ 32 + 3 * 2 ^ 40)

/-- Its address. -/
def tcbAt : Word := 0x1000_0000_0030_0000

theorem test_meets_task_next :
    let p := pool [shard [{ elt 3 with payload := tcbAt }]]
    let s := stored (tcbIn 1 0 0 (tasked p (regs [(2, 0), (3, 1)] user))) (lmLoc 5 0x3F_F23C) 4 (2 ^ 31 + 0x1000)
    let empty := flying 1 (pool [shard []])
    let behind := stored (stored (tasked empty user) (lmLoc 5 0x3F_F108) 8 0x80) (lmLoc 5 0x3F_F110) 4 0x1001
    let held := stored s (recordLoc 5 (0x3A0 + 8 * 14)) 8 0x80
    (26 : BitVec 5).toNat ≤ 26 ∧ 26 < (27 : BitVec 5).toNat ∧ (s.tile 5).gang = some 255 ∧ s.gangs.find 255 = some (aGang 1 1) ∧
    (aGang 1 1).pool ≠ 0xFF ∧ recordAt s 5 (0x3A0 + 8 * 14) 8 = 0 ∧ recordAt held 5 (0x3A0 + 8 * 14) 8 ≠ 0 ∧
    recordAt s 5 0x108 8 = 0 ∧ (∀ i, i < 44 → recordAt s 5 (0x3A0 + 8 * i) 8 = 0) ∧
    (s.unitPa tcbAt 2).toOption = some 0x30_0000 ∧ s.mem.read (0x30_0000 + 18) 1 = 63 ∧
    2 ^ 31 ≤ recordAt s 5 (0x140 + 4 * 63) 4 ∧
    recordAt s 5 0x100 4 + (recordAt s 5 (0x140 + 4 * 63) 4 % 2 ^ 22 + 255) / 256 * 256 ≤ recordAt s 5 0x104 4 ∧
    (pool [shard []]).tasks = 0 ∧ empty.tasks ≠ 0 ∧ bit (s.c.getX 2) 0 = false ∧ bit (s.c.getX 3) 0 = true ∧
    recordAt behind 5 0x108 8 ≠ 0 ∧ recordAt behind 5 0x104 4 < recordAt behind 5 0x100 4 + recordAt behind 5 0x110 4 := by
  decide +kernel

theorem test_meets_gang_without_a_pool :
    let g := { aGang 1 1 with pool := 0xFF }
    ((bound g (issuing fa user)).tile 5).gang = some 255 ∧ (bound g (issuing fa user)).gangs.find 255 = some g := by decide +kernel

/-- The gang's context with x2 the TCB and x3 the counters, which its tile's cache reaches. -/
def tcbRun (state nsucc jptr : Nat) (x3 : Word) (p : Pool) : State :=
  (tcbIn state nsucc jptr (tasked p (regs [(2, tcbAt), (3, x3), (4, 0x1000_0000_0030_0040)] user))).modTile 5
    fun t => { t with tlb := [⟨0, 0x1000_0000_0030, 0x30, 0xF⟩] }

theorem test_meets_finds_tcb : FindsTcb (tcbRun 3 0 0 0 (pool [shard []])) tcbAt 0x30_0000 :=
  ⟨by decide, by decide, by decide, by decide +kernel, by decide⟩

theorem test_meets_task_done :
    let p := flying 1 (pool [shard []])
    let hold := fun (s : State) => stored s (recordLoc 5 (0x3A0 + 8 * 14)) 8 tcbAt.toNat
    let none_ := hold (tcbRun 3 0 0 0 p)
    let both := hold (tcbRun 3 1 0x1000_0000_0030_1000 0 p)
    let queued := { none_ with queues := none_.queues.put 1 (openQueue 63) }
    (none_.c.getX 2).toNat % 128 = 0 ∧ (none_.c.getX 4).toNat % 128 ≠ 0 ∧ Releases none_ ∧
    recordAt none_ 5 (0x3A0 + 8 * 14) 8 = (none_.c.getX 2).toNat ∧
    recordAt (tcbRun 3 0 0 0 p) 5 (0x3A0 + 8 * 14) 8 ≠ (none_.c.getX 2).toNat ∧ none_.mem.read (0x30_0000 + 20) 1 = 0 ∧
    none_.mem.read (0x30_0000 + 8) 8 = 0 ∧ both.mem.read (0x30_0000 + 20) 1 = 1 ∧ both.mem.read (0x30_0000 + 8) 8 ≠ 0 ∧
    (queued.queue (aGang 1 1).fq).open_ = true ∧ (queued.queue 1).rid = (aGang 1 1).rid ∧ (queued.queue 1).scount = 0 ∧
    (queued.queue 1).items.length < 64 ∧ (queued.queue 1).waiters = [] := by unfold Releases NothingOpen; decide +kernel

theorem test_meets_task_rearm_and_spawn :
    let p := pool [shard [elt 3]]
    let s := fun (state jptr : Nat) (v : Word) => tcbRun state 0 jptr v p
    let closed := { s 4 0 0 with pools := Table.empty }
    let state := fun (s : State) => s.mem.read (0x30_0000 + 16) 1
    Releases (s 4 0 0) ∧ state (s 4 0 0) = 4 ∧ state (s 5 0 0) = 5 ∧ state (s 0 0 0) = 0 ∧
    closed.pool (closed.mem.read (0x30_0000 + 21) 1) = none ∧ HoldsRecord closed ∧ state (s 3 0 0) = 3 ∧
    ((s 0 0 1).c.getX 3).toNat % 2 ^ 63 ≠ 0 ∧ bit ((s 0 0 1).c.getX 3) 63 = false ∧
    ((s 0 0 0x8000_0000_0000_0001).c.getX 3).toNat % 2 ^ 63 ≠ 0 ∧ bit ((s 0 0 0x8000_0000_0000_0001).c.getX 3) 63 = true ∧
    (s 0 0x1000_0000_0030_0080 0).mem.read (0x30_0000 + 8) 8 = 0x1000_0000_0030_0080 ∧ 0x1000_0000_0030_0080 % 128 = 0 ∧
    ((s 0 0 0).unitPa (toWord 0x1000_0000_0030_0080) 2).toOption = some 0x30_0080 ∧ 0x30_0000 + 128 ≤ 0x30_0080 ∧
    (s 0 0 0).c.getX 3 = 0 := by unfold Releases NothingOpen HoldsRecord; decide +kernel

theorem test_meets_pool_takes (h : NoTaskWaits (tcbRun 4 0 0 0 (pool [shard [elt 3]]))) :
    PoolTakes (tcbRun 4 0 0 0 (pool [shard [elt 3]])) 0x30_0000 :=
  ⟨pool [shard [elt 3]], shard [elt 3], by decide +kernel, by unfold OneShard; decide +kernel, by unfold ChipInOrder; decide +kernel, h⟩

theorem test_meets_tcb_tasks_do_not_wait : NoTaskWaits (tcbRun 4 0 0 0 (pool [shard [elt 3]])) := by
  intro u
  simp only [State.tile, Table.get, tcbRun, tcbIn, tasked, bound, stored, onTile, State.modTile, issuing, State.setCtx, State.reset,
    Table.put, Table.empty, erase, insertKey, lookup]
  by_cases h : 5 = u <;> simp [h, insertKey, lookup] <;> rfl

theorem test_meets_task_decrement :
    let s := fun (ready pend state : Nat) (last : Option Nat) => stored { tcbRun state 0 0 0 (pool [shard []]) with
      taskUnits := (Vector.replicate 4 []).set 3 [⟨8, fa, tcbAt, true, last⟩] } 0x30_0000 8 (pend + ready * 2 ^ 32)
    (∀ x ∈ [s 1 0 0 none, s 2 0 0 none, s 1 1 0 (some 3)], (x.unitPa tcbAt 2).toOption = some 0x30_0000) ∧
    (s 1 0 0 none).taskUnits[3] = ⟨8, fa, tcbAt, true, none⟩ :: [] ∧ (s 1 0 0 none).mem.read (0x30_0000 + 4) 4 = 1 ∧
    (s 1 0 0 none).mem.read (0x30_0000 + 4 - 4) 4 = 0 ∧ (s 1 0 0 none).mem.read (0x30_0000 + 16) 1 = 0 ∧
    (s 2 0 0 none).mem.read (0x30_0000 + 4) 4 ≠ 1 ∧ (s 1 1 0 (some 3)).mem.read 0x30_0000 4 ≠ 0 ∧
    (s 1 1 0 (some 3)).pool 3 = some (pool [shard []]) := by decide +kernel

/-! ### Gangs -/

/-- A crest context of core 2 at kernel privilege whose cache holds the page at 0x1000_0000_0030_0000, with x2 in it. -/
def crest (c : Ctx) : State :=
  (issuing cr c).modTile 1002 fun t => { t with tlb := [⟨0, 0x1000_0000_0030, 0x30, 0xF⟩] }

/-- A launch record for a gang of w by h tiles, of region control block rcb. -/
def launchRecord (w h rcb : Nat) : Vec :=
  BitVec.ofNat 512 (0x1000_0000_0032_0000 + 64 * 2 ^ 64 + rcb * 2 ^ 128 + 0x1000 * 2 ^ 256 + 0x3C_0000 * 2 ^ 288 + w * 2 ^ 320 +
    h * 2 ^ 328 + 0xFF * 2 ^ 360)

/-- A launch of that record. -/
def aLaunch (r : Vec) (checked : Bool) : Launch :=
  { ticket := 1, core := 2, ctx := 1, rec_ := r, checked := checked, rid := 7, budget := 1, fdom := 0, fq := 0
    terms := ⟨0, 0, 0x40_0000, 0, 0⟩, image := List.replicate 64 0xFF, tensors := [], types := [] }

/-- The state with launches at dispatch unit 0. -/
def launching (l : List Launch) (s : State) : State := { s with dispatch := s.dispatch.set 0 ⟨l, 1, []⟩ }

theorem test_meets_gang_launch :
    let s := crest (regs [(2, 0x1000_0000_0030_0040), (3, 0x20)] kern)
    (s.c.getX 2).toNat % 64 = 0 ∧ (s.c.getX 3).toNat % 64 ≠ 0 ∧ bits (s.c.getX 2) 63 60 ≠ 0 ∧ bits (s.c.getX 2) 63 60 ≠ 15 ∧
    s.check s.cur 0 (s.c.getX 2) 64 0 true = .ok (.loc 0x30_0040) ∧ Releases s ∧ s.softErrors = [] ∧
    (s.dispatch[0]).launches.length < 16 ∧ s.mgmt.crashed = false ∧ (issuing cr user).c.kernel = false ∧
    (issuing fa kern).cur = .facet 5 1 3 ∧ (issuing fa kern).c.kernel = true ∧
    16 ≤ ((launching (List.replicate 16 (aLaunch 0 false)) s).dispatch[0]).launches.length := by
  unfold Releases NothingOpen; decide +kernel

theorem test_meets_gang_exit :
    let s := bound (aGang 1 1) (issuing f0 user)
    let owns := fun (s : State) (m : Fin 16) => (s.tile 5).mutexes[m].owner = some (BitVec.ofNat 6 (16 * 1))
    let held := fun (s : State) => recordAt s 5 (0x3A0 + 88 * 1) 8
    let beads := fun (s : State) => ∃ k : Fin 11, k ≠ 0 ∧ (s.ctx (.facet 5 1 k)).run ≠ .notLive
    (∀ m, ¬owns s m) ∧ owns (mutex (some 0x10) [] s) 15 ∧ (∀ j : Fin 16, j < 15 → ¬owns (mutex (some 0x10) [] s) j) ∧ held s = 0 ∧
    held (stored s (recordLoc 5 (0x3A0 + 88)) 8 0x80) ≠ 0 ∧ ¬beads s ∧ beads (s.setCtx (.facet 5 1 10) user) ∧
    Releases s ∧ (s.tile 5).gang = some 255 ∧ s.gangs.find 255 = some (aGang 1 1) ∧ OneTile (aGang 1 1) 5 ∧
    (∀ h : Fin 4, h ≠ 1 → (s.ctx (.facet 5 h 0)).run = .notLive) ∧
    ¬(∀ h : Fin 4, h ≠ 1 → ((s.setCtx (.facet 5 2 0) user).ctx (.facet 5 h 0)).run = .notLive) ∧
    ((issuing f0 user).tile 5).gang = none := by unfold Releases NothingOpen OneTile; decide +kernel

theorem test_meets_launch_check :
    let good := launchRecord 30 30 0x1000_0000_0031_0000
    let s := fun (budget : Nat) => launching [aLaunch good false] (stored (stored (issuing cr kern) 0x31_0008 8 0xFF) 0x31_0010 4 budget)
    let root := fun (s : State) => (s.unitPa (toWord (recBytes good 16 8)) 0).toOption = some 0x31_0000
    (s 900).dispatch[0].launches = [aLaunch good false] ∧ (aLaunch good false).checked = false ∧ (s 900).freeze = false ∧
    PlainLaunch good ∧ recBytes good 16 8 ≠ 0 ∧ recBytes good 16 8 % 128 = 0 ∧ root (s 900) ∧ (s 900).mem.read 0x31_0000 8 = 0 ∧
    (s 900).mem.read (0x31_0000 + 8) 1 = 0xFF ∧ ((s 900).unitPa (toWord (recBytes good 0 8)) 0).toOption = some 0x32_0000 ∧
    0 < recBytes good 8 4 ∧ recBytes good 0 8 % 0x10000 + recBytes good 8 4 ≤ 0x10000 ∧ (s 900).signet.rsg = false ∧
    recBytes good 40 1 * recBytes good 41 1 ≤ (s 900).mem.read (0x31_0000 + 16) 4 ∧
    (s 899).mem.read (0x31_0000 + 16) 4 < recBytes good 40 1 * recBytes good 41 1 ∧ recBytes (launchRecord 0 1 0) 40 1 = 0 ∧
    30 < recBytes (launchRecord 31 1 0) 40 1 ∧ PlainLaunch (launchRecord 1 1 0) ∧ recBytes (launchRecord 1 1 0) 16 8 = 0 := by
  unfold PlainLaunch; decide +kernel

theorem test_meets_gang_bind :
    let x := aLaunch (launchRecord 1 1 0x1000_0000_0031_0000) true
    let s := launching [x] (issuing cr kern)
    let r := x.rec_
    s.dispatch[0].launches = [x] ∧ x.checked = true ∧ s.freeze = false ∧ s.mgmt.mapFail = false ∧
    (899 : Fin 900).val = (29 : Fin 30).val * 30 + (29 : Fin 30).val ∧ PlainLaunch r ∧ recBytes r 40 1 = 1 ∧ recBytes r 41 1 = 1 ∧
    1 ≤ x.budget ∧ x.image.length ≤ recBytes r 36 4 - recBytes r 32 4 ∧ x.tensors = [] ∧ s.gangs.cells = [] ∧
    (s.tile 899).gang = none ∧ (s.tile 899).lasting = false ∧
    ((s.modTile 899 fun t => { t with lasting := true }).tile 899).lasting = true := by unfold PlainLaunch; decide +kernel

theorem test_meets_gang_end :
    let s := bound (aGang 1 1) (issuing cr kern)
    let live := s.setCtx (.facet 5 3 0) user
    let done := fun (s : State) => (∀ f : Fin 4, (s.ctx (.facet 5 f 0)).run = .notLive) ∧
      ∀ (f : Fin 4) (q : Fin 2), (s.ni (.facet 5 f)).cq[q] = []
    s.gangs.find (255 : Fin 256).val = some (aGang 1 1) ∧ OneTile (aGang 1 1) 5 ∧ (aGang 1 1).unit_ = (2 : Fin 4).val ∧
    (aGang 1 1).core < 32 ∧ (aGang 1 1).ctx < 2 ∧ done s ∧ ¬done live := by unfold OneTile; decide +kernel

theorem test_meets_dispatch_message :
    let s := { issuing cr kern with dispatch := (issuing cr kern).dispatch.set 3 ⟨[], 0, [⟨2, 1, 0xF1_0000, 0⟩]⟩ }
    let mail := fun n => s.modNi (.crest 2) fun x => { x with mail := List.replicate n ⟨1, 0, 0, false, false⟩ }
    let room := fun (s : State) => ((s.ni (.crest 2)).mail.filter fun e => !e.reserve).length < 32
    s.dispatch[3].out = [⟨2, 1, 0xF1_0000, 0⟩] ∧ room (mail 31) ∧ ¬room (mail 32) := by decide +kernel

theorem test_meets_quantum_start :
    let s := stored (bound (aGang 1 1) (issuing cr kern)) 0x31_0008 8 0xFF
    s.gangs.find 255 = some (aGang 1 1) ∧ (s.unitPa (aGang 1 1).rcb 0).toOption = some 0x31_0000 ∧ s.mem.read 0x31_0000 8 = 0 ∧
    s.mem.read (0x31_0000 + 8) 1 = 0xFF ∧ ∀ v : Fin 4, s.dispatch[v].launches = [] := by decide +kernel

/-! ### The bridge and bytecode -/

/-- Does core k reach n bytes at va, at pa? -/
def reaches (s : State) (k : Fin 32) (va : Word) (n pa : Nat) : Bool :=
  bits va 63 60 ≠ 0 && bits va 63 60 ≠ 15 && va.toNat % 0x10000 + n ≤ 0x10000 && pa + n ≤ Config.hbmBytes &&
    match tlbFind (s.tile (1000 + k.val)).tlb s.c.spc (va.toNat / 0x10000) with
    | some l => l.perms &&& 0xB = 0xB && l.pa va = pa
    | none => false

theorem reach_of {s : State} {k : Fin 32} {va : Word} {n pa : Nat} (h : reaches s k va n pa = true) : Reach s k va n pa := by
  simp only [reaches, Bool.and_eq_true, decide_eq_true_eq] at h
  obtain ⟨⟨⟨⟨h1, h2⟩, h3⟩, h4⟩, h5⟩ := h
  refine ⟨h1, h2, h3, h4, ?_⟩
  split at h5
  · rename_i l hl
    simp only [Bool.and_eq_true, decide_eq_true_eq] at h5
    exact ⟨l, hl, h5⟩
  · cases h5

/-- The address of an offset in the page that the crest context reaches at 0x30_0000. -/
def pageAt (off : Nat) : Word := 0x1000_0000_0030_0000 + toWord off

/-- The crest state with words of 8 bytes at offsets in that page. -/
def filled (l : List (Nat × Nat)) (s : State) : State := l.foldl (fun s p => stored s (0x30_0000 + p.1) 8 p.2) s

theorem crest_runs_of {s : State} {k : Fin 32} {c : Fin 2}
    (h : s.cur = .crest k c ∧ s.latch.rep = none ∧ s.c.spc = 0 ∧ (s.tile (1000 + k.val)).tlb.length ≤ 64 ∧ s.softErrors = [] ∧
      s.net = [] ∧ s.msgs = []) : CrestRuns s k c := by
  obtain ⟨h1, h2, h3, h4, h5, h6, h7⟩ := h
  exact ⟨h1, h2, h3, h4, h5, fun home => by simp [State.homeBusy, h6, h7]⟩

theorem test_meets_crest_runs : CrestRuns (crest kern) 2 1 ∧ CrestRuns (crest user) 2 1 :=
  ⟨crest_runs_of (by decide +kernel), crest_runs_of (by decide +kernel)⟩

theorem test_meets_cache_entries :
    let s := crest (regs [(2, pageAt 0xFFF0), (3, pageAt 8)] user)
    ((s.c.getX 2).toNat % 16 = 0 ∧ Reach s 2 (s.c.getX 2) 16 0x30_FFF0) ∧ Releases s ∧ (30 : BitVec 5).toNat < 31 ∧
    (s.c.getX 3).toNat % 16 ≠ 0 ∧ (31 : BitVec 5).toNat = 31 ∧ (issuing fa user).cur = .facet 5 1 3 :=
  ⟨⟨by decide +kernel, reach_of (by decide +kernel)⟩, by unfold Releases NothingOpen; decide +kernel, by decide, by decide +kernel,
    by decide, by decide +kernel⟩

/-- An object at offset 0x5000 of a count, hold, kind, zombie bit and second doubleword, named by x2; x3 as given. -/
def anObject (count hold kind z second : Nat) (x3 : Word) (c : Ctx) : State :=
  filled [(0x5000, 1 + count * 2 ^ 32), (0x5008, 4 + z * 2 ^ 32 + kind * 2 ^ 40 + hold * 2 ^ 48), (0x5010, second)]
    (crest (regs [(2, pageAt 0x5001), (3, x3)] c))

theorem test_meets_object : Obj (anObject 1 1 9 0 0 0 user) 2 (pageAt 0x5001) 24 0x30_5000 :=
  ⟨by decide, reach_of (by decide +kernel)⟩

theorem test_meets_holds_and_versions :
    let s := fun (hold z kind second : Nat) (x3 : Word) => anObject 1 hold kind z second x3 user
    let next := fun (s : State) => (s.mem.read (0x30_5000 + 14) 2 : Int) + signedOf 16 (bits (s.c.getX 3) 15 0)
    let zombie := fun (s : State) => s.mem.read (0x30_5000 + 12) 1 % 2 = 1
    Plain (0x02 : Word) ∧ Releases (s 0 0 0 0 0) ∧ next (s 0 0 9 0 0xFFFF) < 0 ∧
    0xFFFF < next (s 0xFFFF 0 9 0 1) ∧ 0 < next (s 0 0 9 0 1) ∧ next (s 0xFFFE 0 9 0 1) ≤ 0xFFFF ∧ next (s 1 0 9 0 0xFFFF) = 0 ∧
    ¬zombie (s 1 0 9 0 0xFFFF) ∧ next (s 1 1 9 0 0xFFFF) = 0 ∧ zombie (s 1 1 9 0 0xFFFF) ∧
    ((s 1 1 9 0 0).relq 2).count = 0 ∧ ((s 1 1 9 0 0).relq 2).chip.length < 64 ∧
    (s 0 0 9 0 0).mem.read (0x30_5000 + 13) 1 ≠ 0x0B ∧ (s 0 0 0x0B 1 0).mem.read (0x30_5000 + 16) 8 % 2 = 1 ∧
    (s 0 0 0x0B 0 0).mem.read (0x30_5000 + 13) 1 = 0x0B ∧ (s 0 0 0x0B 0 0).mem.read (0x30_5000 + 16) 8 % 2 = 0 := by
  unfold Releases NothingOpen Plain; decide +kernel

/-- The state with the release queue of core 2 as given. -/
def releasing (q : ReleaseQueue) (s : State) : State := { s with relqs := s.relqs.put 2 q }

theorem test_meets_release_queues :
    let q : ReleaseQueue := { ReleaseQueue.initial with base := pageAt 0x7000, quota := 1 }
    let s := releasing { q with chip := [0x11], count := 1 } (crest user)
    let o := fun (count hold : Nat) => anObject count hold 9 0 0 0 user
    let count := fun (s : State) => s.mem.read (0x30_5000 + 4) 4
    (s.relq 2).chip = 0x11 :: [] ∧ (s.relq 2).count = 1 ∧
    (s.unitPa ((s.relq 2).base + toWord (8 * ((s.relq 2).head % (s.relq 2).quota))) 0).toOption = some 0x30_7000 ∧
    ((crest user).relq 2).chip = [] ∧ ((crest user).relq 2).count = 0 ∧ ((crest user).relq 2).chip.length ≤ 64 ∧
    Releases (o 1 0) ∧ Plain (0 : Word) ∧ count (o (2 ^ 32 - 1) 0) = 2 ^ 32 - 1 ∧ 1 < count (o 2 0) ∧
    count (o (2 ^ 32 - 2) 0) < 2 ^ 32 - 1 ∧ count (o 1 1) = 1 ∧ (o 1 1).mem.read (0x30_5000 + 14) 2 ≠ 0 ∧
    (o 1 0).mem.read (0x30_5000 + 14) 2 = 0 := by unfold Releases NothingOpen Plain; decide +kernel

theorem test_meets_release_queue_config :
    let s := filled [(0x100, 0x1000_0000_0030_7000), (0x108, 2 ^ 24), (0x110, 0x1000_0000_0030_7008)]
      (crest (regs [(2, pageAt 0x100), (3, pageAt 0x110)] kern))
    let good := fun (s : State) (at_ : Nat) => let base := s.mem.read at_ 8; let quota := s.mem.read (at_ + 8) 4
      (s.relq 2).chip = [] ∧ (s.relq 2).count = 0 ∧ quota ≤ 2 ^ 24 ∧ base % 64 = 0 ∧ 0 < base / 2 ^ 60 ∧ base / 2 ^ 60 < 15
    (good s 0x30_0100 ∧ ¬good s 0x30_0110 ∧ s.c.kernel = true ∧ (s.c.getX 2).toNat % 16 = 0 ∧ (s.c.getX 3).toNat % 16 = 0 ∧
      (crest user).c.kernel = false) ∧
    Releases s ∧ Reach s 2 (s.c.getX 2) 16 0x30_0100 ∧ Reach s 2 (s.c.getX 3) 16 0x30_0110 :=
  ⟨by decide +kernel, by unfold Releases NothingOpen; decide +kernel, reach_of (by decide +kernel), reach_of (by decide +kernel)⟩

theorem test_meets_hold_release :
    ∀ p ∈ [(1, 2, 0), (2, 2, 0), (2, 2, 1), (3, 2, 0)],
      let m : Message := { toFacet (toWord (p.1 + 0xE0 * 2 ^ 16)) (pageAt 0x5001) with sender := none, dest := .crest 2 }
      let s := { anObject 1 p.2.1 9 p.2.2 0 0 user with msgs := [m] }
      s.msgs = [m] ∧ s.net = [] ∧ m.dest = .crest 2 ∧ m.sender = none ∧ bits m.lo 23 16 = 0xE0 ∧ bits m.hi 3 0 = 1 ∧
      (s.unitPa (m.hi - 1) 2).toOption = some 0x30_5000 ∧ 0 < bits m.lo 15 0 ∧ bits m.lo 15 0 = p.1 ∧
      s.mem.read (0x30_5000 + 14) 2 = p.2.1 ∧ s.mem.read (0x30_5000 + 12) 1 % 2 = p.2.2 ∧ (s.relq 2).count = 0 := by
  decide +kernel

/-- The descriptor at offset 0 of the page: 256 bytes of code at 0x9000, 300 constants at 0x3000, 16 registers of which 2 are
parameters, 8 cache slots at 0x4000. -/
def aDesc : Desc :=
  { code := (pageAt 0x9000).toNat, clen := 0x100, pool := pageAt 0x3000, npool := 300, nframe := 16, nparam := 2
    ictab := pageAt 0x4000, nic := 8 }

/-- A crest context in a function of that descriptor, its frame at 0x1000, its runtime block at 0x2000, its handlers at 0x6000. -/
def inBytecode (l : List (Nat × Nat)) : State :=
  filled ([(0, (pageAt 0x9000).toNat), (8, 0x100), (16, (pageAt 0x3000).toNat), (24, 300 + 16 * 2 ^ 32 + 2 * 2 ^ 48),
    (32, (pageAt 0x4000).toNat), (40, 8)] ++ l)
    (crest { regs [(18, pageAt 0x1000), (19, pageAt 0x9000), (20, pageAt 0), (21, pageAt 0x2000), (22, pageAt 0x6000),
      (28, pageAt 0x2000)] user with bytecode := true })

theorem bytecode_of (l : List (Nat × Nat)) (h1 : CrestRuns (inBytecode l) 2 1) (h2 : reaches (inBytecode l) 2 (pageAt 0) 48 0x30_0000 = true)
    (h3 : (inBytecode l).c.xn 20 = pageAt 0 ∧ (inBytecode l).c.xn 18 = pageAt 0x1000)
    (h4 : aDesc = { code := (inBytecode l).mem.read 0x30_0000 8, clen := (inBytecode l).mem.read (0x30_0000 + 8) 4
                    pool := toWord ((inBytecode l).mem.read (0x30_0000 + 16) 8), npool := (inBytecode l).mem.read (0x30_0000 + 24) 4
                    nframe := (inBytecode l).mem.read (0x30_0000 + 28) 2, nparam := (inBytecode l).mem.read (0x30_0000 + 30) 1
                    ictab := toWord ((inBytecode l).mem.read (0x30_0000 + 32) 8), nic := (inBytecode l).mem.read (0x30_0000 + 40) 4 })
    (h5 : reaches (inBytecode l) 2 (pageAt 0x1000) 2048 0x30_1000 = true) : Bytecode (inBytecode l) 2 1 aDesc 0x30_1000 := by
  refine ⟨h1, ?_, ?_, ?_⟩
  · rw [h3.1]; exact ⟨0x30_0000, by decide, reach_of h2, h4⟩
  · rw [h3.2]; decide
  · rw [h3.2]; exact reach_of h5

theorem test_meets_bytecode : Bytecode (inBytecode []) 2 1 aDesc 0x30_1000 :=
  bytecode_of [] (crest_runs_of (by decide +kernel)) (by decide +kernel) (by decide +kernel) (by decide +kernel) (by decide +kernel)

theorem test_meets_enter_and_resume :
    let s := filled [(0x5010, (pageAt 0).toNat), (0x8000, 0x26), (0x8008, 0x27)]
      ((inBytecode [(0x5000, 1 + 2 ^ 32), (0x5008, 4 + 8 * 2 ^ 40)]).mod
        (regs [(2, pageAt 0x5001), (3, pageAt 0x1020), (4, pageAt 4), (5, pageAt 0x8001), (6, pageAt 0x8009), (7, 2)]))
    let x := s.c.getX
    let d := aDesc
    ((x 4).toNat % 8 ≠ 0 ∧ (x 3).toNat % 8 = 0 ∧ Plain (x 7) ∧ s.mem.read (0x30_5000 + 13) 1 = 0x08 ∧
      (x 3).toNat + 8 * d.nframe ≤ (s.c.xn 21).toNat ∧ d.nparam ≤ d.nframe ∧ bit (x 5) 0 = true ∧ bit (x 4) 0 = false ∧
      s.mem.read 0x30_8000 1 < 0x27 ∧ 0x27 ≤ s.mem.read 0x30_8008 1 ∧
      (pageAt 0x2000).toNat < (pageAt 0x1FF8).toNat + 8 * d.nframe) ∧
    Obj s 2 (x 2) 24 0x30_5000 ∧ Reach s 2 (x 3 - 32) (32 + 8 * d.nframe) 0x30_1000 ∧ Reach s 2 (x 5 - 1) 1 0x30_8000 ∧
    Reach s 2 (x 6 - 1) 1 0x30_8008 ∧ toWord (s.mem.read (0x30_5000 + 16) 8) = s.c.xn 20 :=
  ⟨by unfold Plain; decide +kernel, ⟨by decide +kernel, reach_of (by decide +kernel)⟩, reach_of (by decide +kernel),
    reach_of (by decide +kernel), reach_of (by decide +kernel), by decide +kernel⟩

/-- What leaving bytecode mode needs: the runtime block, whose vector is a multiple of 4. -/
theorem test_meets_leaving :
    let s := inBytecode [(0x2000, (pageAt 0xA000).toNat)]
    ((s.c.xn 28).toNat % 8 = 0 ∧ s.mem.read 0x30_2000 8 % 4 = 0) ∧ Reach s 2 (s.c.xn 28) 64 0x30_2000 :=
  ⟨by decide +kernel, reach_of (by decide +kernel)⟩

theorem test_meets_bytecode_operands :
    let d := aDesc
    let s := inBytecode []
    let w := fun (n : Nat) => (BitVec.ofNat 32 n : Insn)
    ((15 : BitVec 8).toNat < d.nframe ∧ d.nframe ≤ (16 : BitVec 8).toNat ∧ (299 : BitVec 16).toNat < d.npool ∧
      d.npool ≤ (300 : BitVec 16).toNat ∧ 255 + 256 * 0 < d.npool ∧ d.nic ≤ (8 : BitVec 16).toNat ∧ (7 : BitVec 16).toNat < d.nic ∧
      (d.pool + toWord (8 * 299)).toNat % 8 = 0 ∧ bits (w 0x1003) 7 0 = 3 ∧ bits (w 0x1003) 15 8 = 16 ∧
      bits (w 0x0F02) 7 0 = 2 ∧ bits (w 0x0F05) 15 8 = 15 ∧ bits (w 0x17) 7 0 = 0x17 ∧ bit (1 : BitVec 24) 0 = true ∧
      bit (1 : BitVec 16) 0 = true ∧ s.mem.read (0x30_2000 + 0x20) 4 ≤ (0 : BitVec 16).toNat ∧
      (pageAt 0x6000).toNat ≤ (inBytecode [(0x2028, (pageAt 0x6000).toNat)]).mem.read (0x30_2000 + 0x28) 8) ∧
    Reach s 2 (d.pool + toWord (8 * 299)) 8 (0x30_3000 + 8 * 299) :=
  ⟨by decide +kernel, reach_of (by decide +kernel)⟩

theorem test_meets_counted_write :
    let s := fun (left hold : Nat) => inBytecode [(0x1000, (pageAt 0x5001).toNat), (0x1008, (pageAt 0x5101).toNat),
      (0x5000, 1 + left * 2 ^ 32), (0x5008, 4 + 9 * 2 ^ 40 + hold * 2 ^ 48), (0x5100, 1 + (2 ^ 32 - 2) * 2 ^ 32), (0x5108, 4 + 9 * 2 ^ 40)]
    let new := freg (s 1 0) 0x30_1000 (1 : BitVec 8).toNat
    let old := freg (s 1 0) 0x30_1000 (0 : BitVec 8).toNat
    ((1 : BitVec 8).toNat < aDesc.nframe ∧ (s 1 0).mem.read (0x30_5100 + 4) 4 < 2 ^ 32 - 1 ∧ 0 < (s 1 0).mem.read (0x30_5000 + 4) 4 ∧
      (s (2 ^ 32 - 2) 0).mem.read (0x30_5000 + 4) 4 < 2 ^ 32 - 1 ∧ (s 1 1).mem.read (0x30_5000 + 14) 2 ≠ 0 ∧
      ((s 1 0).relq 2).count = 0 ∧ ((s 1 0).relq 2).chip.length < 64) ∧ Releases (s 1 0) ∧
    Obj (s 1 0) 2 new 16 0x30_5100 ∧ Obj (s 1 0) 2 old 16 0x30_5000 ∧ Apart 0x30_5100 16 0x30_5000 16 ∧
    Apart 0x30_5100 16 0x30_1000 2048 ∧ Apart 0x30_5000 16 0x30_1000 2048 :=
  ⟨by decide +kernel, by unfold Releases NothingOpen; decide +kernel, ⟨by decide +kernel, reach_of (by decide +kernel)⟩,
    ⟨by decide +kernel, reach_of (by decide +kernel)⟩, by unfold Apart; decide, by unfold Apart; decide, by unfold Apart; decide⟩

theorem test_meets_bytecode_arithmetic :
    let s := inBytecode [(0x1000, 2 ^ 63 - 2), (0x1008, 2), (0x1010, 0x13), (0x1018, 2 ^ 63), (0x1020, 3)]
    let x := freg s 0x30_1000
    let imm := fun (v : Word) => v = 0x03 ∨ v = 0x13 ∨ v = 0x23
    bit (x 0) 0 = false ∧ bit (x 1) 0 = false ∧ 2 ^ 62 ≤ intOf (x 0) + intOf (x 1) ∧ intOf (x 0) < 2 ^ 62 ∧
    intOf (x 3) - intOf (x 1) < -(2 ^ 62) ∧ -(2 ^ 62) ≤ intOf (x 3) ∧ x 1 ≠ 0 ∧ x 5 = 0 ∧ imm (x 2) ∧ imm (x 4) ∧ bit (x 2) 0 = true ∧
    2 ^ 62 ≤ -intOf (x 3) ∧ Plain (x 0) ∧ Plain (x 2) := by unfold Plain; decide +kernel

theorem test_meets_bytecode_jumps :
    let s := inBytecode [(0x1000, 0x23), (0x1008, 4), (0x1010, 6), (0x1018, 0x13), (0x1020, (pageAt 0x5001).toNat)]
    let v := freg s 0x30_1000
    let true_ := fun (v : Word) => (bit v 0 = false ∧ v ≠ 0) ∨ v = 0x23
    let false_ := fun (v : Word) => v = 0 ∨ v = 0x03 ∨ v = 0x13
    bit (2 : BitVec 24) 0 = false ∧ bit (2 : BitVec 16) 0 = false ∧ true_ (v 0) ∧ true_ (v 1) ∧ false_ (v 3) ∧ false_ (v 6) ∧
    ¬true_ (v 4) ∧ ¬false_ (v 4) ∧ (1 : BitVec 8).toNat + 2 < aDesc.nframe ∧ bit (v 1) 0 = false ∧ bit (v 2) 0 = false ∧
    intOf (v 1) < intOf (v 2) ∧ intOf (v 2) ≤ intOf (v 2) ∧ Plain (v 3) ∧ bit (v 0) 0 = true := by unfold Plain; decide +kernel

theorem test_meets_call :
    let s := inBytecode [(0x1000, (pageAt 0x5001).toNat), (0x5000, 1 + 2 ^ 32), (0x5008, 4 + 8 * 2 ^ 40), (0x5010, (pageAt 0).toNat)]
    let nf := 8 * aDesc.nframe + 32
    ((0 : BitVec 8).toNat + (2 : BitVec 8).toNat < aDesc.nframe ∧ aDesc.nframe ≤ 256 ∧ (7 : BitVec 16).toNat < aDesc.nic ∧
      s.mem.read (0x30_5000 + 13) 1 = 0x08 ∧ toWord (s.mem.read (0x30_5000 + 16) 8) = s.c.xn 20 ∧ aDesc.nparam = (2 : BitVec 8).toNat ∧
      aDesc.nparam ≠ (1 : BitVec 8).toNat ∧ aDesc.nparam ≤ aDesc.nframe ∧
      (s.c.xn 18).toNat + nf + 8 * aDesc.nframe ≤ (s.c.xn 21).toNat ∧ (∀ j, j < 2 → Plain (freg s 0x30_1000 (1 + j)))) ∧
    Obj s 2 (freg s 0x30_1000 0) 24 0x30_5000 ∧ Reach s 2 (s.c.xn 18) (nf + 8 * aDesc.nframe) 0x30_1000 :=
  ⟨by unfold Plain; decide +kernel, ⟨by decide +kernel, reach_of (by decide +kernel)⟩, reach_of (by decide +kernel)⟩

theorem test_meets_return :
    let s := inBytecode [(0xFE0, (pageAt 0x800).toNat), (0xFE8, (pageAt 0x9010).toNat), (0xFF0, (pageAt 0).toNat), (0xFF8, 255)]
    let t := inBytecode []
    let loc := toWord (s.mem.read 0x30_0FE0 8 + 8 * (s.mem.read (0x30_0FE0 + 24) 8 % 256))
    ((15 : BitVec 8).toNat < aDesc.nframe ∧ (∀ j, j < aDesc.nframe → Plain (freg s 0x30_1000 j)) ∧ t.mem.read 0x30_0FE0 8 = 0 ∧
      s.mem.read 0x30_0FE0 8 ≠ 0 ∧ loc.toNat % 8 = 0 ∧ Plain (freg s 0x30_0FF8 0) ∧ loc = pageAt 0xFF8) ∧
    Reach s 2 (s.c.xn 18 - 32) 32 0x30_0FE0 ∧ Reach s 2 loc 8 0x30_0FF8 ∧ Apart 0x30_0FF8 8 0x30_1000 2048 :=
  ⟨by unfold Plain; decide +kernel, reach_of (by decide +kernel), reach_of (by decide +kernel), by unfold Apart; decide⟩

theorem test_meets_allocation :
    let s := fun (limit : Nat) => inBytecode [(0x2008, (pageAt 0x8000).toNat), (0x2010, (pageAt limit).toNat)]
    let at_ := (s 0x9000).mem.read (0x30_2000 + 8) 8
    let limit := fun (s : State) => s.mem.read (0x30_2000 + 16) 8
    let m := (max 15 4 + 1) / 2 * 2
    let tuple := (16 + 8 * 15 + 15) / 16 * 16
    ((15 : BitVec 8).toNat < aDesc.nframe ∧ (1 : BitVec 8).toNat + (15 : BitVec 8).toNat ≤ aDesc.nframe ∧
      (∀ j, j < 16 → Plain (freg (s 0) 0x30_1000 j)) ∧ at_ % 16 = 0 ∧ at_ + tuple ≤ limit (s 0x8090) ∧ limit (s 0x808F) < at_ + tuple ∧
      at_ + (48 + 8 * m) ≤ limit (s 0x80B0) ∧ limit (s 0x80AF) < at_ + 48 + 8 * m ∧ ((s 0).c.xn 28).toNat % 8 = 0) ∧
    Reach (s 0x9000) 2 ((s 0x9000).c.xn 28) 64 0x30_2000 ∧ Reach (s 0x9000) 2 (toWord at_) tuple 0x30_8000 ∧
    Reach (s 0x9000) 2 (toWord at_) (48 + 8 * m) 0x30_8000 ∧ Apart 0x30_8000 (48 + 8 * m) 0x30_2000 64 ∧
    Apart 0x30_8000 (48 + 8 * m) 0x30_1000 2048 ∧ Apart 0x30_2000 64 0x30_1000 2048 :=
  ⟨by unfold Plain; decide +kernel, reach_of (by decide +kernel), reach_of (by decide +kernel), reach_of (by decide +kernel),
    by unfold Apart; decide, by unfold Apart; decide, by unfold Apart; decide⟩

/-- Bytecode state with cache slot 7 of a kind, with a target, an object at 0x5000 of layout 1 in f1, and a binding at 0x7000. -/
def cached (kind target : Nat) (l : List (Nat × Nat)) : State :=
  inBytecode ([(0x4070, 1 + (kind + 2 ^ 8) * 2 ^ 32 + 5 * 2 ^ 48), (0x4078, target), (0x1008, (pageAt 0x5001).toNat), (0x5000, 1 + 2 ^ 32)] ++ l)

theorem mono_of (s : State) (kind layout cver target : Nat) (h : reaches s 2 (pageAt 0x4070) 16 0x30_4070 = true)
    (e : s.mem.read 0x30_4070 4 = layout ∧ s.mem.read (0x30_4070 + 4) 1 % 16 = kind ∧ s.mem.read (0x30_4070 + 5) 1 % 4 = 1 ∧
      s.mem.read (0x30_4070 + 6) 2 = cver ∧ s.mem.read (0x30_4070 + 8) 8 = target) :
    MonoEntry s 2 (aDesc.ictab + toWord (16 * (7 : BitVec 16).toNat)) kind layout cver target :=
  ⟨0x30_4070, by decide, reach_of h, e⟩

theorem test_meets_attribute_cache :
    let s := cached 1 3 [(0x5008, 4 + 7 * 2 ^ 40)]
    MonoEntry s 2 (aDesc.ictab + toWord (16 * (7 : BitVec 16).toNat)) 1 1 5 3 ∧
    Obj s 2 (freg s 0x30_1000 (1 : BitVec 8).toNat) (24 + 8 * (3 % 2 ^ 16)) 0x30_5000 ∧ s.mem.read 0x30_5000 4 = 1 ∧
    3 % 2 ^ 16 < s.mem.read (0x30_5000 + 8) 4 ∧ s.mem.read (0x30_5000 + 12) 1 / 4 % 2 = 0 ∧ (255 : BitVec 8).toNat < aDesc.npool ∧
    (cached 1 3 [(0x5000, 2)]).mem.read 0x30_5000 4 ≠ 1 :=
  ⟨mono_of _ 1 1 5 3 (by decide +kernel) (by decide +kernel), ⟨by decide +kernel, reach_of (by decide +kernel)⟩,
    by decide +kernel, by decide +kernel, by decide +kernel, by decide, by decide +kernel⟩

theorem test_meets_global_cache :
    let s := cached 3 (pageAt 0x7000).toNat [(0x7000, (pageAt 0x5101).toNat), (0x7008, 2), (0x5108, 0x0B * 2 ^ 40), (0x5110, 10)]
    MonoEntry s 2 (aDesc.ictab + toWord (16 * (7 : BitVec 16).toNat)) 3 1 5 (pageAt 0x7000).toNat ∧
    (pageAt 0x7000).toNat % 16 = 0 ∧ Reach s 2 (toWord (pageAt 0x7000).toNat) 16 0x30_7000 ∧ VersionHolds s 2 0x30_7000 5 ∧
    (1 : BitVec 8).toNat + 256 * (1 : BitVec 8).toNat < aDesc.npool ∧ Plain (freg s 0x30_7008 0) :=
  ⟨mono_of _ 3 1 5 _ (by decide +kernel) (by decide +kernel), by decide, reach_of (by decide +kernel),
    ⟨0x30_5100, ⟨by decide +kernel, reach_of (by decide +kernel)⟩, by decide +kernel⟩, by decide, by unfold Plain; decide +kernel⟩

theorem test_meets_item_cache :
    let s := cached 4 0 [(0x5008, 4 + 5 * 2 ^ 40), (0x5010, 8), (0x5018, (pageAt 0x5200).toNat), (0x1010, 6)]
    let at_ := toWord (s.mem.read (0x30_5000 + 24) 8 + 8 * 3)
    MonoEntry s 2 (aDesc.ictab + toWord (16 * (7 : BitVec 16).toNat)) 4 1 5 0 ∧
    Obj s 2 (freg s 0x30_1000 (1 : BitVec 8).toNat) 32 0x30_5000 ∧ s.mem.read 0x30_5000 4 = 1 ∧ s.mem.read (0x30_5000 + 13) 1 = 0x05 ∧
    freg s 0x30_1000 (2 : BitVec 8).toNat = toWord (2 * 3) ∧ s.mem.read (0x30_5000 + 16) 8 < 2 ^ 63 ∧
    s.mem.read (0x30_5000 + 16) 8 % 2 = 0 ∧ 2 * 3 < s.mem.read (0x30_5000 + 16) 8 ∧ at_.toNat % 8 = 0 ∧
    s.mem.read (0x30_5000 + 12) 1 / 4 % 2 = 0 ∧ Reach s 2 at_ 8 0x30_5218 :=
  ⟨mono_of _ 4 1 5 0 (by decide +kernel) (by decide +kernel), ⟨by decide +kernel, reach_of (by decide +kernel)⟩,
    by decide +kernel, by decide +kernel, by decide +kernel, by decide +kernel, by decide +kernel, by decide +kernel, by decide +kernel,
    by decide +kernel, reach_of (by decide +kernel)⟩

theorem test_meets_empty_cache :
    ∀ k ∈ [0, 3], let s := inBytecode [(0x4070, k * 2 ^ 40)]
      (s.mem.read (0x30_4070 + 5) 1 % 4 = 0 ∨ s.mem.read (0x30_4070 + 5) 1 % 4 = 3) ∧
      reaches s 2 (aDesc.ictab + toWord (16 * (7 : BitVec 16).toNat)) 16 0x30_4070 = true := by decide +kernel

theorem test_meets_new_object :
    let s := cached 5 (pageAt 0x7000).toNat [(0x7000, (pageAt 0x5101).toNat), (0x7008, 1 + 4 * 2 ^ 32), (0x5108, 0x0B * 2 ^ 40), (0x5110, 10),
      (0x1008, (pageAt 0x5101).toNat), (0x2008, (pageAt 0x8000).toNat), (0x2010, (pageAt 0x8030).toNat)]
    let at_ := s.mem.read (0x30_2000 + 8) 8
    let size := (16 + 8 * s.mem.read (0x30_7000 + 12) 2 + 15) / 16 * 16
    MonoEntry s 2 (aDesc.ictab + toWord (16 * (7 : BitVec 16).toNat)) 5 1 5 (pageAt 0x7000).toNat ∧
    Reach s 2 (toWord (pageAt 0x7000).toNat) 16 0x30_7000 ∧ VersionHolds s 2 0x30_7000 5 ∧
    (freg s 0x30_1000 (1 : BitVec 8).toNat = freg s 0x30_7000 0 ∧ at_ % 16 = 0 ∧ at_ + size ≤ s.mem.read (0x30_2000 + 16) 8 ∧
      size = 48 ∧ Plain (freg s 0x30_1000 0)) ∧
    Reach s 2 (toWord at_) size 0x30_8000 ∧ Apart 0x30_8000 48 0x30_2000 64 ∧ Apart 0x30_8000 48 0x30_1000 2048 :=
  ⟨mono_of _ 5 1 5 _ (by decide +kernel) (by decide +kernel), reach_of (by decide +kernel),
    ⟨0x30_5100, ⟨by decide +kernel, reach_of (by decide +kernel)⟩, by decide +kernel⟩, by unfold Plain; decide +kernel,
    reach_of (by decide +kernel), by unfold Apart; decide, by unfold Apart; decide⟩

theorem test_meets_tensor_call :
    let s := cached 6 (pageAt 0x7000).toNat [(0x7000, 4095 + 2 ^ 16), (0x7038, 0x44), (0x1008, 0x44), (0x1010, 8)]
    let q := { openQueue 63 with flags := 0x03 }
    MonoEntry s 2 (aDesc.ictab + toWord (16 * (7 : BitVec 16).toNat)) 6 1 5 (pageAt 0x7000).toNat ∧
    Reach s 2 (toWord (pageAt 0x7000).toNat) 64 0x30_7000 ∧ Releases s ∧
    ((pageAt 0x7000).toNat % 64 = 0 ∧ s.mem.read (0x30_7000 + 2) 1 = 1 ∧ s.mem.read (0x30_7000 + 3) 1 = 0 ∧
      s.mem.read (0x30_7000 + 56) 8 = s.mem.read (0x30_1000 + 8 * (1 : BitVec 8).toNat) 8 ∧
      bit (freg s 0x30_1000 (1 + 1)) 0 = false ∧ Plain (freg s 0x30_1000 0) ∧ s.mem.read 0x30_7000 2 % 2 ^ 12 = 4095 ∧
      ((withQueue q s).queue 4095).open_ = true ∧ bit ((withQueue q s).queue 4095).flags 1 = true ∧
      ((withQueue q s).queue 4095).items.length < 64 ∧ (s.queue 4095).open_ = false ∧ bits (0x1C : Insn) 7 0 = 0x1C) :=
  ⟨mono_of _ 6 1 5 _ (by decide +kernel) (by decide +kernel), reach_of (by decide +kernel), by unfold Releases NothingOpen; decide +kernel,
    by unfold Plain; decide +kernel⟩

theorem test_meets_handlers_and_native :
    let s := fun (hold : Nat) => inBytecode [(0x1000, (pageAt 0x5001).toNat), (0x5008, 4 + 9 * 2 ^ 40 + hold * 2 ^ 48),
      (0x2018, (pageAt 0x7000).toNat), (0x2020, 4), (0x2028, (pageAt 0x5FFF).toNat), (0x2030, (pageAt 0x6020).toNat), (0x7018, (pageAt 0xA000).toNat)]
    let slot := toWord ((s 0).mem.read (0x30_2000 + 0x18) 8) + toWord (8 * (3 : BitVec 16).toNat)
    (Plain (freg (s 0) 0x30_1000 1) ∧ (s 0).mem.read (0x30_5000 + 13) 1 = 0x09 ∧ (s 0).mem.read (0x30_5000 + 14) 2 = 0 ∧
      (s 1).mem.read (0x30_5000 + 14) 2 ≠ 0 ∧ bit (2 : BitVec 24) 0 = false ∧ ((s 0).c.xn 22).toNat % 8 = 0 ∧
      ((s 0).c.xn 22).toNat + 32 ≤ (s 0).mem.read (0x30_2000 + 0x30) 8 ∧ (s 0).mem.read (0x30_2000 + 0x28) 8 < ((s 0).c.xn 22).toNat ∧
      (3 : BitVec 16).toNat < (s 0).mem.read (0x30_2000 + 0x20) 4 ∧ slot.toNat % 8 = 0 ∧ (s 0).mem.read 0x30_7018 8 % 4 = 0) ∧
    Obj (s 0) 2 (freg (s 0) 0x30_1000 0) 16 0x30_5000 ∧ Reach (s 0) 2 ((s 0).c.xn 22) 32 0x30_6000 ∧ Reach (s 0) 2 slot 8 0x30_7018 :=
  ⟨by unfold Plain; decide +kernel, ⟨by decide +kernel, reach_of (by decide +kernel)⟩, reach_of (by decide +kernel),
    reach_of (by decide +kernel)⟩

/-! ### Firmware and management -/

theorem ok_of {e : Except Nat Nat} {v : Nat} (h : e.toOption = some v) : e = .ok v := by
  cases e with
  | error _ => simp [Except.toOption] at h
  | ok w => simp only [Except.toOption, Option.some.injEq] at h; rw [h]

theorem test_meets_firmware_calls :
    let s := issuing cr (regs [(1, 0x8201), (2, 5), (3, 0)] kern)
    let t := { s with mgmt := { s.mgmt with domainTable := s.mgmt.domainTable.put 0x8201 7 } }
    Calls s 2 1 ∧ isCrest fa = false ∧ (issuing cr user).c.kernel = false ∧ bit ((s.c.getX 1).setWidth 16 : BitVec 16) 15 = true ∧
    bits ((s.c.getX 1).setWidth 16 : BitVec 16) 3 0 < 2 ∧ 2 ≤ bits (0x8202 : BitVec 16) 3 0 ∧ 255 < (s.c.getX 1).toNat ∧
    ((255 : Word).toNat ≤ 255) ∧ s.c.getX 3 = 0 ∧ s.c.getX 2 ≠ 0 ∧ t.mgmt.domainTable.find (t.c.getX 1).toNat = some 7 ∧
    s.mgmt.domainTable.find (s.c.getX 1).toNat = none := by unfold Calls; decide +kernel

/-- A root region of id 7 and fault domain 9 at 0x31_0000, in the registry, torn down by the kernel's call. -/
def region (x1 : Word) : State :=
  let s := stored (stored (issuing cr (regs [(1, x1)] kern)) 0x31_0008 8 (2 * 1 + 9 * 2 ^ 16 + 7 * 2 ^ 32)) (Config.registry + 16) 4 1
  stored (stored s (Config.registry + 64) 1 1) (Config.registry + 72) 8 0x1000_0000_0031_0000

theorem test_meets_idle_region :
    Calls (region 9) 2 1 ∧ IdleRegion (region 9) 0x1000_0000_0031_0000 7 0x31_0000 0x31_0038 :=
  ⟨by unfold Calls; decide +kernel, by decide +kernel, by decide +kernel, ok_of (by decide +kernel), ok_of (by decide +kernel),
    by decide +kernel, by decide +kernel, by decide +kernel, by decide +kernel, by decide +kernel⟩

theorem test_meets_fault_domain_teardown :
    let listed := fun (s : State) => s.mem.read (Config.registry + 16) 4
    (issuing cr kern).c.getX 1 = 0 ∧ 1 ≤ ((region 255).c.getX 1).toNat ∧ ((region 255).c.getX 1).toNat ≤ 255 ∧
    listed (issuing cr kern) = 0 ∧ listed (region 9) = 1 ∧ (region 9).mem.read (Config.registry + 64) 1 = 1 ∧
    (region 9).mem.read (Config.registry + 72) 8 = 0x1000_0000_0031_0000 ∧ (region 9).mem.read 0x31_0000 8 = 0 ∧
    (region 9).mem.read (0x31_0000 + 8) 1 / 2 % 2 = 1 ∧ (region 9).mem.read (0x31_0000 + 10) 1 = ((region 9).c.getX 1).toNat ∧
    (region 9).mem.read (0x31_0000 + 10) 1 ≠ ((region 255).c.getX 1).toNat := by decide +kernel

theorem test_meets_gang_teardown :
    let g := { aGang 1 1 with pool := 0xFF }
    let s := bound g (issuing cr (regs [(1, 0x1000_0000_0031_0000)] kern))
    let slot := Config.slotTable + 32 * 255
    Calls s 2 1 ∧ (s.gangs.cells = [(255, g)] ∧ g.rcb = s.c.getX 1 ∧ g.tiles = [5] ∧ g.pool = 0xFF ∧ s.net = [] ∧ s.msgs = [] ∧
      s.queues.cells = [] ∧ s.pools.cells = [] ∧ ∀ (f : Fin 4) (q : Fin 2), (s.ni (.facet 5 f)).cq[q] = []) ∧
    s.unitPa g.rcb 0 = .ok 0x31_0000 ∧
    State.unitPa { s with mem := s.mem.setBytes slot (List.replicate 32 0) } (g.rcb + 56) 1 = .ok 0x31_0038 ∧
    Apart slot 32 0x31_0038 8 :=
  ⟨by unfold Calls; decide +kernel, by decide +kernel, ok_of (by decide +kernel), ok_of (by decide +kernel), by unfold Apart; decide⟩

theorem test_meets_kernel_crash :
    let s := issuing cr kern
    let crashed := fun (twice : Bool) => { s with ctxs := Table.empty, mgmt := { s.mgmt with crashed := true, frozenTwice := twice } }
    Calls s 2 1 ∧ (1 : BitVec 8) ≠ 2 ∧ (3 : BitVec 8) ≠ 1 ∧ (3 : BitVec 8) ≠ 2 ∧ (crashed false).mgmt.crashed = true ∧
    ((crashed false).ctx (.crest 0 0)).run = .notLive ∧ (crashed false).mgmt.frozenTwice = false ∧ (crashed true).mgmt.frozenTwice = true ∧
    s.mgmt.crashed = false ∧ (s.ctx (.crest 0 0)).run ≠ .notLive := by unfold Calls; decide +kernel

theorem test_meets_management :
    let s := issuing cr kern
    let e : AlarmEntry := ⟨.tamper, 9, s.now⟩
    let t := { s with signet := { s.signet with log := List.replicate 14 ⟨.window, 1, 7⟩ ++ [e] }, now := 8 }
    s.signet.log.length ≤ 16 ∧ HoldsRecord s ∧ (∀ e ∈ s.signet.log, e.cycle ≠ s.now) ∧ t.signet.log.length ≤ 16 ∧ HoldsRecord t ∧
    { t with now := 0 }.signet.log = List.replicate 14 ⟨.window, 1, 7⟩ ++ [⟨.tamper, 9, 0⟩] ∧
    (∀ e ∈ (List.replicate 14 ⟨.window, 1, 7⟩ : List AlarmEntry), e.cycle ≠ { t with now := 0 }.now) ∧ 2000 ≤ (2900 : BitVec 16).toNat ∧ (2900 : BitVec 16).toNat + 100 = s.mhz.toNat ∧
    ¬((3100 : BitVec 16).toNat ≤ 3000) := by unfold HoldsRecord; decide +kernel

/-! ### The host link -/

/-- The state with a mailbox request waiting. -/
def asking (w : Word) : State :=
  let s := issuing cr kern
  { s with mgmt := { s.mgmt with inWord := w, inUnread := true, notices := [] } }

theorem test_meets_mailbox_commands :
    let e : AlarmEntry := ⟨.tamper, 0xFFFE, 9⟩
    let s := asking 0x0301_0000_0000_0010
    let t := { s with signet := { s.signet with log := [e] } }
    (∀ c ∈ [0, 1, 2, 3, 4, 5, 6, 255], Requests (asking (toWord (c * 2 ^ 56))) c) ∧ s.signet.log[16 % 16]? = none ∧
    t.signet.log[bits t.mgmt.inWord 47 0 % 16]? = some e ∧ bits t.mgmt.inWord 47 0 / 16 % 2 = 1 ∧ (issuing cr kern).mgmt.inUnread = false ∧
    bits (asking 0).mgmt.inWord 63 56 ≠ 1 := by unfold Requests; decide +kernel

theorem test_meets_mailbox_notices :
    ∀ c ∈ [0x81, 0x82, 0x83, 0x84, 0x85],
      let s := { issuing cr kern with mgmt := { Mgmt.initial with notices := [noticeWord c 1] } }
      s.mgmt.notices = [noticeWord c 1] ∧ s.mgmt.outValid = false ∧ bits (noticeWord c 1) 63 56 = c ∧ (asking 0).mgmt.notices = [] := by
  decide +kernel

/-- The state with an enabled command ring at host addresses 0x1000 and 0x9000 that holds one slot. -/
def ring (slot : Nat) (s : State) : State :=
  { s with host := { s.host with
    mem := (List.range 64).foldl (fun t i => t.put (0x1000 + 64 * 255 + i) (BitVec.ofNat 8 (slot / 256 ^ i))) s.host.mem
    rbase := 0x1000, cbase := 0x9000, rctl := 0x001, rhead := 0xFFFF, rtail := 0 } }

theorem test_meets_ring_registers :
    let s := ring 1 (issuing cr kern)
    let t := fun (err : Byte) => { s with host := { s.host with err := err } }
    (t 0).host.err = 0 ∧ (t 0x1A).host.err ≠ 0 ∧ bit s.host.rctl 0 = true ∧ bit (issuing cr kern).host.rctl 0 = false ∧
    256 < ((0x0100 : BitVec 16) - s.host.rhead).toNat ∧ ((0x00FF : BitVec 16) - s.host.rhead).toNat ≤ 256 ∧ s.mgmt.inUnread = false ∧
    (asking 0).mgmt.inUnread = true ∧
    (0x008 : BitVec 16) ∉ ([0, 0x100, 0x200, 0x208, 0x210, 0x228, 0x230] : List (BitVec 16)) := by decide +kernel

theorem test_meets_bar2 :
    let s := issuing cr kern
    let va := s.mgmt.w2base + 0x30_0038
    ((0x30_0038 : Word).toNat + 8 ≤ 2 ^ 36 ∧ s.mgmt.step = 7 ∧ { s.mgmt with step := 2 }.step ≠ 7 ∧ 0 < 8 ∧ va.toNat % 64 + 8 ≤ 64 ∧
      (s.walk 0 0x2000_0000_0000_0038).isNone = true ∧ HoldsRecord s) ∧
    UnitReaches s va 8 0 0x30_0038 ∧ UnitReaches s va 8 1 0x30_0038 :=
  ⟨by unfold HoldsRecord; decide +kernel, ⟨by decide, by decide, ok_of (by decide +kernel), by decide⟩,
    by decide, by decide, ok_of (by decide +kernel), by decide⟩

/-- A page of the Signet's window, which the kernel's page tables may name. -/
theorem test_meets_signet_window :
    let s := stored (stored (issuing cr kern) 0x3_0000 8 0x4_0001) 0x4_0000 8 (0xFF_FFFF_0000 + 0x1D)
    let va : Word := 0x1000_0000_0000_0000
    ((s.walk 0 va).map fun l => decide (0xFF_FFFF_0000 ≤ l.pa va)) = some true ∧ bits va 63 60 ≠ 0 ∧ bits va 63 60 ≠ 15 ∧
    va.toNat % 64 + 8 ≤ 64 := by decide +kernel

theorem host_bytes_of (s : State) (a n v : Nat)
    (h : ((List.range n).all fun i => s.host.mem.find (a + i) = some (BitVec.ofNat 8 (v / 256 ^ i))) = true) : HostBytes s a n v := by
  intro i hi
  simpa using List.all_eq_true.mp h i (List.mem_range.mpr hi)

theorem test_meets_ring_slot :
    Fetches (ring 1 (issuing cr kern)) 1 ∧ Fetches (ring 2 (issuing cr kern)) 2 ∧ Fetches (ring 3 (issuing cr kern)) 3 ∧
    Fetches (ring 0 (issuing cr kern)) 0 :=
  ⟨⟨by decide, by decide, by decide, by decide +kernel, by decide +kernel, host_bytes_of _ _ _ _ (by decide +kernel)⟩,
    ⟨by decide, by decide, by decide, by decide +kernel, by decide +kernel, host_bytes_of _ _ _ _ (by decide +kernel)⟩,
    ⟨by decide, by decide, by decide, by decide +kernel, by decide +kernel, host_bytes_of _ _ _ _ (by decide +kernel)⟩,
    ⟨by decide, by decide, by decide, by decide +kernel, by decide +kernel, host_bytes_of _ _ _ _ (by decide +kernel)⟩⟩

theorem test_meets_ring_copies :
    let s := { ring 1 (issuing cr kern) with host := { (ring 1 (issuing cr kern)).host with
      mem := (ring 1 (issuing cr kern)).host.mem.put 0x7000 0xAB } }
    let slot := fun (op len : Nat) => op + len * 2 ^ 32 + 0x7000 * 2 ^ 64 + 0x1000_0000_0030_0000 * 2 ^ 128
    (slot 1 1 % 256 = 1 ∧ slot 2 1 / 2 ^ 32 % 2 ^ 32 = 1 ∧ slot 1 (2 ^ 24 + 1) / 2 ^ 32 % 2 ^ 32 = 2 ^ 24 + 1 ∧ 0xAB < 256 ^ 1 ∧
      toWord (slot 1 1 / 2 ^ 128) = 0x1000_0000_0030_0000 ∧ slot 4 1 % 256 = 4) ∧
    UnitReaches s 0x1000_0000_0030_0000 1 1 0x30_0000 ∧ UnitReaches s 0x1000_0000_0030_0000 1 0 0x30_0000 ∧
    HostBytes s 0x7000 1 0xAB ∧ Apart 0x7000 1 (doneAt s) 16 :=
  ⟨by decide, ⟨by decide, by decide, ok_of (by decide +kernel), by decide⟩, ⟨by decide, by decide, ok_of (by decide +kernel), by decide⟩,
    host_bytes_of _ _ _ _ (by decide +kernel), by unfold Apart; decide +kernel⟩

theorem test_meets_ring_messages :
    let slot := fun (kind : Nat) => 3 + 2 * 2 ^ 128 + kind * 2 ^ 144
    let s := issuing cr kern
    let full := s.modNi (.crest 2) fun n => { n with mail := List.replicate 32 ⟨0, 0, 0, false, false⟩ }
    slot 0xEF % 256 = 3 ∧ slot 0xEF / 2 ^ 128 % 32 = (2 : Fin 32).val ∧ slot 0xEF / 2 ^ 144 % 256 = 0xEF ∧
    slot 0x80 / 2 ^ 144 % 256 = 0x80 ∧ slot 0x7F / 2 ^ 144 % 256 < 0x80 ∧ 0xEF < slot 0xF0 / 2 ^ 144 % 256 ∧ s.resetting = false ∧
    (s.ni (.crest 2)).mail.length < 32 ∧ 32 ≤ ((full.ni (.crest 2)).mail.filter fun e => !e.reserve).length := by decide +kernel

theorem test_meets_ring_idle : (issuing cr kern).host.rhead = (issuing cr kern).host.rtail ∧ bit (issuing cr kern).host.rctl 0 = false := by
  decide +kernel

/-! ### The fabric -/

/-- A packet for this device of a class, a sequence number, with key 5 and 4 bytes. -/
def packet (cls seq : Nat) : Packet :=
  { dest := 0, source := 9, cls := cls, key := 5, window := 255, offset := 60, seq := seq, request := 3, start := 60, total := 4
    payload := [1, 2, 3, 4] }

/-- The state whose ports admit that key, with a receive window of a size at 0x1000_0000_0030_0000. -/
def receiving (size : Word) : State :=
  let s := issuing cr kern
  { s with
    fabric := { s.fabric with ports := s.fabric.ports.put 11 { Port.initial with ingress := Port.initial.ingress.put 63 0x1_0005 } }
    mgmt := { s.mgmt with rwins := s.mgmt.rwins.put 255 ⟨0x1000_0000_0030_0000, size, 0x8201⟩ } }

theorem test_meets_arrives : ∀ c ∈ [0, 1, 2], Arrives (receiving 64) 11 (packet c 0) := by
  intro c hc
  refine ⟨by decide +kernel, by revert c; decide +kernel, by revert c; decide, 63, by decide, by revert c; decide +kernel⟩

theorem test_meets_bulk :
    let s := receiving 64
    let p := packet 2 0
    let w : RecvWindow := ⟨0x1000_0000_0030_0000, 64, 0x8201⟩
    (s.mgmt.rwins.find p.window = some w ∧ p.offset + 4 ≤ w.size.toNat ∧ (63 : Word).toNat < p.offset + 4 ∧ p.total = p.payload.length ∧
      (w.base + toWord p.offset).toNat % 0x10000 + 4 ≤ 0x10000 ∧ w.ctxid = BitVec.ofNat 16 (0x8000 + 2 * 256 + 1) ∧
      s.fabric.partial_ = [] ∧ (issuing cr kern).mgmt.rwins.find 255 = none ∧ p.cls = 2 ∧ p.dest = s.mgmt.fabricId.toNat ∧
      ∀ j, j < 64 → bit (((issuing cr kern).port 11).ingress.get 0 j) 16 = false) ∧
    s.unitPa (w.base + toWord p.offset) 1 = .ok 0x30_003C := ⟨by decide +kernel, ok_of (by decide +kernel)⟩

theorem test_meets_sequenced :
    let s := receiving 64
    let t := { s with fabric := { s.fabric with recvSeq := (s.fabric.recvSeq.put 36 1).put 37 1 } }
    let next := fun (p : Packet) => t.fabric.recvSeq.get 0 (p.source * 4 + p.cls)
    (packet 0 0).seq < next (packet 0 0) ∧ next (packet 0 2) < (packet 0 2).seq ∧ (packet 1 1).seq = next (packet 1 1) ∧
    (packet 0 1).seq = next (packet 0 1) ∧ t.fabric.heldPackets = [] ∧ { packet 0 1 with window := 0 }.window = 0 ∧
    0 < (packet 0 1).total ∧ t.softErrors = [] ∧ (packet 0 1).offset + (packet 0 1).total ≤ Config.hbmBytes ∧
    (issuing cr kern).mgmt.rwins.find (packet 1 1).window = none := by decide +kernel

theorem test_meets_gap_timeout :
    let x := { underWay fa with todo := [⟨0, 0x10, .device 2 0x10, 8, 1⟩] }
    let s := { issuing fa user with net := [x] }
    let held := [(10, packet 0 5), (11, packet 1 5), (11, packet 0 5), (11, packet 0 6), (11, { packet 0 5 with source := 8 })]
    let gap := fun (y : Nat × Packet) => y.1 = (11 : Fin 12).val ∧ y.2.cls = 0
    s.net = [x] ∧ x.kind = .store ∧ x.todo = [⟨0, 0x10, .device 2 0x10, 8, 1⟩] ∧ x.refused = none ∧ x.ring = none ∧
    (∀ y ∈ s.fabric.heldPackets, ¬gap y) ∧ held = held.take 2 ++ (11, packet 0 5) :: held.drop 3 ∧ (packet 0 5).cls = 0 ∧
    ∀ y ∈ held.take 2, ¬gap y := by decide +kernel

theorem test_meets_link_failures :
    let s := issuing cr kern
    let t := fun (l : List Nat) => { s with
      now := 3000000000, mgmt := { s.mgmt with noticeCtx := some 0x8201, laneEvents := s.mgmt.laneEvents.put 95 l } }
    let recent := fun (s : State) => (s.mgmt.laneEvents.get [] 95).filter fun c => s.now < c + 3000000000
    (s.port 11).lanes ≤ 8 ∧ 7 < (s.port 11).lanes ∧ s.mgmt.noticeCtx = none ∧
    (t []).mgmt.noticeCtx = some (BitVec.ofNat 16 (0x8000 + 2 * 256 + 1)) ∧ (recent (t [0, 1, 2, 3, 4, 5, 6])).length < 7 ∧
    (recent (t [0, 1, 2, 3, 4, 5, 6, 7])).length = 7 ∧ 7 < (recent (t [1, 2, 3, 4, 5, 6, 7, 8])).length ∧
    { t [] with agenda := [.remoteNotice 9 11] }.agenda = [.remoteNotice 9 11] ∧ HoldsRecord (t []) ∧ (255 : BitVec 8) ≠ 0 := by
  unfold HoldsRecord; decide +kernel

/-! ### Pre-emption, parks, steps -/

theorem test_meets_preemption :
    let s := (([0, 1, 2, 3].foldl (fun s g => s.setCtx (.facet 5 g 0) user) (issuing f0 user))).setCtx (.facet 5 1 10) user
    (∀ f : Fin 4, Saveable s (.facet 5 f 0)) ∧ Saveable s (.facet 5 1 10) ∧ (s.ctx (.facet 5 0 1)).run = .notLive ∧
    s.freeze = false ∧ { s with freeze := true }.freeze = true := by unfold Saveable NothingOpen; decide +kernel

theorem test_meets_park_wake :
    let s := fun (p : Park) => issuing fa { user with run := .parked p }
    let e : MailEntry := ⟨3, 0, 0, false, false⟩
    ((s .mailbox).ctx fa).run = .parked .mailbox ∧ ((s .mailbox).ni (ownerOf fa)).mail = [] ∧
    (((s .mailbox).modNi (ownerOf fa) fun n => { n with mail := [e] }).ni (ownerOf fa)).mail = [e] ∧ e.ctx = ctxNo fa ∧
    NothingOpen (s .order) fa ∧ ((s (.bead 10)).ctx fa).run = .parked (.bead (10 : Fin 11).val) ∧
    ((s (.bead 10)).ctx (.facet 5 1 10)).run = .notLive ∧
    (((s (.bead 10)).setCtx (.facet 5 1 10) user).ctx (.facet 5 1 10)).run ≠ .notLive ∧
    ((s (.matrixWait 2)).ctx fa).run = .parked (.matrixWait 2) ∧
    (∀ x ∈ ((entry .swap (s (.matrixWait 2))).mm 5).queue, 2 < x.id) ∧ ∀ why, ((issuing fa user).ctx fa).run ≠ .parked why := by
  refine ⟨by decide +kernel, by decide +kernel, by decide +kernel, by decide, by unfold NothingOpen; decide +kernel, by decide +kernel,
    by decide +kernel, by decide +kernel, by decide +kernel, by decide +kernel, fun why => ?_⟩
  rw [show ((issuing fa user).ctx fa).run = .ready from by decide +kernel]
  exact nofun

theorem test_meets_step_on_a_facet :
    let at_ := fun (c : Ctx) (w : Nat) => let s := stored (issuing fa c) (lmLoc 5 c.pc.toNat) 4 w; { s with agenda := [.issue fa] }
    let top := { kern with pc := 0x3F_FFFC }
    (∀ s ∈ [at_ user 0x0461_1000, at_ { user with pc := 0x3B_FFFC } 0x0461_1000, at_ top 0x0461_1000],
      State.hasTurn { s with agenda := [] } fa = true ∧ (s.ctx fa).late = [] ∧ (s.ctx fa).deliverable = false ∧
      (s.ctx fa).bytecode = false ∧ (s.mm 5).savedLate = [] ∧
      (((s.ctx fa).kernel = false ∧ bits (s.ctx fa).cwin 21 0 ≤ (s.ctx fa).pc.toNat ∧ (s.ctx fa).pc.toNat < bits (s.ctx fa).cwin 53 32) ∨
        ((s.ctx fa).kernel = true ∧ 0x3C_0000 ≤ (s.ctx fa).pc.toNat ∧ (s.ctx fa).pc.toNat < 0x40_0000)) ∧
      s.mem.read (lmLoc 5 (s.ctx fa).pc.toNat) 4 = (0x0461_1000 : Insn).toNat) ∧
    lacksFeature fa 0x0461_1000 = false ∧ lacksFeature cr 0x5800_0001 = true := by decide +kernel

theorem test_meets_step_on_a_crest_core :
    let s := { stored (crest { user with pc := pageAt 0x9000 }) 0x30_9000 4 0x5800_0001 with agenda := [.issue cr] }
    State.hasTurn { s with agenda := [] } cr = true ∧ (s.ctx cr).late = [] ∧ (s.ctx cr).deliverable = false ∧ (s.ctx cr).spc = 0 ∧
    bits (s.ctx cr).pc 63 60 ≠ 0 ∧ bits (s.ctx cr).pc 63 60 ≠ 15 ∧
    ((tlbFind (s.tile 1002).tlb 0 ((s.ctx cr).pc.toNat / 0x10000)).map fun l =>
      bit l.perms 2 && bit l.perms 3 && decide (l.pa (s.ctx cr).pc + 4 ≤ Config.hbmBytes) &&
        decide (s.mem.read (l.pa (s.ctx cr).pc) 4 = (0x5800_0001 : Insn).toNat)) = some true := by decide +kernel

theorem test_meets_step_of_bytecode :
    let s := { inBytecode [(0x9000, 0x0005_0302_011B), (0x90FC, 0x0B)] with agenda := [.issue cr] }
    let s0 := { s with agenda := [], cur := cr, latch := ⟨0, 0, 4, none⟩ }
    (s0.hasTurn cr = true ∧ s0.c.late = [] ∧ s0.c.deliverable = false ∧ s0.c.bytecode = true ∧ bit (s0.c.xn 19) 0 = false ∧
      aDesc.code ≤ (s0.c.xn 19).toNat ∧ (s0.c.xn 19).toNat + 6 ≤ aDesc.code + aDesc.clen ∧ s.mem.read 0x30_9000 1 = 0x1B ∧
      (pageAt 0x90FC).toNat + 4 ≤ aDesc.code + aDesc.clen ∧ s.mem.read 0x30_90FC 1 = 0x0B ∧
      ((tlbFind (s.tile 1002).tlb 0 ((s0.c.xn 19).toNat / 0x10000)).map fun l => bit l.perms 2) = some true) ∧
    CrestRuns s0 2 1 ∧ Reach s0 2 (s0.c.xn 19) 6 0x30_9000 ∧ Reach s0 2 (pageAt 0x90FC) 4 0x30_90FC :=
  ⟨by decide +kernel, crest_runs_of (by decide +kernel), reach_of (by decide +kernel), reach_of (by decide +kernel)⟩

theorem test_meets_step_agenda :
    let s := issuing fa user
    let quiet := { s with mgmt := { s.mgmt with notices := [], firmware := 0 } }
    { s with agenda := [.event .freeze] }.agenda = [.event .freeze] ∧ { s with agenda := [.pass 9] }.agenda = [.pass 9] ∧
    { s with agenda := [.softError 0 true] }.agenda = [.softError 0 true] ∧ s.agenda = [] ∧
    quiet.nextMove.isNone = true ∧ ({ s with mgmt := { s.mgmt with firmware := 0 } } : State).nextMove.isSome = true ∧
    quiet.nextIssuer.isSome = true ∧ ({ quiet with ctxs := Table.empty } : State).nextMove.isNone = true ∧
    ({ quiet with ctxs := Table.empty } : State).nextIssuer.isNone = true := by decide +kernel

theorem test_meets_invariants :
    Unkeyed { issuing fa user with signet := ⟨false, true, false, []⟩ } ∧ MemOk (stored (issuing fa user) 0x100 8 1) := by
  unfold Unkeyed MemOk; decide +kernel

/-! ### Ill-formed instructions, each refused by its check -/

theorem test_ill_formed_mask_field : Instr.wf (.bKany 8 0 0) = false ∧ Instr.wf (.kset 8 1) = false ∧ Instr.wf (.kset 7 1) = true := by
  decide

theorem test_ill_formed_sizes : Instr.wf (.ld 1 2 7 0) = false ∧ Instr.wf (.st 1 2 1 0) = false ∧ Instr.wf (.st 1 2 7 0) = false ∧
    Instr.wf (.ld 1 2 6 0) = true ∧ Instr.wf (.st 1 2 6 0) = true := by decide

theorem test_ill_formed_rounding : Instr.wf (.fadd 1 2 3 0 6 0) = false ∧ Instr.wf (.fadd 1 2 3 1 6 0) = true ∧
    Instr.wf (.vcvt 1 2 0 0 0 0 1 6) = false := by decide

theorem test_ill_formed_formats : Instr.wf (.cvt 1 2 7 0 0 1 0) = false ∧ Instr.wf (.cvt 1 2 1 0 0 13 0) = false ∧
    Instr.wf (.cvt 1 2 12 0 0 0 0) = true := by decide

theorem test_ill_formed_runs : Instr.wf (.cpyPush 29) = false ∧ Instr.wf (.cpyPush 28) = true ∧ Instr.wf (.mboxPop 31) = false ∧
    Instr.wf (.taskNext 27 0) = false ∧ Instr.wf (.cnTake 30 0) = false := by decide

theorem test_ill_formed_numbers : Instr.wf (.mtxLock 16) = false ∧ Instr.wf (.barCfg 5 0) = false ∧ Instr.wf (.vpack 1 2 3 0 0 0 0) = false ∧
    Instr.wf (.ttLoad 1 0) = false ∧ Instr.wf (.ttRd 1 8 1) = false := by decide

theorem test_ill_formed_choices : Instr.wf (.fwcallUnknown 0x40) = false ∧ Instr.wf (.tsupixUnassignedOpcode 0x26) = false ∧
    Instr.wf (.mboxinUnknownCommand 5) = false ∧ Instr.wf .illegal = false := by decide

/-! ### The spec's own example words, and words that are no instruction -/

/-- Words that chapters 05, 06 and 23 of the spec write out beside the instruction they stand for. -/
theorem test_decode_example_words :
    decode 0x0461_1000 = .add 3 1 2 ∧ decode 0x2C40_1FFD = .bNe 2 0 0xFFD ∧ decode 0x5000_0085 = .fenceIssue 2 5 ∧
    decode 0xACA0_0000 = .barArrive 5 0 ∧ decode 0x37FF_DC3C = .j 0x3FF_DC3C ∧ decode 0x2C40_1004 = .bNe 2 0 4 := by
  decide +kernel

theorem test_decode_example_bytecode :
    decodeBytecode 0x0000_0301 = .tsupixMove 0 3 ∧ decodeBytecode 0xFFFE_0103 = .tsupixLoadi 0xFFFE 1 ∧
    decodeBytecode 0x0000_0401_0207 = .tsupixGetattr 2 1 4 0 := by decide +kernel

/-- R324: byte 0 the opcode, bytes 1 to 3 a, b and c, bytes 4 and 5 the cache slot. -/
theorem test_decode_bytecode_with_cache :
    decodeBytecode 0x8001_8382_8105 = .tsupixGetglobal 0x81 0x82 0x83 0x8001 ∧
    decodeBytecode 0x8001_8382_8106 = .tsupixSetglobal 0x81 0x82 0x83 0x8001 ∧
    decodeBytecode 0x8001_8382_8108 = .tsupixSetattr 0x81 0x82 0x83 0x8001 ∧
    decodeBytecode 0x8001_8382_8109 = .tsupixGetitem 0x81 0x82 0x83 0x8001 ∧
    decodeBytecode 0x8001_8382_810A = .tsupixSetitem 0x81 0x82 0x83 0x8001 ∧
    decodeBytecode 0x8001_8382_811B = .tsupixCall 0x81 0x82 0x83 0x8001 ∧
    decodeBytecode 0x8001_8382_811C = .tsupixTcall 0x81 0x82 0x83 0x8001 ∧
    decodeBytecode 0x8001_8382_8121 = .tsupixNewobj 0x81 0x82 0x83 0x8001 ∧
    decodeBytecode 0x8027 = .tsupixUnassignedOpcode 0x27 := by decide +kernel

theorem test_decode_no_instruction :
    decode 0 = .runoff ∧ decode 1 = .illegal ∧ decode 0x0461_1007 = .illegal ∧ decode 0xC000_0000 = .future ∧
    decode 0x00C0_0041 = .fwcallUnknown 0x41 := by decide +kernel

/-! ### Single steps -/

/-- `add x3, x1, x2` is the first instruction run from reset. -/
theorem test_step_from_reset :
    (match step (State.reset.withFetchWord 32 0x0461_1000) with
      | .next t => decide ((t.ctx (.crest 0 0)).pc = 0x1000_0000_0020_0004)
      | _ => false) = true ∧
    decodeTableWord 32 0x0461_1000 = some (.add 3 1 2) := by decide +kernel

/-- What exec leaves in x3 of the context in issue. -/
def x3After (i : Instr) (s : State) : Option Word :=
  match exec i s with
  | .next t => some (t.c.getX 3)
  | _ => none

theorem test_add_wraps : x3After (.add 3 1 2) (issuing fa (regs [(1, 0xFFFF_FFFF_FFFF_FFFF), (2, 2)] user)) = some 1 := by decide +kernel

theorem test_sub_source_is_destination : x3After (.sub 3 3 2) (issuing fa (regs [(3, 1), (2, 2)] user)) = some 0xFFFF_FFFF_FFFF_FFFF := by
  decide +kernel

/-- R102: a shift takes bits 5:0 of its count. -/
theorem test_sra_count : x3After (.sra 3 1 2) (issuing fa (regs [(1, 0x8000_0000_0000_0000), (2, 0x41)] user)) =
    some 0xC000_0000_0000_0000 := by decide +kernel

/-- R106: a quotient by 0 is all ones, that of the most negative number by -1 is the number. -/
theorem test_div_corners :
    x3After (.div 3 1 2) (issuing fa (regs [(1, 7), (2, 0)] user)) = some 0xFFFF_FFFF_FFFF_FFFF ∧
    x3After (.div 3 1 2) (issuing fa (regs [(1, 0x8000_0000_0000_0000), (2, 0xFFFF_FFFF_FFFF_FFFF)] user)) =
      some 0x8000_0000_0000_0000 := by decide +kernel

/-- R119: sz 2 loads a halfword and extends its sign. -/
theorem test_load_sign :
    x3After (.ld 3 1 2 2) (stored (issuing fa (regs [(1, 0x2000)] user)) (lmLoc 5 0x2002) 2 0x8001) = some 0xFFFF_FFFF_FFFF_8001 := by
  decide +kernel

/-! ### Prefixes, the restoring kret, address faults, special registers of a crest core -/

/-- The state with a word behind the instruction in issue. -/
def behind (a : Agent) (c : Ctx) (w : Nat) : State :=
  match a with
  | .facet t _ _ => stored (issuing a c) (lmLoc t.val (c.pc.toNat + 4)) 4 w
  | .crest _ _ => stored ((issuing a { c with pc := 0x1000_0000_0030_0000 }).modTile 1002 fun t =>
      { t with tlb := [⟨0, 0x1000_0000_0030, 0x30, 0xF⟩] }) 0x30_0004 4 w

/-- The fetches below leave the state, so that they are the hypotheses as they stand. -/
theorem test_meets_fetch :
    (∀ (w : Nat) (x : Insn), ((behind fa user w).fetch 0x1004).2 = .word x → (behind fa user w).fetch 0x1004 = (behind fa user w, .word x)) ∧
    (behind cr kern 0x8000_0028).fetch 0x1000_0000_0030_0004 = (behind cr kern 0x8000_0028, .word 0x8000_0028) :=
  ⟨fun _ _ h => fetched_at rfl h, rfl⟩

/-- LONG before lih, a shift, LONG, REP and add; before a word that its core lacks; major 0x2C on a crest core. -/
theorem test_meets_long_traps :
    (∀ w ∈ [0x2022_0005, 0x2422_0005, 0xF800_0000, 0xFC01_0000, 0x0461_1000],
      let x : Insn := BitVec.ofNat 32 w
      ((behind fa user w).fetch 0x1004).2 = .word x ∧ lacksFeature fa x = false ∧ ¬(2 ≤ bits x 31 26 ∧ bits x 31 26 ≤ 7) ∧
        decode x ≠ .illegal ∧ decode x ≠ .runoff ∧ decode x ≠ .future) ∧
    (((behind fa user 0xB000_0000).fetch 0x1004).2 = .word 0xB000_0000 ∧ lacksFeature fa 0xB000_0000 = true) ∧
    (((behind cr kern 0x8000_0028).fetch 0x1000_0000_0030_0004).2 = .word 0x8000_0028 ∧ lacksFeature cr 0x8000_0028 = true) ∧
    decode 0x0400_0007 = .illegal ∧ bits (0x0400_0007 : Insn) 31 26 ≠ 0x2C ∧ decode 0xB000_000C = .illegal ∧ isCrest cr = true := by
  decide +kernel

/-- REP: a vpack of width 0, kand at the last mask register and past it, no stepped field, add, LONG and add, runoff, future, a
matrix instruction on a crest core. -/
theorem test_meets_rep_words :
    let w := fun (i : Instr) => (BitVec.ofNat 32 ((encode i).getD (0, 0)).2 : Insn)
    let runs := fun (a : Agent) (w : Insn) => lacksFeature a w = false ∧ decode w ≠ .illegal ∧ decode w ≠ .runoff ∧ decode w ≠ .future
    let fetches := fun (w : Insn) => ((behind fa user w.toNat).fetch 0x1004).2 = .word w
    (∀ i ∈ [Instr.vpack 1 2 3 0 0 0 0, .kand 7 1 2, .vidx 3 0 0 2, .add 3 1 2], fetches (w i) ∧ runs fa (w i) ∧ decode (w i) = i) ∧
    (decode (w (.vpack 1 2 3 0 0 0 0))).wf = false ∧ stepLimits (.vpack 1 2 3 0 0 0 0) = some (31, 31, 31) ∧
    stepLimits (.kand 7 1 2) = some (7, 7, 7) ∧ 6 + (2 - 1) * 1 ≤ 7 ∧ ¬7 + (2 - 1) * 1 ≤ 7 ∧ stepLimits (.vidx 3 0 0 2) = some (31, 0, 0) ∧
    bits (w (.add 3 1 2)) 31 26 ≠ 0x3F ∧ ¬(0x1A ≤ bits (w (.add 3 1 2)) 31 26 ∧ bits (w (.add 3 1 2)) 31 26 ≤ 0x1F) ∧
    (let s := stored (behind fa user 0xFC00_0000) (lmLoc 5 0x1008) 4 0x0461_1000
     bits (0xFC00_0000 : Insn) 31 26 = 0x3F ∧ (s.fetch 0x1004).2 = .word 0xFC00_0000 ∧ (s.fetch 0x1008).2 = .word 0x0461_1000 ∧
      runs fa 0x0461_1000 ∧ (isCrest fa = true ∨ s.c.kt = false)) ∧
    decode 0 = .runoff ∧ decode 0xC000_0000 = .future ∧ lacksFeature fa 0xB000_0000 = true ∧ decode 0x0400_0007 = .illegal ∧
    lacksFeature fa 0x0400_0007 = false := by decide +kernel

/-- A step of vadd, vst and kand as repetition 0 of 2, and by itself. -/
theorem test_meets_repetitions :
    ∀ j ∈ [Instr.vadd 4 8 12 0 0 2, .kand 1 2 3, .vst 4 2 0 2, .vcvt 1 2 1 0 0 0 2 0],
      let s := { issuing fa (regs [(2, 0x2000)] user) with latch := ⟨0, 0, 8, some (0, 2)⟩ }
      (stepLimits j).isSome = true ∧ isCrest s.cur = false ∧ s.latch.rep = some (0, 2) ∧ s.latch.len = 8 ∧
      (match exec j { s with latch := { s.latch with rep := none } } with
        | .next u => decide (u.c.pc = s.c.pc + 8) && decide (u.c.estat = s.c.estat) && decide (u.net = s.net)
        | _ => false) = true := by decide +kernel

/-- A kernel handler of a facet that pre-emption entered. -/
def restoring : Ctx := { kern with estat := 0x101 }

theorem test_meets_kret_restores :
    let s := issuing fa restoring
    let word := fun (s : State) (j : Fin 11) (off : Nat) => toWord (s.mem.read (lmLoc 5 (recordOffset 1 j.val + off)) 8)
    let lacks := fun (s : State) (j : Fin 11) => word s j 0x9E8 &&& ~~~0x7FF ≠ 0
    let lacking := stored s (lmLoc 5 (recordOffset 1 10 + 0x9E8)) 8 0x800
    let allow := fun (s : State) => s.mem.read (lmLoc 5 0x3F_F010) 8 % 2 = 1
    s.c.kernel = true ∧ s.c.pe = true ∧ s.latch.rep = none ∧ (∀ j, ¬lacks s j) ∧ lacks lacking 10 ∧ (∀ i, i < 10 → ¬lacks lacking i) ∧
    ¬allow lacking ∧ allow (stored lacking (lmLoc 5 0x3F_F010) 8 1) := by decide +kernel

theorem test_meets_crest_kret :
    (issuing cr { kern with epc := 0x1001 }).c.kernel = true ∧ bit (issuing cr { kern with epc := 0x1001 }).c.epc 0 = true := by decide +kernel

theorem test_meets_accesses :
    let s := issuing fa (regs [(2, 0x3B_FFFF)] user)
    let x := s.c.getX 2
    Accesses s (.ld 4 2 6 0x1FFF) (x + (0x1FFF : BitVec 13).signExtend 64) 8 ∧ Accesses s (.ldx 4 2 3 0) x 1 ∧
    Accesses s (.ldAcq 4 2 5) x 4 ∧ Accesses s (.st 4 2 6 1) (x + (1 : BitVec 13).signExtend 64) 8 ∧ Accesses s (.stx 4 2 3 2) x 2 ∧
    Accesses s (.stRel 4 2 4) x 4 ∧ Accesses s (.amoCas 4 2 3 3 1) x 8 ∧ Accesses s (.amoAdd 4 2 3 0 0) x 4 ∧ x = 0x3B_FFFF ∧
    AddressFault s (x + (0x1FFF : BitVec 13).signExtend 64) 8 = some 0x05 ∧ AddressFault s (x + (1 : BitVec 13).signExtend 64) 8 = some 0x07 := by
  intro s x
  have q : Releases s := by unfold Releases NothingOpen; decide +kernel
  exact ⟨.ld 4 2 6 0x1FFF (by decide), .ldx 4 2 3 0 (by decide), .ldAcq 4 2 5 (by decide), .st 4 2 6 1 (by decide),
    .stx 4 2 3 2 (by decide), .stRel 4 2 4 (by decide) q, .amo _ 4 2 3 3 1 (.tail _ (.tail _ (.head _))) (.inr q),
    .amo _ 4 2 3 0 0 (.head _) (.inl (by decide)), by decide +kernel, by decide +kernel, by decide +kernel⟩

/-- Every row of the address checks at a boundary. -/
theorem test_meets_address_fault :
    let u := issuing fa user
    let k := issuing fa kern
    let c := issuing cr kern
    AddressFault u 0x3B_FFFC 8 = some 0x05 ∧ AddressFault u 0x3B_FFF8 8 = none ∧ AddressFault u 0x3C_0000 1 = some 0x07 ∧
    AddressFault k 0x3F_FFF8 8 = none ∧ AddressFault k 0x40_0000 8 = some 0x19 ∧ AddressFault u 0x40_0000 1 = some 0x19 ∧
    AddressFault c 0 1 = some 0x07 ∧ AddressFault u 0xF000_0000_E0FF_FFF8 8 = none ∧
    AddressFault u 0xF000_0000_E100_0000 8 = some 0x19 ∧ AddressFault u 0xF000_0001_0000_0000 8 = some 0x19 ∧
    AddressFault u 0x1000_0000_0000_0000 8 = none := by decide +kernel

theorem test_meets_vector_accesses :
    let s := issuing fa { regs [(2, 0x3B_FFFC), (3, 4)] user with k := user.k.set 1 3 }
    let u := issuing fa { regs [(2, 0x3B_FFFC), (3, 0x4_0004)] user with k := user.k.set 1 3 }
    let va := fun (s : State) (j : Nat) => s.c.getX 2 + toWord j * s.c.getX 3
    VectorAccesses s (.vlds 1 2 3 1 0 2) (va s) 4 1 ∧ VectorAccesses s (.vsts 1 2 3 1 2) (va s) 4 1 ∧ on s 1 1 = true ∧ 1 < 64 / 4 ∧
    (∀ h, h < 1 → on s 1 h = true → isCrest s.cur = false ∧ (s.c.spc = 0 ∨ s.c.spc = s.mgmt.domain) ∧ (va s h).toNat % 4 = 0 ∧
      (va s h).toNat + 4 ≤ 0x3C_0000) ∧ AddressFault s (va s 1) 4 = some 0x07 ∧ AddressFault u (va u 1) 4 = some 0x19 ∧
    (va u 1).toNat % 4 = 0 ∧ 0x40_0000 ≤ (va u 1).toNat := by
  intro s u va
  have q : RingFree s (ownerOf s.cur) := by unfold RingFree; decide +kernel
  refine ⟨?_, ?_, by decide +kernel, by decide, by decide +kernel, by decide +kernel, by decide +kernel, by decide +kernel, by decide +kernel⟩
  · exact .load (.vlds 1 2 3 1 0 2) 1 2 1 0 2 (va s) (.inr (.inr (.inl ⟨3, rfl, rfl⟩)))
  · exact .store (.vsts 1 2 3 1 2) 1 2 1 2 (va s) q (.inr (.inl ⟨3, rfl, rfl⟩))

theorem test_meets_special_register_values :
    let s := fun (v : Word) => issuing fa (regs [(2, v)] user)
    (6 ≤ ((s 6).c.getX 2).toNat % 8) ∧ ((s 5).srRead fa 7 ||| 5).toNat % 8 < 6 ∧
    6 ≤ ((issuing fa { user with frm := 4 }).srRead fa 7 ||| 2).toNat % 8 ∧
    6 ≤ ((issuing fa { user with frm := 7 }).srRead fa 7 &&& ~~~1).toNat % 8 ∧ (issuing cr user).c.kernel = false ∧
    (issuing cr kern).c.kernel = true := by decide +kernel

/-! ### Rounding -/

theorem test_meets_rounding :
    (floatFmt 4).isSome = true ∧ (floatFmt 6).isSome = true ∧ (5 : Nat) ≤ 5 ∧ (0 : Nat) < 1 ∧
    ((9, -128, 127) ∈ ([(9, -128, 127), (10, 0, 255)] : List (Nat × Int × Int))) ∧ 2 ^ 1 ≤ 3 ∧ 3 < 2 ^ (1 + 1) := by decide

/-- The largest finite values and the step above them: binary16 1.9990 * 2^15, E4M3 448. -/
theorem test_meets_overflow : Above (2 ^ 11) 5 (2 ^ 11 - 1) 5 ∧ ¬Above (2 ^ 11 - 1) 5 (2 ^ 11 - 1) 5 ∧ Above 15 5 14 5 ∧
    ¬Above 14 5 14 5 := by unfold Above; decide

/-- Ties, and the steps beside them, in the five directed modes: 2.5 and 3.5 units of 2. -/
theorem test_rounding_moves :
    Away 0 false 2 1 2 0 = false ∧ Away 0 false 3 1 2 0 = true ∧ Away 0 false 2 3 4 0 = true ∧ Away 1 true 3 1 2 0 = false ∧
    Away 2 true 2 1 2 0 = true ∧ Away 2 false 2 1 2 0 = false ∧ Away 3 false 2 1 2 0 = true ∧ Away 4 false 2 1 2 0 = true ∧
    Away 4 false 2 0 2 0 = false := by decide

/-- R76: 65520, halfway above the largest binary16, overflows under RNE; 65519 does not, and with sat it is the largest. -/
theorem test_round_overflow_of_fp16 :
    round 2 0 false (.fin false 65520 0 false) 7 = ⟨0x7C00, 5, 7⟩ ∧ round 2 0 false (.fin false 65519 0 false) 7 = ⟨0x7BFF, 1, 7⟩ ∧
    round 2 0 true (.fin true 65520 0 false) 7 = ⟨0xFBFF, 0x21, 7⟩ ∧ round 9 1 false (.fin true 128 0 false) 7 = ⟨0x80, 0, 7⟩ ∧
    round 9 1 false (.fin true 129 0 false) 7 = ⟨0x80, 0x10, 7⟩ := by decide +kernel

/-! ### Running matrix entries -/

/-- A tensor record of FP32 numbers in local memory with its lengths on two axes, row by row. -/
def fpTensor (base d0 d1 : Nat) : Vec :=
  BitVec.ofNat 512 (0x01 + 2 * 2 ^ 8 + 2 ^ 24 + base * 2 ^ 64 + d0 * 2 ^ 128 + d1 * 2 ^ 160 + 2 ^ 192 + 2 ^ 224 + 2 ^ 256 + d0 * 2 ^ 288)

/-- A loaded plane of FP32 weights for FP32 activations. -/
def fpPlane : Plane := { Plane.initial with valid := true, wfmt := 1, afmt := 1 }

/-- The engine with that plane active, N = 16, and row 511's reference as given. -/
def engine (ref : BitVec 32) (s : State) : State :=
  { s with mms := s.mms.put 5 { s.mm 5 with active := fpPlane, geom := 16, rows := (s.mm 5).rows.put 511 { AccRow.initial with ref := ref } } }

theorem test_meets_unscaled : Unscaled (fpTensor 0x1000 1 1) ∧ Unscaled (fpTensor 0x3B_FFFC 1 1) := by unfold Unscaled; decide +kernel

theorem loadable_of (s : State) (w : Vec) (h : Unscaled w ∧ recFmt w = 1 ∧ ∀ i, i < 4 → recD w i = 1) (r : EngineReads s 5 w 0 0) :
    Loadable s 5 w 0 0 1 := by
  obtain ⟨h1, h2, h⟩ := h
  have h3 := h 0; have h4 := h 1; have h5 := h 2; have h6 := h 3
  refine ⟨h1, by omega, by omega, by omega, by simp, by omega, by omega, by omega, fun i j _ _ hi hj => ?_⟩
  have hi : i = 0 := by omega
  have hj : j = 0 := by omega
  subst hi hj
  simpa using r

theorem streamable_of (s : State) (a : Vec) (t : Nat) (geom : Nat) (h : Unscaled a ∧ recFmt a = 1 ∧ ∀ i, i < 4 → recD a i = 1)
    (r : EngineReads s 5 a 0 0) : Streamable s 5 a ⟨t, 0, 0, 511, 1, true⟩ 1 geom := by
  obtain ⟨h1, h2, h⟩ := h
  have h3 := h 0; have h4 := h 1; have h5 := h 2; have h6 := h 3
  refine ⟨h1, by omega, by omega, by simp, by simp, by simp only; omega, by simp only; omega, .inl rfl, fun i q _ hq hi => ?_⟩
  simp only at hq hi
  have hi : i = 0 := by omega
  have hq : q = 0 := by omega
  subst hi hq
  simpa using r

theorem test_meets_engine_reads :
    EngineReads (issuing f0 user) 5 (fpTensor 0x1000 1 1) 0 0 ∧ EngineReads (issuing f0 user) 5 (fpTensor 0x3B_FFFC 1 1) 0 0 := by
  unfold EngineReads; decide +kernel

theorem test_meets_loadable : Loadable (issuing f0 user) 5 (fpTensor 0x3B_FFFC 1 1) 0 0 1 :=
  loadable_of _ _ (by unfold Unscaled; decide +kernel) test_meets_engine_reads.2

theorem test_meets_streamable : Streamable (issuing f0 user) 5 (fpTensor 0x1000 1 1) ⟨7, 0, 0, 511, 1, true⟩ 1 16 :=
  streamable_of _ _ _ _ (by unfold Unscaled; decide +kernel) test_meets_engine_reads.1

theorem test_meets_drainable :
    Drainable (fpTensor 0x1000 16 1) ⟨7, 511, 1, 4, false, 0, 15⟩ 16 ∧ ¬Drainable (fpTensor 0x1000 16 1) ⟨7, 511, 1, 4, false, 0, 16⟩ 16 ∧
    Agrees ((engine 0 (issuing f0 user)).mm 5) ⟨7, 511, 1, 4, false, 0, 0⟩ ∧
    ¬Agrees ((engine 0x3F80_0000 (issuing f0 user)).mm 5) ⟨7, 511, 1, 4, false, 0, 0⟩ := by
  refine ⟨by unfold Drainable Unscaled; decide +kernel, by unfold Drainable Unscaled; decide +kernel, ⟨fun i h => ?_, ?_⟩, fun h => ?_⟩
  · obtain rfl : i = 0 := by simp only at h; omega
    decide +kernel
  · decide +kernel
  · exact absurd (h.1 0 (by simp)) (by decide +kernel)

theorem test_meets_matrix_arithmetic :
    let s := fun (op : MmOp) => entry op (engine 0 (issuing f0 user))
    (∀ op ∈ [MmOp.loadw 7 0 0 1, .stream 7 0 0 511 1 true, .drain 7 511 1 4 false 0 0],
      ((s op).mm 5).queue.all (fun e => decide (e.op = op) && !e.stopping && decide (e.flags = 0) && decide (e.pos = 0)) = true ∧ (s op).freeze = false ∧
        (s op).softErrors = []) ∧
    fpPlane.sound = true ∧ fpPlane.valid = true ∧ bit Bezel.initial.site 0 = false ∧
    (issuing f0 user).queue 0 = Queue.initial := by decide +kernel

/-- An mm.seq's descriptor: A 2, W 1, C 3, n-blocks as given, one k-block, one row at accumulator row 0, mode 4. -/
def descriptor (blocks : Nat) : Nat := 2 + 2 ^ 8 + 3 * 2 ^ 16 + 8 * 2 ^ 24 + 2 ^ 64 + blocks * 2 ^ 96 + 2 ^ 112

theorem test_meets_sequencer :
    let d := fun (n : Nat) => BitVec.ofNat 512 (descriptor n)
    let f := fun (n : Nat) => recBytes (d n)
    let bad := fun (n : Nat) => f n 0 1 = 0 ∨ f n 1 1 = 0 ∨ f n 2 1 = 0 ∨ f n 12 2 = 0 ∨ f n 14 2 = 0 ∨ f n 8 2 = 0 ∨
      512 < f n 10 2 + f n 8 2 ∨ 6 ≤ f n 3 1 / 2 % 8
    let s := fun (n : Nat) => stored (entry (.seq 0x1000) (issuing f0 user)) (lmLoc 5 0x1000) 32 (descriptor n)
    (∀ n ∈ [0, 1, 2], d n = BitVec.ofNat 512 ((s n).mem.read (lmLoc 5 0x1000) 32) ∧ ((s n).mm 5).queue.length = 1) ∧ bad 0 ∧
    ¬bad 1 ∧ ¬bad 2 ∧ f 1 12 2 * (f 1 14 2 + 1) = 2 ∧ 0 % 2 < f 1 14 2 ∧ 1 % 2 = f 1 14 2 ∧ 1 + 1 = f 1 12 2 * (f 1 14 2 + 1) ∧
    1 + 1 < f 2 12 2 * (f 2 14 2 + 1) ∧ f 1 3 1 / 2 % 8 ≤ 4 ∧ (decide (0 % 2 = 0) && decide (f 1 3 1 % 2 = 0)) = true := by
  decide +kernel

theorem test_meets_fix :
    let z := { Bezel.initial with
      row := 0x8010_0000_0000_01FF, col := 0x1_8000_0000, delta := 0x3F80_0000_3F80_0000, boundTol := 0x3F80_0000_3F80_0000 }
    let far := { z with delta := 0x7F00_0000_3F80_0000 }
    let one := fun (z : Bezel) (c : Nat) => c < 32 ∧ bit z.row 63 = true ∧ bit z.row 62 = false ∧ bits z.row 61 52 = 1 ∧
      bits z.col 37 32 = 1 ∧ bits z.col 31 0 = 2 ^ c
    let near := fun (z : Bezel) => (decodeFmt 1 (bits z.delta 31 0)).isFinite = true ∧ (decodeFmt 1 (bits z.delta 63 32)).isFinite = true ∧
      z.bounds.isNan = false ∧ compareVal false (distance (decodeFmt 1 (bits z.delta 31 0)) (decodeFmt 1 (bits z.delta 63 32))) z.bounds ≤ 0
    one z 31 ∧ one far 31 ∧ near z ∧ ¬near far ∧ z.retry.going = false ∧ bit Bezel.initial.row 63 = false := by decide +kernel

theorem test_meets_retry :
    let x : RetryItem := ⟨1, 2, 1, 0, 0, 0, 0, 1, false⟩
    let r := fun (base : RetryBase) (n : Nat) => { Retry.initial with base := base, items := [x], progress := n }
    let playable := fun (r : Retry) => r.base ≠ .empty ∧ r.broken = false ∧ r.overflowed = false
    playable (r .zero 0) ∧ (r .zero 0).steps[0]? = some (none, 0, false) ∧ (r .zero 1).steps[1]? = some (some x, 0, false) ∧
    (r (.stream x) 0).steps[0]? = some (some x, 0, true) ∧ (r .zero 2).steps[2]? = none ∧ ¬playable Retry.initial := by decide +kernel

/-! ### Parks, phases, packets, gangs -/

theorem test_meets_late_in_a_handler :
    let late : List LateFault := [⟨0x08, 0, none, none, false⟩]
    ((issuing fa { user with late := late }).ctx fa).frozen = false ∧ ((issuing cr { kern with late := late }).ctx cr).run = .ready ∧
    isCrest cr = true ∧ ((issuing fa { user with pending := [⟨0, 1, 2⟩], uvec := 1, late := late }).ctx fa).late ≠ [] ∧
    ((issuing fa { pending with run := .parked .wfi }).preempting fa = false) ∧
    (onTile (fun t => { t with preempt := true }) (issuing fa pending)).preempting fa = true := by decide +kernel

theorem test_meets_frozen_resume :
    let s := (answered 6).setCtx fa { ((answered 6).ctx fa) with frozen := true }
    s.msgs = [toFacet 0xE1_0007 6] ∧ (s.ctx fa).frozen = true ∧ (s.ctx fa).run = .parked (.translation 0x10 0 0 (some 7)) := by
  decide +kernel

theorem test_meets_barrier_next :
    let m := fun (x : Channel) => ((channel x (issuing f0 user)).tile 5).channels[15]
    let joins := fun (x : Channel) => (m x).reported = true ∧ ((m x).next.getD 0).getLsbD 1 = true
    joins ⟨0, 0xD, some 0xF, 0xD, true⟩ ∧ ¬joins ⟨0, 0xD, none, 0xD, true⟩ ∧ (m ⟨0, 0xD, some 0xF, 0xD, true⟩).members.getLsbD 1 = false ∧
    (aGang 1 1).phase ≠ .saved := by decide +kernel

theorem test_meets_quiesced_queues :
    ((issuing fa user).ni (.facet 5 1)).spilled = false ∧
    (∀ q : Fin 2, ∀ r ∈ ((issuing fa kern).ni (.facet 5 1)).cq[q], r.phase = .queued) := by decide +kernel

theorem test_meets_register_reads :
    let off := fun (o : BitVec 16) => { issuing fa user with agenda := [.readRegister o] }
    (off 0x008).agenda = .readRegister 0x008 :: [] ∧ (0x228 : BitVec 16) ∉
      ([0x008, 0x010, 0x100, 0x200, 0x208, 0x210, 0x218, 0x220, 0x230] : List (BitVec 16)) := by decide +kernel

/-- A route to fabric id 9 and a key for it at port 11. -/
def routed (s : State) : State :=
  { s with fabric := { s.fabric with ports := s.fabric.ports.put 11 { s.port 11 with
    routes := (s.port 11).routes.put 9 0x8000_0800, egress := (s.port 11).egress.put 0 0x1_0005 } } }

theorem test_meets_ls_way :
    (routed (receiving 64)).lsTo 9 = .ok (9, 5) ∧ (receiving 64).lsTo 9 = .error Code.xlate :=
  ⟨rfl, rfl⟩

/-- A gang of one tile in slot 255 whose tile has quiesced, and saved. -/
def quiesced (s : State) : State :=
  let s := (bound (aGang 1 1) s).modTile 5 fun t => { t with spilled := true }
  [0, 1, 2, 3].foldl (fun s f => s.setCtx (.facet 5 f 0) restoring) s

theorem test_meets_vacate :
    let s := { quiesced (issuing f0 restoring) with agenda := [.vacate 255 0x1000_0000_0040_0000] }
    s.gangs.find 255 = some (aGang 1 1) ∧ OneTile (aGang 1 1) 5 ∧ s.vacatable (aGang 1 1) = true ∧
    (issuing f0 user).freeze = false ∧ ((bound (aGang 1 1) (issuing f0 user)).tile 5).spilled = false ∧
    (onTile (fun t => { t with preempt := true }) s).vacatable (aGang 1 1) = false := by unfold OneTile; decide +kernel

theorem test_meets_restore :
    let g := { aGang 1 1 with phase := .saved }
    let s := { issuing cr kern with gangs := Table.empty.put 255 g }
    s.gangs.cells = [(255, g)] ∧ g.phase = .saved ∧ g.w = 1 ∧ g.h = 1 ∧ g.unit_ = (2 : Fin 4).val ∧
    (∀ x ∈ s.dispatch[2].launches, x.ticket ≠ g.ticket) ∧ s.freeze = false ∧ s.mgmt.mapFail = false ∧ 1 ≤ g.budget ∧
    0x40_0000 ≤ g.terms.lmem ∧ (s.tile 899).gang = none ∧ (s.tile 899).lasting = false ∧
    (onTile (fun t => { t with gang := some 1 }) s).tile 5 ≠ s.tile 5 := by decide +kernel

/-- Each row of the first check of a launch record, at a boundary of its range. -/
theorem test_meets_bad_launch :
    let r := launchRecord 1 1 0
    (BadLaunch (launchRecord 0 1 0) ∧ BadLaunch (launchRecord 31 1 0) ∧ BadLaunch (launchRecord 1 0 0) ∧ BadLaunch (launchRecord 1 31 0)) ∧
    (BadLaunch (r ||| (0x40_0000 : Vec) <<< 288) ∧ BadLaunch (r ||| (1 : Vec) <<< 96) ∧ BadLaunch (r ||| (0x3B_F000 : Vec) <<< 96) ∧
      BadLaunch (r ||| (17 : Vec) <<< 336)) ∧
    (BadLaunch (r ||| (1 : Vec) <<< 336) ∧ BadLaunch (r ||| (2 : Vec) <<< 336 ||| (255 : Vec) <<< 352) ∧
      BadLaunch (r &&& ~~~((0xBF : Vec) <<< 360)) ∧ BadLaunch (r ||| (4 : Vec) <<< 344) ∧ BadLaunch (r ||| (1 : Vec) <<< 368)) ∧
    ¬BadLaunch (launchRecord 30 30 0) ∧ ¬BadLaunch (r ||| (2 : Vec) <<< 336 ||| (254 : Vec) <<< 352) := by
  refine ⟨⟨?_, ?_, ?_, ?_⟩, ⟨?_, ?_, ?_, ?_⟩, ⟨?_, ?_, ?_, ?_, ?_⟩, ?_, ?_⟩ <;> unfold BadLaunch <;> decide +kernel

theorem test_meets_quantum_of_a_launch :
    let x := aLaunch (launchRecord 1 1 0x1000_0000_0031_0000) true
    let s := launching [x] (stored (issuing cr kern) 0x31_0008 8 0xFF)
    (s.gangs.cells = [] ∧ s.dispatch[0].launches = [x] ∧ (∀ w : Fin 4, w ≠ 0 → s.dispatch[w].launches = []) ∧ x.checked = true) ∧
    RootAt s (toWord (recBytes x.rec_ 16 8)) 0x31_0000 :=
  ⟨by decide +kernel, ok_of (by decide +kernel), by decide +kernel, by decide +kernel⟩

theorem test_meets_cold_start :
    let s := issuing cr kern
    let saved := { aGang 1 1 with phase := .saved }
    s.signet.keyed = true ∧ s.gangs.cells = [] ∧ { s with signet := { s.signet with keyed := false } }.signet.keyed = false ∧
    (∀ g ∈ [saved, aGang 1 1], { s with gangs := Table.empty.put 255 g }.gangs.cells = [(255, g)]) ∧ saved.phase = .saved ∧
    (aGang 1 1).phase ≠ .saved := by decide +kernel

theorem test_meets_not_resetting :
    (issuing cr kern).resetting = false ∧ { issuing cr kern with mgmt := { (issuing cr kern).mgmt with crashed := true } }.mgmt.crashed = true := by
  decide +kernel

/-- Instructions that have an encoding, and the word that decodes to each. -/
theorem test_meets_round_trip :
    (∀ i ∈ [Instr.add 3 1 2, .future, .runoff], i.wf = true ∧ (encode i).isSome = true) ∧ decode 0xC000_0000 = .future ∧ decode 0 = .runoff ∧
    decodeBytecode 0x0000_0301 = .tsupixMove 0 3 ∧ (encode (.tsupixMove 0 3)).isSome = true ∧ (encode (.copy (.facet 5 1) 0)).isNone = true := by
  decide +kernel

/-! ### States for the clauses on late faults, spilled tiles and quiesced queues -/

theorem test_meets_wfi_with_a_late_fault :
    let s := issuing fa { user with
      uvec := 0x2001, pending := [⟨0, 1, 2⟩], late := [⟨0x08, 9, none, some 7, false⟩], run := .parked .wfi }
    (s.ctx fa).pending = [⟨0, 1, 2⟩] ∧ bit (s.ctx fa).uvec 0 = true ∧ (s.ctx fa).uih = false ∧ (s.ctx fa).kernel = false ∧
    (s.ctx fa).late ≠ [] ∧ (s.ctx fa).kt = false ∧ s.preempting fa = false ∧ (s.ctx fa).run = .parked .wfi ∧
    (s.ctx fa).frozen = false ∧ (s.ctx fa).bytecode = false := by decide +kernel

theorem test_meets_fence_of_a_late_fault :
    let l : LateFault := ⟨0x08, 9, none, some 7, false⟩
    let other : LateFault := ⟨0x1B, 8, none, some 6, false⟩
    let late := fun (c : Ctx) => { c with tokens := c.tokens.set 1 ⟨[7]⟩, late := [other, l] }
    let s := issuing fa (late user)
    s.c.late = [other] ++ l :: [] ∧ l ∉ [other] ∧ (7 : Nat) ∈ (s.c.tokens[1]).ids ∧ l.id = some 7 ∧ other.id = some 6 ∧
    (6 : Nat) ∉ (s.c.tokens[1]).ids ∧ s.c.kt = false ∧ isCrest (issuing cr (late kern)).cur = true ∧ l.code ≠ 2 ∧ l.code ≠ 3 ∧
    ¬Releases (issuing fa { late user with estat := 0x20 }) := by
  refine ⟨by decide +kernel, by decide +kernel, by decide +kernel, rfl, rfl, by decide +kernel, by decide +kernel,
    by decide +kernel, by decide +kernel, by decide +kernel, fun h => absurd h.2 (by decide +kernel)⟩

theorem test_meets_barrier_of_a_spilled_tile :
    let s := onTile (fun t => { t with spilled := true }) (bound (aGang 1 1) (channel ⟨0, 0xF, none, 0xF, true⟩ (issuing f0 user)))
    s.gangs.find 255 = some (aGang 1 1) ∧ (s.tile 5).channels[15].reported = true ∧ (s.tile 5).spilled = true ∧
    ((onTile (fun t => { t with spilled := false }) s).tile 5).spilled = false := by decide +kernel

theorem test_meets_crest_register_writes :
    let x := fun (v : Word) => issuing cr (regs [(2, v)] user)
    ((x 0xF5).c.getX 2).toNat % 8 < 6 ∧ 6 ≤ ((x 6).c.getX 2).toNat % 8 ∧
    ((x 5).srRead cr 7 ||| 5).toNat % 8 < 6 ∧ ((x 5).srRead cr 7 &&& ~~~5).toNat % 8 < 6 ∧
    6 ≤ ((issuing cr { user with frm := 4 }).srRead cr 7 ||| 2).toNat % 8 ∧
    6 ≤ ((issuing cr { user with frm := 7 }).srRead cr 7 &&& ~~~1).toNat % 8 ∧ (x 5).c.kernel = false ∧
    (issuing cr kern).c.kernel = true := by decide +kernel

theorem test_meets_empty_axis :
    let s := entry (.loadw 1 0 0 1) (issuing f0 user)
    (s.mm 5).queue.length = 1 ∧ recValid (fpTensor 0x1000 1 0) = true ∧ recFmt (fpTensor 0x1000 1 0) = 1 ∧
    recD (fpTensor 0x1000 1 0) (1 : Fin 4).val = 0 ∧
    ∀ g : Fin 4, (s.mm 5).clasp[g] = none ∧ (s.ctx (.facet 5 g 0)).pe = false := by decide +kernel

theorem test_meets_empty_last_axis :
    let w := fpTensor 0x1000 1 1 - BitVec.ofNat 512 (2 ^ 224)
    recValid w = true ∧ recFmt w = 1 ∧ recD w 3 = 0 ∧ recD w 2 = 1 := by decide +kernel

theorem test_meets_quiesce_of_full_queues :
    let r := request (mb 1) 2 3 4
    let e : MailEntry := ⟨5, 6, 3, true, false⟩
    let s := (issuing fa (regs [(2, 0)] kern)).modNi (.facet 5 1) fun n =>
      { n with cq := n.cq.set 1 (List.replicate 8 r), mail := List.replicate 32 e }
    let others := fun (s : State) => [0, 2, 3].foldl (fun s g => s.modNi (.facet 5 g) fun n => { n with spilled := true }) s
    s.c.kernel = true ∧ bit (s.c.getX 2) 0 = false ∧ (∀ q : Fin 2, ∀ r ∈ (s.ni (.facet 5 1)).cq[q], r.phase = .queued) ∧
    (∀ q : Fin 2, (s.ni (.facet 5 1)).cq[q].length ≤ 8) ∧ (s.ni (.facet 5 1)).mail.length ≤ 32 ∧
    (s.ni (.facet 5 1)).cq[(1 : Fin 2)][7]? = some r ∧ (s.ni (.facet 5 1)).mail[31]? = some e ∧
    (s.ni (.facet 5 0)).spilled = false ∧ ∀ g : Fin 4, g ≠ 1 → ((others s).ni (.facet 5 g)).spilled = true := by decide +kernel

theorem test_meets_disagreeing_drain :
    let s := entry (.drain 7 511 1 4 false 0 0) (engine 0x3F80_0000 (issuing f0 user))
    ((s.mm 5).queue.all fun e => decide (e.op = .drain 7 511 1 4 false 0 0) && decide (e.pos = 0) && !e.stopping) = true ∧
    (s.mm 5).active.valid = true ∧ bit (s.mm 5).bz.site 0 = false ∧ (s.queue 0).open_ = false ∧ s.softErrors = [] := by
  decide +kernel

theorem test_meets_hold_release_checks :
    ∀ p ∈ [(2, 3, 0), (2, 2, 0), (2, 2, 1), (3, 2, 0)],
      let s := anObject 1 p.2.1 9 p.2.2 0 0 user
      s.check (.crest 2 0) 0 (pageAt 0x5001 - 1) 16 2 true = .ok (.loc 0x30_5000) ∧ s.softErrors = [] ∧
      s.resetting = false ∧ (s.relq 2).chip.length < 64 := by decide +kernel

theorem test_meets_boundary_of_four_shards :
    let w : PoolTake := ⟨fa, 4, true, 0⟩
    let s := fun (p : Pool) => { withPool p (ganged user) with now := 1024 }
    let one := pool [{ shard [] with waits := [w] }]
    one.s = 1 ∧ (s one).pool 63 = some one ∧ (one.shards.flatMap fun x => x.waits) = [w] ∧
    NoTaskWaits (s (pool [{ shard [] with waits := [w] }, shard [], shard [], shard []])) := by
  refine ⟨rfl, by decide +kernel, rfl, fun u => ?_⟩
  simp only [State.tile, Table.get, withPool, ganged, bound, onTile, State.modTile, issuing, State.setCtx, State.reset,
    Table.put, Table.empty, erase, insertKey, lookup]
  split <;> rfl

theorem test_meets_bind_priorities :
    let x := aLaunch (launchRecord 1 1 0x1000_0000_0031_0000) true
    let y := { x with ticket := 2, terms := { x.terms with prio := 1 } }
    let s := launching [x] (issuing cr kern)
    let u := { s with dispatch := s.dispatch.set 3 ⟨[y], 1, []⟩ }
    (∀ (w : Fin 4) (z : Launch), z ∈ s.dispatch[w].launches → z.terms.prio ≤ x.terms.prio) ∧ u.dispatch[0].launches = [x] ∧
    y ∈ u.dispatch[(3 : Fin 4)].launches ∧ y.checked = true ∧ PlainLaunch y.rec_ ∧ recBytes y.rec_ 40 1 = 1 ∧
    recBytes y.rec_ 41 1 = 1 ∧ 1 ≤ y.budget ∧ 0x40_0000 ≤ y.terms.lmem ∧ x.terms.prio < y.terms.prio := by
  refine ⟨fun w z h => ?_, by unfold PlainLaunch; decide +kernel⟩
  have e : ∀ w : Fin 4, ∀ z ∈ (launching [aLaunch (launchRecord 1 1 0x1000_0000_0031_0000) true] (issuing cr kern)).dispatch[w].launches,
      z.terms.prio ≤ 0 := by decide +kernel
  exact e w z h

theorem test_meets_restore_of_a_kept_tile :
    let kept : TileKept := ⟨Vector.replicate 4 (Kept.initial, []), (Tile.initial.channels).set 15 ⟨5, 0xF, none, 3, false⟩⟩
    let g := { aGang 1 1 with phase := .saved, kept := [kept] }
    let s := { issuing cr kern with gangs := Table.empty.put 255 g }
    s.gangs.cells = [(255, g)] ∧ g.phase = .saved ∧ g.kept = [kept] ∧ (s.tile 899).gang = none ∧ (s.tile 899).lasting = false ∧
    (∀ w : Fin 4, s.dispatch[w].launches = []) ∧ 1 ≤ g.budget ∧ 0x40_0000 ≤ g.terms.lmem := by decide +kernel

theorem test_meets_a_resetting_core :
    let slot := 3 + 2 * 2 ^ 128 + 0xE0 * 2 ^ 144
    let s := ({ issuing cr kern with mgmt := { State.reset.mgmt with crashed := true } } : State).setCtx (.crest 0 0) Ctx.initial
    slot % 256 = 3 ∧ slot / 2 ^ 128 % 32 = (2 : Fin 32).val ∧ slot / 2 ^ 144 % 256 = 0xE0 ∧ s.resetting = true := by decide +kernel

theorem test_meets_step_choices :
    let s := issuing fa user
    ({ s with agenda := [.hostWrite 64 (toBytes 2 0x1234)] } : State).agenda = .hostWrite 64 (toBytes 2 0x1234) :: [] ∧
    ({ s with agenda := [.event (.signetAlarm .tamper 3)] } : State).agenda = .event (.signetAlarm .tamper 3) :: [] := by decide +kernel

/-! ### The exact arithmetic of R78 -/

theorem test_meets_finite_values :
    (∀ v ∈ [Val.fin false 1 2 false, .fin true 4 0 false], FiniteFrom 0 v) ∧
    (([Val.fin false 1 2 false, .fin true 4 0 false].map (unitsOf 0)).sum = 0) ∧
    ([Val.fin false 3 2 false, .fin true 4 0 false].map (unitsOf 0)).sum ≠ 0 ∧
    ¬(∀ v ∈ [Val.fin false 1 2 false, .fin true 4 0 false], ∃ e, v = .fin false 0 e false) := by
  refine ⟨fun v h => ?_, by decide, by decide, fun h => ?_⟩
  · simp only [List.mem_cons, List.not_mem_nil, or_false] at h
    rcases h with rfl | rfl
    · exact ⟨_, _, _, rfl, by decide⟩
    · exact ⟨_, _, _, rfl, by decide⟩
  · obtain ⟨e, h⟩ := h _ (List.mem_cons_self ..)
    exact absurd h (by simp)

theorem test_meets_special_sums :
    [Val.inf false, .inf true].any Val.isNan = false ∧ Val.inf false ∈ [Val.inf false, .inf true] ∧
    Val.inf true ∈ [Val.inf false, .inf true] ∧ Val.inf (!true) ∉ [Val.inf true, .zero false] ∧
    [Val.zero true, .nan true].any Val.isNan = true ∧ (Val.inf false).isNan = false ∧
    (∀ v ∈ [Val.zero true], ∃ e, v = .fin true 0 e false) := by
  refine ⟨by decide, by decide, by decide, by decide, by decide, by decide, fun v h => ⟨0, ?_⟩⟩
  simpa [Val.zero] using h

theorem test_invalid_results :
    mulExact (.inf false) (.zero true) = ⟨.nan false, 0x10⟩ ∧ divExact (.fin false 3 0 false) (.zero true) = ⟨.inf true, 0x08⟩ ∧
    sqrtExact (.fin true 4 0 false) = ⟨.nan false, 0x10⟩ ∧ sumExact 0 [.inf false, .inf true] = ⟨.nan false, 0x10⟩ := by decide

theorem test_third_and_root_of_two :
    ((divExact (.fin false 1 0 false) (.fin false 3 0 false)).round 1 0 0).code = 0x3EAA_AAAB ∧
    ((sqrtExact (.fin false 2 0 false)).round 1 0 0).code = 0x3FB5_04F3 := by decide +kernel

theorem test_meets_float_order :
    ∀ p ∈ [(0, 0x7FF0_0000_0000_0001), (1, 0x7F80_0001), (2, 0x7C01), (3, 0x7F81)],
      p.1 < 4 ∧ p.2 < 2 * 2 ^ (fmtBits p.1 - 1) ∧ (decodeFmt p.1 p.2).isNan = true ∧ (decodeFmt p.1 p.2).isSignalling = true ∧
      (decodeFmt p.1 0).isNan = false ∧ unitsOf 0 (.fin true 1 0 false) - unitsOf 0 (.fin false 1 0 false) < 0 ∧
      (minMaxFloat true p.1 p.2 0) = (0, 0x10) := by decide +kernel

/-- The trap code in ecause after an instruction. -/
def codeAfter (i : Instr) (s : State) : Nat :=
  match exec i s with
  | .next u => bits u.c.ecause 7 0
  | _ => 0

theorem test_unlisted_register : codeAfter (.srr 3 0x015) (issuing cr kern) = 1 ∧ codeAfter (.srw 3 2 0x014) (issuing cr kern) = 1 := by
  decide +kernel

/-! ### States for parks, reloads, budgets and lost lines -/

theorem test_meets_withdrawn_parks :
    (∀ w ∈ [Park.mailbox, .queue, .semaphore 31, .mutex 15, .barrier 0 1, .arrive 15, .fence 3, .bead 10, .beads, .task, .cairn,
        .copyFull 1, .order, .tsync 0],
      Withdrawn w ∧ ((issuing fa { pending with run := .parked w }).ctx fa).run = .parked w) ∧
    (∀ w ∈ [Park.translation 0 0 0 none, .resolved 0 0, .clasp, .matrix 3, .matrixWait 3, .row 3, .quiesce], ¬Withdrawn w) ∧
    ((issuing fa { pending with run := .parked (.mutex 15) }).ctx fa).late = [] := by
  refine ⟨fun w h => ?_, fun w h => ?_, by decide +kernel⟩
  · simp only [List.mem_cons, List.not_mem_nil, or_false] at h
    rcases h with h | h | h | h | h | h | h | h | h | h | h | h | h | h <;> subst h <;> exact ⟨trivial, by decide +kernel⟩
  · simp only [List.mem_cons, List.not_mem_nil, or_false] at h
    rcases h with h | h | h | h | h | h | h <;> subst h <;> exact id

/-- A context parked on a mutex waits for it no more once its interrupt is delivered (R397). -/
theorem test_interrupt_withdraws_a_mutex :
    let s := mutex (some 0x13) [fa, f0] (issuing fa { pending with run := .parked (.mutex 15) })
    (match exec (.userInterruptDelivery fa) s with
      | .next u => decide ((u.tile 5).mutexes[15].waiters = [f0]) && decide ((u.ctx fa).xn 31 = 0x1000)
      | _ => false) = true := by decide +kernel

theorem test_meets_late_fault_in_a_kernel_handler :
    let s := issuing fa { kern with estat := 0x21, late := [⟨0x08, 0x10, none, none, false⟩] }
    (s.ctx fa).late = ⟨0x08, 0x10, none, none, false⟩ :: [] ∧ (s.ctx fa).run = .ready ∧ (s.ctx fa).frozen = false ∧
    isCrest fa = false ∧ (s.ctx fa).kt = true ∧ (s.queue 0).waiters = [] := by decide +kernel

theorem test_meets_save_in_a_handler :
    let j := Joint.queued .save true
    let s := clasped 0x8000_0000 [0, 0, 0] j { kern with estat := 0x21 }
    let u := clasped 0x8000_0000 [0, 0, 0] j { kern with estat := 0xA1 }
    (∀ v ∈ [s, u], LastAtClasp v 5 1 [0, 0, 0] j (Vector.replicate 4 0) ∧ v.c.kernel = true ∧ v.c.kt = true ∧ v.latch.rep = none) ∧
    s.c.msv = false ∧ ∀ g : Fin 4, (u.ctx (.facet 5 g 0)).msv = true := by
  unfold LastAtClasp RingFree; decide +kernel

theorem test_meets_reload :
    let r := request (mb 1) 2 3 4
    let e : MailEntry := ⟨5, 6, 7, false, false⟩
    let s := (issuing fa (regs [(2, 1)] kern)).modNi (.facet 5 1) fun n => { n with
      spilled := true, quiescing := true, cq := n.cq.set 1 [r], mail := [e]
      kept := ⟨#v[[r], List.replicate 8 r], [e, e], List.replicate 32 e, [(10, ⟨1, 2, 3⟩)]⟩ }
    let u := onTile (fun t => { t with spilled := true }) s
    let x := (s.ni (.facet 5 1)).kept
    s.c.kernel = true ∧ bit (s.c.getX 2) 0 = true ∧ x.past[1]? = some e ∧ x.mail[31]? = some e ∧ x.cq[(1 : Fin 2)][7]? = some r ∧
    r.mark = false ∧ s.mem.read (lmLoc 5 (0x3F_9000 + (0x5D70 + 2 * (8 * (2 * 1 + 1) + 7) + 1))) 1 % 16 = (0 : Fin 11).val ∧
    (s.ni (.facet 5 1)).mail[0]? = some e ∧ (s.ni (.facet 5 1)).cq[(1 : Fin 2)][0]? = some r ∧ (s.tile 5).spilled = false ∧
    (u.tile 5).spilled = true := by decide +kernel

/-- The overflow entry comes back first, with the doublewords of the area, and the queued request that was spilled ahead of the one
pushed since (R262). -/
theorem test_reload_takes_back :
    let e : MailEntry := ⟨3, 6, 7, false, false⟩
    let s := (issuing fa (regs [(2, 1)] kern)).modNi (.facet 5 1) fun n => { n with
      spilled := true, quiescing := true, cq := n.cq.set 0 [request 9 9 9 9]
      kept := ⟨#v[[request 1 2 3 4], []], [e], [e], []⟩ }
    let s := stored (stored (stored s (lmLoc 5 0x3F_EBA0) 8 11) (lmLoc 5 0x3F_DE00) 8 0x55) (lmLoc 5 0x3F_ED91) 1 0x17
    (match exec (.cpyQuiesce 2) s with
      | .next u =>
        let n := u.ni (.facet 5 1)
        decide (n.mail.map (fun e => (e.ctx, e.lo)) = [(3, 11), (0, 0)]) && decide (n.cq[0].map (fun r => r.w 0) = [0x55, 9]) &&
          decide (n.cq[0].map (fun r => r.agent) = [.facet 5 1 7, fa])
      | _ => false) = true := by decide +kernel

theorem test_meets_fault_record_at_quota :
    let s := holding (issuing fa user)
    let u := { s with queues := s.queues.put 0 { openQueue 64 with quota := 0 } }
    u.mgmt.records.held ≠ [] ∧ u.resetting = false ∧ (u.queue 0).open_ = true ∧ (u.queue 0).items.length = 64 ∧
    (u.queue 0).quota ≤ (u.queue 0).scount ∧ (u.queue 0).waiters = [] := by decide +kernel

theorem test_meets_quantum_budgets :
    let s := (bound (aGang 1 1) (issuing cr kern)).setCtx (.facet 5 2 0) user
    let u := stored (stored s 0x31_0008 8 0xFF) 0x31_0010 4 1
    s.mem.read (0x31_0000 + 16) 4 = 0 ∧ s.gangs.cells = [(255, aGang 1 1)] ∧ (aGang 1 1).phase = .running ∧ OneTile (aGang 1 1) 5 ∧
    (s.ctx (.facet 5 2 0)).run = .ready ∧ (s.ctx (.facet 5 2 0)).pe = false ∧ u.mem.read (0x31_0000 + 16) 4 = 1 ∧
    u.heldTiles (aGang 1 1).rid = 1 := by unfold OneTile; decide +kernel

/-- A crest core that does not answer loses the bytes of the line that it has stored and no other; one that something else has written
since stays (R365). -/
theorem test_silent_core_loses_its_line :
    let s := issuing cr kern
    let s := (s.performBy cr false .store 0x30_0010 4 0x44332211).1
    let s := (s.performBy cr false .store 0x30_0040 4 0x88776655).1
    let s := { stored s 0x30_0011 1 0xEE with silent := [(2, 0xC000)] }
    (match exec (.kernelCrash 2) s with
      | .next u => decide (u.mem.read 0x30_0010 4 = 0xEE00) && decide (u.mem.read 0x30_0040 4 = 0x88776655) &&
          decide (u.dirty.cells = []) && decide (u.silent = [])
      | _ => false) = true := by decide +kernel

/-- A copy of 128 bytes whose first piece alone has been performed; the step of its row performs the rest (R43, R245). -/
theorem test_copy_in_pieces :
    let s := stored (stored (copying (request (mb 1) 0x100 0x200 0x80)) (lmLoc 5 0x100) 8 7) (lmLoc 5 0x140) 8 9
    let u := s.copyPieces (.facet 5 1) 1 1
    u.mem.read (lmLoc 5 0x200) 8 = 7 ∧ u.mem.read (lmLoc 5 0x240) 8 = 0 ∧
    (match exec (.copy (.facet 5 1) 1) u with
      | .next v => decide (v.mem.read (lmLoc 5 0x240) 8 = 9)
      | _ => false) = true := by decide +kernel

end Sys2Proof.Tests
end

section
/-! PROOF. Every instruction and every step goes on, and what a step takes from the agenda (R370, R375; log entry 1). -/

namespace Sys2Proof.Machine

/-- A vector instruction of a REP group answers a next state. -/
theorem execVectorInstr_next (i : Instr) (s : State) : ∃ u, execVectorInstr i s = .next u := by
  unfold execVectorInstr
  split <;> exact ⟨_, rfl⟩

/-- So does one repetition of a group. -/
theorem State.repeat_next (s : State) (w : Insn) (i : Instr) (lim : Nat × Nat × Nat) (n ds as bs : Nat) :
    ∃ u, s.repeat w i lim n ds as bs = .next u := by
  unfold State.repeat
  dsimp only
  split
  · split
    · exact ⟨_, rfl⟩
    · exact execVectorInstr_next _ _
  · exact ⟨_, rfl⟩

/-- And REP. -/
theorem execRep_next (n : BitVec 6) (ds as bs : BitVec 3) (s : State) : ∃ u, execRep n ds as bs s = .next u := by
  unfold execRep
  split
  · exact ⟨_, rfl⟩
  · exact ⟨_, rfl⟩
  · split
    · exact ⟨_, rfl⟩
    · split
      · exact ⟨_, rfl⟩
      · split
        · exact ⟨_, rfl⟩
        · exact State.repeat_next _ _ _ _ _ _ _ _

/-- Every instruction, and every step of the part, answers a next state: each meaning but that of REP is one by its form. -/
theorem exec_next (i : Instr) (s : State) : ∃ u, exec i s = .next u := by
  cases i with
  | rep c d a b => exact execRep_next c d a b s
  | _ => exact ⟨_, rfl⟩

theorem tickOut_next {o : Out} (h : ∃ u, o = .next u) : ∃ u, tickOut o = .next u := by
  obtain ⟨u, rfl⟩ := h
  exact ⟨_, rfl⟩

/-- Running a word that has been fetched goes on. -/
theorem State.runWord_next (s : State) (w : Insn) : ∃ u, s.runWord w = .next u := by
  unfold State.runWord
  dsimp only
  split
  · exact ⟨_, rfl⟩
  · exact exec_next _ _

theorem State.fetchTrap_next (s : State) (code : Nat) : ∃ u, s.fetchTrap code = .next u := by
  unfold State.fetchTrap
  dsimp only
  split <;> exact ⟨_, rfl⟩

theorem State.runLanivo_next (s : State) : ∃ u, s.runLanivo = .next u := by
  unfold State.runLanivo
  split
  · exact ⟨_, rfl⟩
  · exact State.fetchTrap_next _ _
  · exact State.runWord_next _ _

theorem State.runBytecode_next (s : State) : ∃ u, s.runBytecode = .next u := by
  unfold State.runBytecode
  split
  · exact ⟨_, rfl⟩
  · exact exec_next _ _

theorem State.issue_next (s : State) (a : Agent) : ∃ u, s.issue a = .next u := by
  unfold State.issue State.runNext
  split
  · exact ⟨_, rfl⟩
  · split
    · exact ⟨_, rfl⟩
    · split
      · exact State.runBytecode_next _
      · exact State.runLanivo_next _

theorem State.act_next (s : State) (x : Choice) : ∃ u, s.act x = .next u := by
  cases x with
  | issue a => exact tickOut_next (s.issue_next a)
  | event i =>
    rw [State.act]
    split
    · exact exec_next i s
    · exact tickOut_next (exec_next i s)
  | _ => exact ⟨_, rfl⟩

theorem State.proceed_next (s : State) : ∃ u, s.proceed = .next u := by
  unfold State.proceed
  split
  · exact ⟨_, rfl⟩
  · split
    · exact tickOut_next (s.issue_next _)
    · exact ⟨_, rfl⟩

/-! ### What a step takes -/

/-- A step does what the agenda says first. -/
theorem step_of_choice {s : State} {x : Choice} {rest : List Choice} (h : s.agenda = x :: rest) :
    step s = { s with agenda := rest }.act x := by
  unfold step
  rw [h]

/-- With an empty agenda the part moves by itself. -/
theorem step_of_no_choice {s : State} (h : s.agenda = []) : step s = s.proceed := by
  unfold step
  rw [h]

/-- No step of the part ends in a fault or a refusal. -/
theorem step_next (s : State) : ∃ u, step s = .next u := by
  cases h : s.agenda with
  | nil => rw [step_of_no_choice h]; exact s.proceed_next
  | cons x rest => rw [step_of_choice h]; exact State.act_next _ _

/-- An event other than an alarm of the Signet takes a cycle. -/
theorem State.act_event {s u : State} {i : Instr} (hi : ∀ cause agent, i ≠ .signetAlarm cause agent) (e : exec i s = .next u) :
    s.act (.event i) = .next (u.tick 1) := by
  have h : instant i = false := by
    unfold instant
    split
    · exact absurd rfl (hi _ _)
    · rfl
  simp [State.act, h, e, tickOut]

/-- An alarm takes none (R370). -/
theorem State.act_alarm {s u : State} {cause : AlarmCause} {agent : BitVec 16} (e : exec (.signetAlarm cause agent) s = .next u) :
    s.act (.event (.signetAlarm cause agent)) = .next u := by
  simpa [State.act, instant] using e

/-! ### What the host writes in its own memory (R375) -/

theorem toBytes_getElem (n v i : Nat) (h : i < (toBytes n v).length) :
    (toBytes n v)[i] = BitVec.ofNat 8 (v / 256 ^ i) := by
  induction n generalizing v i with
  | zero => simp [toBytes] at h
  | succ n ih =>
    cases i with
    | zero => simp [toBytes]
    | succ i =>
      simp only [toBytes, List.getElem_cons_succ]
      rw [ih, Nat.div_div_eq_div_mul, Nat.pow_succ']

/-- A write of the host changes its memory alone. -/
theorem State.hostWrite_only (s : State) (a : Nat) (bs : List Byte) :
    s.hostWrite a bs = { s with host := { s.host with mem := (s.hostWrite a bs).host.mem } } := by
  induction bs generalizing s a with
  | nil => rfl
  | cons b bs ih => exact ih _ _

theorem State.hostWrite_find_out (s : State) (a : Nat) (bs : List Byte) {l : Nat} (h : l < a ∨ a + bs.length ≤ l) :
    (s.hostWrite a bs).host.mem.find l = s.host.mem.find l := by
  induction bs generalizing s a with
  | nil => rfl
  | cons b bs ih =>
    rw [List.length_cons] at h
    exact (ih _ _ (by omega)).trans (Table.find_put_other _ _ (by omega))

theorem State.hostWrite_find_in (s : State) (a : Nat) (bs : List Byte) {i : Nat} (h : i < bs.length) :
    (s.hostWrite a bs).host.mem.find (a + i) = some bs[i] := by
  induction bs generalizing s a i with
  | nil => simp at h
  | cons b bs ih =>
    cases i with
    | zero =>
      rw [State.hostWrite, State.hostWrite_find_out _ _ _ (.inl (by omega))]
      exact Table.find_put_same _ _ _
    | succ i =>
      rw [show a + (i + 1) = a + 1 + i by omega]
      exact ih _ _ (by simpa using h)

end Sys2Proof.Machine

namespace Sys2Proof.Safety

open Sys2Proof.Machine

/-- The n bytes of a value that the host writes stand there (R375). -/
theorem hostBytes_hostWrite (s : State) (a n v : Nat) : HostBytes (s.hostWrite a (toBytes n v)) a n v := by
  intro i hi
  rw [State.hostWrite_find_in s a _ (by simpa using hi), toBytes_getElem]

/-- R370, R375, R365 and log entries 1, 23 and 75: the agenda's first choice, and what the part does where it is empty. -/
theorem stepFollowsAgenda : Sys2Proof.Claims.StepFollowsAgenda := by
  intro s rest i n g uncorrectable core lines
  refine ⟨?event, ?hostWrite, ?pass, ?softError, ?silence, ?empty, step_next s⟩
  case event =>
    intro h u e
    rw [step_of_choice h]
    exact ⟨fun hi => State.act_event hi e, by rintro cause agent rfl; exact State.act_alarm e⟩
  case hostWrite =>
    intro at_ v h
    refine ⟨_, step_of_choice h, State.hostWrite_only _ _ _, hostBytes_hostWrite _ _ _ _, fun l hl => ?_⟩
    exact State.hostWrite_find_out _ _ _ (by simpa using hl)
  case pass => exact fun h => ⟨_, step_of_choice h, rfl⟩
  case softError => exact fun h => step_of_choice h
  case silence => exact fun h => step_of_choice h
  case empty =>
    intro h
    rw [step_of_no_choice h]
    exact ⟨fun u hu => by simp [State.proceed, hu], fun a hm ha => by simp [State.proceed, hm, ha],
      fun hm ha => by simp [State.proceed, hm, ha]⟩

end Sys2Proof.Safety
end

section
/-! PROOF. A context in Lanivo mode fetches the word at its pc and runs what it decodes to (R23, R83, R91, R166, R360). -/

namespace Sys2Proof.Machine

theorem State.facet_modFacet_other (s : State) {t u : Fin 900} {f h : Fin 4} (g : Facet → Facet) (ne : (u, h) ≠ (t, f)) :
    (s.modFacet t f g).facet u h = s.facet u h := by
  have key : u.val * 4 + h.val ≠ t.val * 4 + f.val := by
    intro e
    exact ne (Prod.ext (Fin.ext (by simp only; omega)) (Fin.ext (by simp only; omega)))
  exact Table.get_put_other _ _ _ key

/-! ### The context in issue -/

@[simp] theorem State.select_cur (s : State) (a : Agent) : (s.select a).cur = a := by cases a <;> rfl

@[simp] theorem State.select_ctx (s : State) (a b : Agent) : (s.select a).ctx b = s.ctx b := by cases a <;> rfl

@[simp] theorem State.select_c (s : State) (a : Agent) : (s.select a).c = s.ctx a := by cases a <;> rfl

/-- The facet of a context in issue notes it, and no other facet does (R23). -/
theorem State.select_facet_same (s : State) (t : Fin 900) (f : Fin 4) (k : Fin 11) :
    (s.select (.facet t f k)).facet t f = { s.facet t f with lastCtx := k.val } :=
  State.facet_modFacet_same { s with cur := .facet t f k } t f _

theorem State.select_facet_other (s : State) {t u : Fin 900} {f h : Fin 4} (k : Fin 11) (ne : (u, h) ≠ (t, f)) :
    (s.select (.facet t f k)).facet u h = s.facet u h :=
  State.facet_modFacet_other { s with cur := .facet t f k } _ ne

/-- A boundary with no late fault and no interrupt to deliver takes nothing (R174, R176). -/
theorem State.boundary_none {s : State} {a : Agent} (hl : (s.ctx a).late = []) (hd : (s.ctx a).deliverable = false) :
    s.boundary a = none := by
  simp [State.boundary, State.lateDue, State.dueLate, hl, hd]

/-- A context whose turn it is, with nothing that its boundary takes, runs its instruction (R23). -/
theorem State.issue_runs {s : State} {a : Agent} (ht : s.hasTurn a = true) (hl : (s.ctx a).late = [])
    (hd : (s.ctx a).deliverable = false) : s.issue a = (s.select a).runNext := by
  have hb : (s.select a).boundary a = none := State.boundary_none (by simpa using hl) (by simpa using hd)
  simp [State.issue, ht, hb]

/-- In Lanivo mode it runs the word that its fetch finds. -/
theorem State.runNext_word {s : State} {w : Insn} (hm : s.c.bytecode = false) (hf : s.fetch s.c.pc = (s, .word w)) :
    s.runNext = s.runWord w := by
  simp [State.runNext, State.runLanivo, hm, hf]

/-- A facet fetches from its own local memory, within cwin or the kernel reserve (R166). -/
theorem State.fetch_facet {s : State} {t : Fin 900} {f : Fin 4} {k : Fin 11} {pc : Word} {w : Insn} (hc : s.cur = .facet t f k)
    (hp : s.c.mayFetch pc = true) (hw : s.mem.read (lmLoc t.val pc.toNat) 4 = w.toNat) : s.fetch pc = (s, .word w) := by
  simp [State.fetch, hc, hp, hw]

theorem Ctx.mayFetch_iff (c : Ctx) (pc : Word) : c.mayFetch pc = true ↔
    (c.kernel = false ∧ bits c.cwin 21 0 ≤ pc.toNat ∧ pc.toNat < bits c.cwin 53 32) ∨
      (c.kernel = true ∧ 0x3C_0000 ≤ pc.toNat ∧ pc.toNat < 0x40_0000) := by
  cases h : c.kernel <;> simp [Ctx.mayFetch, h]

end Sys2Proof.Machine

namespace Sys2Proof.Safety

open Sys2Proof.Machine

/-! ### What a crest core may reach (R36, R260, R359) -/

/-- The cache of crest core k translates the page of va, which lies in HBM, to pa, with the permission for a kind of access at a
privilege. -/
def Granted (s : State) (k : Fin 32) (va : Word) (kind pa : Nat) (kernel : Bool) : Prop :=
  bits va 63 60 ≠ 0 ∧ bits va 63 60 ≠ 15 ∧ pa < Config.hbmBytes ∧
    ∃ l, tlbFind (s.tile (1000 + k.val)).tlb 0 (va.toNat / 0x10000) = some l ∧ permits l.perms kind kernel = true ∧ l.pa va = pa

theorem permits_fetch (perms : BitVec 4) (kernel : Bool) :
    permits perms 3 kernel = true ↔ bit perms 2 = true ∧ (kernel = true ∨ bit perms 3 = true) := by
  simp [permits]

/-- The checks of an access that is granted find its place (R121). -/
theorem check_granted {s : State} {k : Fin 32} {va : Word} {kind pa : Nat} {kernel : Bool} (c : Fin 2) (n : Nat)
    (h : Granted s k va kind pa kernel) : s.check (.crest k c) 0 va n kind kernel = .ok (.loc pa) := by
  obtain ⟨h0, h15, hpa, l, hl, hp, rfl⟩ := h
  have ht : s.translate (tlbTile (.crest k c)) 0 va (isCrest (.crest k c)) = some l := by
    simp only [State.translate, tlbTile, hl]
  have hs : ¬Config.signetBase ≤ l.pa va := by
    simp only [Config.hbmBytes, Config.signetBase] at hpa ⊢
    omega
  simp only [State.check, if_neg h0, if_neg h15, ht, if_neg hs, hp]
  simp [State.checkSpace, State.ownSpace, State.isFenced, hbmLoc]

/-- A crest core fetches the word at a paged address whose page grants X (R360). -/
theorem fetch_crest {s : State} {k : Fin 32} {c : Fin 2} {pc : Word} {pa : Nat} {w : Insn} (hc : s.cur = .crest k c)
    (hs : s.c.spc = 0) (h : Granted s k pc 3 pa s.c.kernel) (hw : s.mem.read pa 4 = w.toNat) : s.fetch pc = (s, .word w) := by
  have hk := check_granted c 4 h
  obtain ⟨h0, h15, -⟩ := h
  have hp : isPaged pc.toNat = true := by simpa [isPaged, bits] using And.intro h0 h15
  simp only [State.fetch, hc, State.crestFetch, if_pos hp, hs, hk, hw, BitVec.ofNat_toNat, BitVec.setWidth_eq]

/-! ### A step of a context in Lanivo mode (R23, R83, R91) -/

/-- A word runs as the instruction that it decodes to, or traps FEATURE. -/
theorem runWord_cases (s : State) (w : Insn) :
    (lacksFeature s.cur w = false → s.runWord w = exec (decode w) (s.latchFirst w)) ∧
    (lacksFeature s.cur w = true → s.runWord w = .next ((s.latchFirst w).trap 3 (w.setWidth 64))) := by
  constructor <;> intro h
  · exact if_neg (ne_true_of_eq_false h)
  · exact if_pos h

/-- The step of a context whose fetch finds a word. -/
theorem step_runs_word {s : State} {a : Agent} {rest : List Choice} {w : Insn} (ha : s.agenda = .issue a :: rest)
    (ht : State.hasTurn { s with agenda := rest } a = true) (hl : (s.ctx a).late = []) (hd : (s.ctx a).deliverable = false)
    (hm : (s.ctx a).bytecode = false)
    (hf : (State.select { s with agenda := rest } a).fetch (s.ctx a).pc =
      (State.select { s with agenda := rest } a, .word w)) :
    step s = tickOut ((State.select { s with agenda := rest } a).runWord w) := by
  have hc : (State.select { s with agenda := rest } a).c = s.ctx a := State.select_c _ _
  refine (step_of_choice ha).trans (congrArg tickOut ((State.issue_runs ht hl hd).trans (State.runNext_word ?_ ?_)))
  · rw [hc, hm]
  · rw [hc, hf]

/-- R23, R83, R91, R166 and R360, in Lanivo mode. -/
theorem stepRunsDecoded : Sys2Proof.Claims.StepRunsDecoded := by
  intro s a rest w ha s0 c ht hl hd hm hfacet hcrest
  have hcur : (s0.select a).cur = a := State.select_cur _ _
  have hc : (s0.select a).c = c := State.select_c _ _
  have hf : (s0.select a).fetch c.pc = (s0.select a, .word w) := by
    cases a with
    | facet t f k =>
      obtain ⟨hp, hw⟩ := hfacet t f k rfl
      exact State.fetch_facet hcur (by rw [hc]; exact (Ctx.mayFetch_iff _ _).mpr hp) hw
    | crest k j =>
      obtain ⟨hs, h0, h15, l, htlb, hx, hu, hpa, hw⟩ := hcrest k j rfl
      have hpriv : permits l.perms 3 c.kernel = true := (permits_fetch _ _).mpr ⟨hx, hu⟩
      exact fetch_crest hcur (by rw [hc]; exact hs) ⟨h0, h15, by omega, l, htlb, by rw [hc]; exact hpriv, rfl⟩ hw
  have hstep := step_runs_word ha ht hl hd hm hf
  obtain ⟨hruns, htraps⟩ := runWord_cases (s0.select a) w
  rw [hcur] at hruns htraps
  refine ⟨(s0.select a).latchFirst w, by cases a <;> rfl, ?noted, ?facetsKept, ?runs, ?traps⟩
  case noted =>
    rintro t f k rfl
    exact ⟨fun m g hne => State.select_facet_other s0 k hne, State.select_facet_same s0 t f k⟩
  case facetsKept =>
    intro h
    cases a with
    | facet t f k => exact absurd h (by simp [isCrest])
    | crest k j => rfl
  case runs =>
    intro h
    rw [hstep, hruns h]
  case traps =>
    intro h
    rw [hstep, htraps h, tickOut]

end Sys2Proof.Safety
end

section
/-! PROOF. A crest context in bytecode mode fetches the instruction at the address in x19 and runs it (R316, R323, R324): its
accesses only put the entries of the translation cache in another order. -/

namespace Sys2Proof.Machine

/-! ### A translation cache that holds a page already (R260) -/

/-- Is an entry of a translation cache that of a page? -/
def TlbEntry.isFor (e : TlbEntry) (sp : Byte) (page : Nat) : Bool := e.space = sp && e.page = page

theorem TlbEntry.isFor_iff (e : TlbEntry) (sp : Byte) (page : Nat) : e.isFor sp page = true ↔ e.space = sp ∧ e.page = page := by
  simp [TlbEntry.isFor]

theorem tlbFind_eq (tlb : List TlbEntry) (sp : Byte) (page : Nat) :
    tlbFind tlb sp page = (tlb.find? (·.isFor sp page)).map fun e => ⟨e.frame, e.perms⟩ := rfl

/-- A page that the cache holds leaves room for its entry, so that no other entry leaves. -/
theorem tlbInsert_found {tlb : List TlbEntry} {sp : Byte} {page : Nat} {l : Leaf} (h : tlbFind tlb sp page = some l)
    (hn : tlb.length ≤ 64) :
    (tlb.filter fun e => !e.isFor sp page).length < 64 ∧
      tlbInsert tlb sp page l = (tlb.filter fun e => !e.isFor sp page) ++ [⟨sp, page, l.frame, l.perms⟩] := by
  obtain ⟨e, he, -⟩ := Option.map_eq_some_iff.mp h
  have hlt : (tlb.filter fun e => !e.isFor sp page).length < tlb.length :=
    List.length_filter_lt_length_iff_exists.mpr ⟨e, List.mem_of_find?_eq_some he, by
      have hp := List.find?_some he
      simpa [TlbEntry.isFor] using hp⟩
  have hroom : ¬64 ≤ (tlb.filter fun e => !e.isFor sp page).length := by omega
  exact ⟨by omega, congrArg (· ++ _) (if_neg hroom)⟩

/-- The cache is still within its size. -/
theorem tlbInsert_length {tlb : List TlbEntry} {sp : Byte} {page : Nat} {l : Leaf} (h : tlbFind tlb sp page = some l)
    (hn : tlb.length ≤ 64) : (tlbInsert tlb sp page l).length ≤ 64 := by
  obtain ⟨hlt, e⟩ := tlbInsert_found h hn
  rw [e, List.length_append]
  exact hlt

/-- And translates every page as before. -/
theorem tlbFind_tlbInsert {tlb : List TlbEntry} {sp : Byte} {page : Nat} {l : Leaf} (h : tlbFind tlb sp page = some l)
    (hn : tlb.length ≤ 64) (sp' : Byte) (page' : Nat) : tlbFind (tlbInsert tlb sp page l) sp' page' = tlbFind tlb sp' page' := by
  rw [(tlbInsert_found h hn).2]
  by_cases hk : sp = sp' ∧ page = page'
  · obtain ⟨rfl, rfl⟩ := hk
    have hnone : (tlb.filter fun e => !e.isFor sp page).find? (·.isFor sp page) = none := by
      rw [List.find?_eq_none]
      intro e he
      simpa using (List.mem_filter.mp he).2
    rw [h, tlbFind_eq, List.find?_append, hnone]
    simp [TlbEntry.isFor]
  · have hsame : (tlb.filter fun e => !e.isFor sp page).find? (·.isFor sp' page') = tlb.find? (·.isFor sp' page') := by
      rw [List.find?_filter]
      congr 1
      funext e
      by_cases he : e.isFor sp' page' = true
      · have hne : e.isFor sp page = false := by
          obtain ⟨rfl, rfl⟩ := (e.isFor_iff _ _).mp he
          exact Bool.eq_false_iff.mpr fun h' => hk (((e.isFor_iff _ _).mp h').imp Eq.symm Eq.symm)
        simp [he, hne]
      · simp [he]
    have hlast : [(⟨sp, page, l.frame, l.perms⟩ : TlbEntry)].find? (·.isFor sp' page') = none := by
      simpa [TlbEntry.isFor] using hk
    rw [tlbFind_eq, tlbFind_eq, List.find?_append, hsame, hlast, Option.or_none]

/-! ### Reading a run of bytes in parts -/

theorem fromBytes_append (l m : List Byte) : fromBytes (l ++ m) = fromBytes l + fromBytes m * 2 ^ (8 * l.length) := by
  induction l with
  | nil => simp [fromBytes]
  | cons b l ih =>
    have hp : (2 : Nat) ^ (8 * (l.length + 1)) = 2 ^ (8 * l.length) * 256 := by rw [Nat.mul_succ, Nat.pow_add]
    rw [List.cons_append, fromBytes, fromBytes, ih, List.length_cons, hp, Nat.mul_add, Nat.add_assoc,
      Nat.mul_comm 256 (fromBytes m * _), Nat.mul_assoc]

theorem Memory.bytes_append (m : Memory) (a j n : Nat) : m.bytes a (j + n) = m.bytes a j ++ m.bytes (a + j) n := by
  induction j generalizing a with
  | zero => simp [Memory.bytes]
  | succ j ih =>
    rw [show j + 1 + n = j + n + 1 by omega, Memory.bytes, ih (a + 1), Memory.bytes, List.cons_append,
      show a + 1 + j = a + (j + 1) by omega]

theorem Memory.bytes_length (m : Memory) (a n : Nat) : (m.bytes a n).length = n := by
  induction n generalizing a with
  | zero => rfl
  | succ n ih => rw [Memory.bytes, List.length_cons, ih]

/-- A read of j + n bytes is the read of the first j and of the n behind them. -/
theorem Memory.read_append (m : Memory) (a j n : Nat) : m.read a (j + n) = m.read a j + m.read (a + j) n * 2 ^ (8 * j) := by
  rw [Memory.read, Memory.bytes_append, fromBytes_append, Memory.bytes_length]
  rfl

theorem Memory.read_one_lt (m : Memory) (a : Nat) : m.read a 1 < 256 := by
  have := (m.byte a).isLt
  simpa [Memory.read, Memory.bytes, fromBytes] using this

/-- The first byte of a run. -/
theorem Memory.read_succ_mod (m : Memory) (a n : Nat) : m.read a (1 + n) % 256 = m.read a 1 := by
  have h : (2 : Nat) ^ (8 * 1) = 256 := rfl
  rw [Memory.read_append, h, Nat.add_mul_mod_self_right, Nat.mod_eq_of_lt (m.read_one_lt a)]

theorem bit_zero_even {w : Nat} {v : BitVec w} (h : bit v 0 = false) : v.toNat % 2 = 0 := by
  have : ¬v.toNat % 2 = 1 := by simpa [bit, BitVec.getLsbD, Nat.testBit_zero] using h
  omega

/-- A bytecode instruction has 4 or 6 bytes (R324). -/
theorem bcLength_eq (op : Nat) : bcLength op = if op ∈ [5, 6, 7, 8, 9, 10, 0x1B, 0x1C, 0x21] then 6 else 4 := by
  by_cases h : op ∈ [5, 6, 7, 8, 9, 10, 0x1B, 0x1C, 0x21]
  · have hf : bcFormat op = .i := by
      unfold bcFormat
      rw [if_pos (List.contains_iff_mem.mpr h)]
    rw [bcLength, if_pos hf, if_pos h]
  · have hf : bcFormat op ≠ .i := by
      unfold bcFormat
      rw [if_neg (fun e => h (List.contains_iff_mem.mp e))]
      split
      · nofun
      · split <;> nofun
    rw [bcLength, if_neg hf, if_neg h]

/-- A context in bytecode mode runs the instruction that its fetch finds. -/
theorem State.runNext_bytecode {s t : State} {v : BitVec 48} {n : Nat} (hm : s.c.bytecode = true)
    (hf : (s.latchFirst 0).bytecodeFetch = .ok (v, n, t)) : s.runNext = exec (decodeBytecode v) (t.latchBytecode v n) := by
  simp only [State.runNext, hm, if_true, State.runBytecode, hf]

end Sys2Proof.Machine

namespace Sys2Proof.Safety

open Sys2Proof.Machine

/-! ### What the accesses of a crest context leave (R260) -/

/-- t is s, but that the translation cache of crest core k may list its entries in another order. -/
structure Recached (k : Fin 32) (s t : State) : Prop where
  only : t = { s with tiles := t.tiles }
  others : OtherTiles s t (1000 + k.val)
  own : t.tile (1000 + k.val) = { s.tile (1000 + k.val) with tlb := (t.tile (1000 + k.val)).tlb }
  size : (t.tile (1000 + k.val)).tlb.length ≤ 64
  finds : ∀ sp page, tlbFind (t.tile (1000 + k.val)).tlb sp page = tlbFind (s.tile (1000 + k.val)).tlb sp page

theorem Recached.trans {k : Fin 32} {s t u : State} (h : Recached k s t) (h' : Recached k t u) : Recached k s u where
  only := by rw [h'.only, h.only]
  others := fun m hm => (h'.others m hm).trans (h.others m hm)
  own := by rw [h'.own, h.own]
  size := h'.size
  finds := fun sp page => (h'.finds sp page).trans (h.finds sp page)

theorem Recached.mem_eq {k : Fin 32} {s t : State} (h : Recached k s t) : t.mem = s.mem := by rw [h.only]

theorem Recached.c_eq {k : Fin 32} {s t : State} (h : Recached k s t) : t.c = s.c := by rw [h.only]; rfl

/-- The core runs on with it. -/
theorem Recached.runs {k : Fin 32} {c : Fin 2} {s t : State} (h : Recached k s t) (hr : CrestRuns s k c) : CrestRuns t k c := by
  obtain ⟨hcur, hrep, hspc, -, hsoft, hbusy⟩ := hr
  have only := h.only
  refine ⟨?_, ?_, ?_, h.size, ?_, ?_⟩
  · rw [only]; exact hcur
  · rw [only]; exact hrep
  · rw [h.c_eq]; exact hspc
  · rw [only]; exact hsoft
  · rw [only]; exact hbusy

/-- And reaches what it reached. -/
theorem Recached.granted {k : Fin 32} {s t : State} {va : Word} {kind pa : Nat} {kernel : Bool} (h : Recached k s t)
    (hg : Granted s k va kind pa kernel) : Granted t k va kind pa kernel := by
  obtain ⟨h0, h15, hpa, l, hl, hp⟩ := hg
  exact ⟨h0, h15, hpa, l, (h.finds _ _).trans hl, hp⟩

/-- Remembering a translation that the cache holds. -/
theorem recached_remember {s : State} {k : Fin 32} {sp : Byte} {va : Word} {l : Leaf}
    (h : tlbFind (s.tile (1000 + k.val)).tlb sp (va.toNat / 0x10000) = some l) (hn : (s.tile (1000 + k.val)).tlb.length ≤ 64) :
    Recached k s (s.remember (1000 + k.val) sp va l) := by
  have own : (s.remember (1000 + k.val) sp va l).tile (1000 + k.val) = { s.tile (1000 + k.val) with
      tlb := tlbInsert (s.tile (1000 + k.val)).tlb sp (va.toNat / 0x10000) l } := State.tile_modTile_same _ _ _
  refine ⟨rfl, fun m hm => State.tile_modTile_other _ _ hm, ?_, ?_, fun sp' page' => ?_⟩
  · rw [own]
  · rw [own]; exact tlbInsert_length h hn
  · rw [own]; exact tlbFind_tlbInsert h hn sp' page'

/-- Before an access of a crest context that is granted, nothing stands in its way (R10, R91, R121). -/
theorem tryPlace_granted {s : State} {k : Fin 32} {c : Fin 2} {va : Word} {n kind pa : Nat} (hr : CrestRuns s k c)
    (hg : Granted s k va kind pa s.c.kernel) (ha : va.toNat % n = 0) :
    ∃ t, s.tryPlace va n kind = .ok (.loc pa, t) ∧ Recached k s t := by
  obtain ⟨hcur, -, hspc, hn, -, hbusy⟩ := hr
  have hk := check_granted c n hg
  obtain ⟨h0, h15, -, l, hl, -⟩ := hg
  have hnote : s.noteTranslation s.cur s.c.spc va = s.remember (1000 + k.val) 0 va l := by
    have ht : s.translate (1000 + k.val) 0 va true = some l := by simp only [State.translate, hl]
    have hpaged : (isCrest (.crest k c) && bits va 63 60 ≠ 0 && bits va 63 60 ≠ 15) = true := by simp [isCrest, h0, h15]
    rw [State.noteTranslation, hcur, hspc, if_pos hpaged]
    simp only [tlbTile, ht]
  refine ⟨_, ?_, recached_remember hl hn⟩
  rw [State.tryPlace, if_neg (by simpa using ha), hspc, hcur, hk]
  rw [hcur, hspc] at hnote
  rw [hcur] at hbusy
  simp only [hbusy, hnote]
  simp

/-- The home of an address in HBM reads it. -/
theorem placeRead_hbm {s : State} {pa : Nat} (n : Nat) (hs : s.softErrors = []) (h : pa < Config.hbmBytes) :
    s.placeRead (.loc pa) n = (s, .ok (s.mem.read pa n)) := by
  have hpa : pa < 2 ^ 40 := by
    simp only [Config.hbmBytes] at h
    omega
  exact (arrive_hbm _ _ _ _ hpa).trans (performAt_load _ _ _ hs)

/-- A load of a crest context. -/
theorem tryLoad_granted {s : State} {k : Fin 32} {c : Fin 2} {va : Word} {n pa : Nat} (hr : CrestRuns s k c)
    (hg : Granted s k va 0 pa s.c.kernel) (ha : va.toNat % n = 0) :
    ∃ t, s.tryLoad va n = .ok (s.mem.read pa n, t) ∧ Recached k s t := by
  obtain ⟨t, he, ht⟩ := tryPlace_granted hr hg ha
  obtain ⟨-, -, -, -, hsoft, -⟩ := ht.runs hr
  obtain ⟨-, -, hpa, -⟩ := hg
  refine ⟨t, ?_, ht⟩
  simp only [State.tryLoad, he, placeRead_hbm n hsoft hpa, ht.mem_eq]

/-- A fetch of two bytes of bytecode (R316, R360). -/
theorem fetchHalf_granted {s : State} {k : Fin 32} {c : Fin 2} {va : Word} {pa : Nat} (hr : CrestRuns s k c)
    (hg : Granted s k va 3 pa s.c.kernel) (ha : va.toNat % 2 = 0) :
    ∃ t, s.fetchHalf va = .ok (s.mem.read pa 2, t) ∧ Recached k s t := by
  obtain ⟨t, he, ht⟩ := tryPlace_granted hr hg ha
  obtain ⟨-, -, -, -, hsoft, -⟩ := ht.runs hr
  obtain ⟨h0, h15, hpa, -⟩ := hg
  refine ⟨t, ?_, ht⟩
  simp only [State.fetchHalf, h0, h15, he, placeRead_hbm 2 hsoft hpa, ht.mem_eq]
  simp

/-! ### Runs of bytes inside one page (R316, R360) -/

/-- Inside a page addresses do not wrap. -/
theorem toNat_add_in_page {va : Word} {n i : Nat} (h : va.toNat % 0x10000 + n ≤ 0x10000) (hi : i < n) :
    (va + toWord i).toNat = va.toNat + i := by
  have hv := va.isLt
  rw [toWord, BitVec.toNat_add, BitVec.toNat_ofNat]
  omega

/-- A crest core that reaches a run of bytes may access each of them, where its page grants the kind of access. -/
theorem granted_of_reach {s : State} {k : Fin 32} {va : Word} {n pa i kind : Nat} (kernel : Bool) (hs : s.c.spc = 0)
    (h : Reach s k va n pa) (hi : i < n)
    (hp : ∀ l, tlbFind (s.tile (1000 + k.val)).tlb 0 (va.toNat / 0x10000) = some l → l.perms &&& 0xB = 0xB →
      permits l.perms kind kernel = true) :
    Granted s k (va + toWord i) kind (pa + i) kernel := by
  obtain ⟨h0, h15, hpage, hpa, l, hl, hb, rfl⟩ := h
  have hva := toNat_add_in_page hpage hi
  have hbits : bits (va + toWord i) 63 60 = bits va 63 60 := by
    simp only [bits, bitsN, hva]
    omega
  rw [hs] at hl
  refine ⟨by rwa [hbits], by rwa [hbits], by omega, l, ?_, hp l hl hb, ?_⟩
  · rw [hva, show (va.toNat + i) / 0x10000 = va.toNat / 0x10000 by omega]
    exact hl
  · rw [Leaf.pa, Leaf.pa, hva]
    omega

/-- R and U admit a load at any privilege (R359). -/
theorem permits_load {perms : BitVec 4} (kernel : Bool) (h : perms &&& 0xB = 0xB) : permits perms 0 kernel = true := by
  have hbits : bit perms 0 = true ∧ bit perms 3 = true := by
    revert perms
    decide
  simp [permits, hbits]

/-- X with U admits a fetch. -/
theorem permits_fetch_of {perms : BitVec 4} (kernel : Bool) (h : perms &&& 0xB = 0xB) (hx : bit perms 2 = true) :
    permits perms 3 kernel = true := by
  have hu : bit perms 3 = true := by
    revert perms
    decide
  exact (permits_fetch _ _).mpr ⟨hx, .inr hu⟩

/-- Crest core k may fetch the n bytes at va, which lie at pa. -/
def Fetchable (s : State) (k : Fin 32) (va : Word) (n pa : Nat) : Prop :=
  ∀ i, i < n → (va + toWord i).toNat = va.toNat + i ∧ Granted s k (va + toWord i) 3 (pa + i) s.c.kernel

theorem fetchable_of_reach {s : State} {k : Fin 32} {va : Word} {n pa : Nat} (hs : s.c.spc = 0) (h : Reach s k va n pa)
    (hx : ∀ l, tlbFind (s.tile (1000 + k.val)).tlb 0 (va.toNat / 0x10000) = some l → bit l.perms 2 = true) :
    Fetchable s k va n pa := by
  intro i hi
  have ⟨_, _, hpage, _⟩ := h
  exact ⟨toNat_add_in_page hpage hi, granted_of_reach _ hs h hi fun l hl hb => permits_fetch_of _ hb (hx l hl)⟩

theorem Recached.fetchable {k : Fin 32} {s t : State} {va : Word} {n pa : Nat} (h : Recached k s t)
    (hf : Fetchable s k va n pa) : Fetchable t k va n pa := fun i hi =>
  (hf i hi).imp_right fun hg => by rw [h.c_eq]; exact h.granted hg

/-- The fetch of two of those bytes. -/
theorem fetchHalf_of_fetchable {s : State} {k : Fin 32} {c : Fin 2} {va : Word} {n pa : Nat} (i : Nat) (hr : CrestRuns s k c)
    (hf : Fetchable s k va n pa) (hi : i < n) (ha : va.toNat % 2 = 0) (he : i % 2 = 0) :
    ∃ t, s.fetchHalf (va + toWord i) = .ok (s.mem.read (pa + i) 2, t) ∧ Recached k s t := by
  obtain ⟨hva, hg⟩ := hf i hi
  exact fetchHalf_granted hr hg (by omega)

/-- The bytes of an instruction from the third on (R316). -/
theorem fetchRest_of_fetchable {s : State} {k : Fin 32} {c : Fin 2} {va : Word} {n pa : Nat} (hr : CrestRuns s k c)
    (hf : Fetchable s k va n pa) (hn : n = 4 ∨ n = 6) (ha : va.toNat % 2 = 0) :
    ∃ t, s.fetchRest va (s.mem.read pa 2) n = .ok (BitVec.ofNat 48 (s.mem.read pa n), n, t) ∧ Recached k s t := by
  obtain ⟨t, hmid, ht⟩ := fetchHalf_of_fetchable 2 hr hf (by omega) ha rfl
  rw [show toWord 2 = 2 from rfl] at hmid
  have h4 : s.mem.read pa 4 = s.mem.read pa 2 + s.mem.read (pa + 2) 2 * 2 ^ 16 := s.mem.read_append pa 2 2
  rcases hn with rfl | rfl
  · refine ⟨t, ?_, ht⟩
    simp only [State.fetchRest, hmid, if_true, h4]
  · obtain ⟨u, hhi, hu⟩ := fetchHalf_of_fetchable 4 (ht.runs hr) (ht.fetchable hf) (by omega) ha rfl
    rw [show toWord 4 = 4 from rfl, ht.mem_eq] at hhi
    have h6 : s.mem.read pa 6 = s.mem.read pa 4 + s.mem.read (pa + 4) 2 * 2 ^ 32 := s.mem.read_append pa 4 2
    refine ⟨u, ?_, ht.trans hu⟩
    simp only [State.fetchRest, hmid, hhi, h6, h4]
    simp

/-- A field of a code descriptor (R323). -/
theorem tryLoad_of_reach {s : State} {k : Fin 32} {c : Fin 2} {va : Word} {m pa : Nat} (i n : Nat) (hr : CrestRuns s k c)
    (h : Reach s k va m pa) (hi : i < m) (ha : (va.toNat + i) % n = 0) :
    ∃ t, s.tryLoad (va + toWord i) n = .ok (s.mem.read (pa + i) n, t) ∧ Recached k s t := by
  have ⟨_, _, hspc, _⟩ := hr
  have ⟨_, _, hpage, _⟩ := h
  refine tryLoad_granted hr (granted_of_reach _ hspc h hi fun l _ hb => permits_load _ hb) ?_
  rw [toNat_add_in_page hpage hi]
  exact ha

/-- A core reaches what it reached, whatever the order of its cache. -/
theorem Recached.reach {k : Fin 32} {s t : State} {va : Word} {n pa : Nat} (h : Recached k s t) (hp : Reach s k va n pa) :
    Reach t k va n pa := by
  obtain ⟨h0, h15, hpage, hpa, l, hl, hb, hl'⟩ := hp
  exact ⟨h0, h15, hpage, hpa, l, by rw [h.finds, h.c_eq]; exact hl, hb, hl'⟩

/-- The bytecode at an address inside the code of its descriptor is fetched whole (R316, R323, R324). -/
theorem bytecodeFetch_of_reach {s : State} {k : Fin 32} {c : Fin 2} {d : Desc} {n p : Nat} (hr : CrestRuns s k c)
    (hd : DescAt s k s.c.cd d) (hbit : bit s.c.bpc 0 = false) (hlo : d.code ≤ s.c.bpc.toNat)
    (hhi : s.c.bpc.toNat + n ≤ d.code + d.clen) (hn : n = bcLength (s.mem.read p 1)) (hp : Reach s k s.c.bpc n p)
    (hx : ∀ l, tlbFind (s.tile (1000 + k.val)).tlb 0 (s.c.bpc.toNat / 0x10000) = some l → bit l.perms 2 = true) :
    ∃ t, s.bytecodeFetch = .ok (BitVec.ofNat 48 (s.mem.read p n), n, t) ∧ Recached k s t := by
  have hlen : n = 4 ∨ n = 6 := by
    rw [hn, bcLength_eq]
    split
    · exact .inr rfl
    · exact .inl rfl
  have heven := bit_zero_even hbit
  obtain ⟨pd, hcd, hpd, rfl⟩ := hd
  -- the descriptor's first two fields
  obtain ⟨t, hcode, ht⟩ := tryLoad_of_reach 0 8 hr hpd (by omega) (by omega)
  obtain ⟨u, hclen, hu⟩ := tryLoad_of_reach 8 4 (ht.runs hr) (ht.reach hpd) (by omega) (by omega)
  rw [show s.c.cd + toWord 0 = s.c.cd from BitVec.add_zero _, Nat.add_zero] at hcode
  rw [show toWord 8 = 8 from rfl, ht.mem_eq] at hclen
  -- the first two bytes, and the rest
  have hsu := ht.trans hu
  have ⟨_, _, hspc, _⟩ := hr
  have hf := hsu.fetchable (fetchable_of_reach hspc hp hx)
  obtain ⟨v, hfirst, hv⟩ := fetchHalf_of_fetchable 0 (hsu.runs hr) hf (by omega) heven rfl
  rw [show s.c.bpc + toWord 0 = s.c.bpc from BitVec.add_zero _, Nat.add_zero, hsu.mem_eq] at hfirst
  have hsv := hsu.trans hv
  obtain ⟨w, hrest, hw⟩ := fetchRest_of_fetchable (hsv.runs hr) (hv.fetchable hf) hlen heven
  rw [hsv.mem_eq] at hrest
  refine ⟨w, ?_, hsv.trans hw⟩
  have hop : bcLength (s.mem.read p 2 % 256) = n := by
    rw [hn]
    exact congrArg bcLength (s.mem.read_succ_mod p 1)
  have hin : ¬(bit s.c.bpc 0 || decide (s.c.bpc.toNat < s.mem.read pd 8) ||
      decide (s.mem.read pd 8 + s.mem.read (pd + 8) 4 ≤ s.c.bpc.toNat)) = true := by
    simp only [hbit, Bool.false_or, Bool.or_eq_true, decide_eq_true_eq]
    simp only at hlo hhi
    omega
  have hend : ¬s.mem.read pd 8 + s.mem.read (pd + 8) 4 < s.c.bpc.toNat + n := by
    simp only at hhi
    omega
  have hcd' : t.c.cd = s.c.cd := by rw [ht.c_eq]
  simp only [State.bytecodeFetch, hcode, hclen, hcd', hin, hfirst, hop, hend, hrest, if_false]
  simp

/-! ### A step of a context in bytecode mode (R316, R323, R324) -/

/-- R316, R323 and R324, in bytecode mode. -/
theorem stepRunsBytecode : Sys2Proof.Claims.StepRunsBytecode := by
  intro s rest k c d p a s0 ha ht hl hd hm hr hdesc bpc op n hbit hlo hhi hp hx v
  have hn : n = bcLength op := (bcLength_eq op).symm
  obtain ⟨t, hfetch, hcached⟩ := bytecodeFetch_of_reach hr hdesc hbit hlo hhi hn hp hx
  have hissue : State.issue { s with agenda := rest } a = State.runNext (State.select { s with agenda := rest } a) :=
    State.issue_runs ht hl hd
  have hrun : State.runNext (State.select { s with agenda := rest } a) = exec (decodeBytecode v) (t.latchBytecode v n) :=
    State.runNext_bytecode hm hfetch
  refine ⟨t.latchBytecode v n, ?_, hcached.others, hcached.own, ?_⟩
  · have only := hcached.only
    unfold State.latchBytecode
    rw [only]
  · exact (step_of_choice ha).trans (congrArg tickOut (hissue.trans hrun))

/-- Settles O56, by its three parts: the Lanivo word at the pc, the bytecode at x19, and the agenda. -/
theorem stepsRunTheDecodedInstruction : Obligations.StepsRunTheDecodedInstruction :=
  ⟨stepRunsDecoded, stepRunsBytecode, stepFollowsAgenda⟩

end Sys2Proof.Safety
end

section
/-! PROOF. What a cold start writes into the slot of a saved gang (R34, R273), and a gang for which that is not the state 3. -/

namespace Sys2Proof.Machine

theorem mappable_nil : mappable [] = true := by decide

theorem savedGangs_of_one {s : State} {n : Nat} {g : Gang} (hg : s.gangs.cells = [(n, g)]) (hp : g.phase = .saved) :
    s.savedGangs = [(n, g)] := by
  simp [State.savedGangs, hg, hp]

/-- A module with its keys boots any firmware (R369). -/
theorem boots_keyed {s : State} (hk : s.signet.keyed = true) (level : BitVec 16) : s.boots level = true := by
  simp [State.boots, hk]

/-- A cold start writes the bind record of the one saved gang into its slot last (R34, R273). -/
theorem coldStart_writes_slot {s : State} {n : Nat} {g : Gang} (hk : s.signet.keyed = true) (hg : s.gangs.cells = [(n, g)])
    (hp : g.phase = .saved) :
    ∃ u p : State, exec (.coldStart [] true) s = .next u ∧
      u.mem = p.mem.setBytes (Config.slotTable + 32 * n) (bindRecord (some g)) := by
  rw [exec_coldStart, execColdStart, mappable_nil, boots_keyed hk, savedGangs_of_one hg hp]
  exact ⟨_, _, rfl, rfl⟩

/-- So each byte of the slot is that of the bind record. -/
theorem coldStart_slot_byte {s u : State} {i : Nat} (n : Nat) (g : Gang) (hk : s.signet.keyed = true)
    (hg : s.gangs.cells = [(n, g)]) (hp : g.phase = .saved) (e : exec (.coldStart [] true) s = .next u)
    (h : i < (bindRecord (some g)).length) :
    u.mem.byte (Config.slotTable + 32 * n + i) = (bindRecord (some g))[i] := by
  obtain ⟨u', p, e', hm⟩ := coldStart_writes_slot hk hg hp
  obtain rfl : u = u' := Host.Outcome.next.inj (e.symm.trans e')
  rw [hm, Memory.byte_setBytes_in _ _ _ _ h]

/-! ### A gang whose origin does not fit its field of the bind record -/

/-- A saved gang whose origin column, 2^32, carries into the state field of its bind record (R273). No binding makes such a gang,
but a state may hold it: the model's gang has any number for a column. -/
def wideGang : Gang :=
  { x0 := 2 ^ 32, y0 := 0, w := 1, h := 1, phase := .saved, rid := 0, ticket := 0, unit_ := 0, core := 0, ctx := 0, rcb := 0
    pool := 0xFF, budget := 0, fdom := 0, fq := 0, save := 0, terms := ⟨0, 0, 0, 0, 0⟩, kept := [] }

/-- The part after bring-up with that gang in slot 0. -/
def withWideGang : State := { State.reset with gangs := ⟨[(0, wideGang)]⟩ }

/-- Its bind record says 4, ending, where the state of a saved gang is 3. -/
theorem wideGang_state_byte : (bindRecord (some wideGang))[4]? = some 4 := rfl

end Sys2Proof.Machine

namespace Sys2Proof.Safety

open Sys2Proof.Machine

/-- Refutes O47: its clause on a saved gang takes any record of one. That of `wideGang` in slot 0 carries the origin column 2^32 into
the state byte, so that after the cold start the slot says 4, not 3. -/
theorem not_coldStartMapsTheTiles : ¬ Obligations.ColdStartMapsTheTiles := by
  intro h
  obtain ⟨-, hsaved, -⟩ := h withWideGang [] 0
  obtain ⟨u, e, hu⟩ := hsaved 0 wideGang rfl rfl (by omega)
  rw [if_pos (show wideGang.phase = .saved from rfl)] at hu
  obtain ⟨-, hstate, -⟩ := hu
  obtain ⟨hlen, hbyte⟩ := List.getElem?_eq_some_iff.mp wideGang_state_byte
  have hfour : u.mem.byte (Config.slotTable + 32 * 0 + 4) = 4 :=
    (coldStart_slot_byte 0 wideGang rfl rfl rfl e hlen).trans hbyte
  have hread : u.mem.read (Config.slotTable + 32 * 0 + 4) 1 = 4 := by simp [Memory.read, Memory.bytes, fromBytes, hfour]
  omega

end Sys2Proof.Safety
end

section
/-! PROOF. Major 0x01: the register-register operations, the counts of bits, the byte swap, and their encodings (R102). -/

namespace Sys2Proof

/-! ### Fields of a word (R84) -/

theorem extractLsb'_eq_ofNat {w : Nat} (v : BitVec w) (lo len : Nat) :
    v.extractLsb' lo len = BitVec.ofNat len (v.toNat / 2 ^ lo) := by
  rw [BitVec.extractLsb', Nat.shiftRight_eq_div_pow]

/-- The decoder's field is the bits of the word. -/
theorem fld_eq_extractLsb' (w : Insn) (lo len : Nat) : fld w lo len = w.extractLsb' lo len :=
  (extractLsb'_eq_ofNat w lo len).symm

theorem fldN_eq_toNat (w : Insn) (lo len : Nat) : fldN w lo len = (w.extractLsb' lo len).toNat := by
  rw [extractLsb'_eq_ofNat, BitVec.toNat_ofNat, fldN]

/-- And so is the number it holds. -/
theorem fldN_eq_bits (w : Insn) (hi lo : Nat) : fldN w lo (hi + 1 - lo) = bits w hi lo := rfl

/-! ### The encodings of major 0x01 (R102) -/

theorem decode_major01 {w : Insn} (h : w.extractLsb' 26 6 = 0x01) : decode w = decodeAlu w := by
  rw [decode, fldN_eq_toNat, h]
  rfl

/-- lea has four function codes, one for each shift. -/
theorem decodeAlu_lea {w : Insn} (h : bits w 10 0 / 4 = 6) :
    decodeAlu w = .lea (w.extractLsb' 21 5) (w.extractLsb' 16 5) (w.extractLsb' 11 5) (w.extractLsb' 0 2) := by
  have hfn : fldN w 0 11 = 0x18 ∨ fldN w 0 11 = 0x19 ∨ fldN w 0 11 = 0x1A ∨ fldN w 0 11 = 0x1B := by
    rw [fldN_eq_bits w 10 0]
    omega
  rcases hfn with h | h | h | h <;> simp only [decodeAlu, h, fld_eq_extractLsb']

theorem decodeAlu_unlisted {w : Insn} (h : bits w 10 0 ∉ [0, 1, 2, 3, 4, 5, 6, 8, 9, 0xA, 0xB, 0x10, 0x11, 0x12, 0x13, 0x14, 0x15,
    0x18, 0x19, 0x1A, 0x1B, 0x20, 0x21, 0x22, 0x23, 0x24, 0x25, 0x26, 0x27]) : decodeAlu w = .illegal := by
  rw [← fldN_eq_bits w 10 0] at h
  unfold decodeAlu
  split
  case h_30 => rfl  -- the last row: any other code
  all_goals
    next e => exact absurd (by rw [e]; decide) h

theorem registerEncodings : Sys2Proof.Claims.RegisterEncodings := by
  intro w hw d a b fn
  rw [decode_major01 hw]
  refine ⟨?_, ?_, ?_, ?_, ?_, ?_, ?_, ?_, ?_, ?_, ?_, ?_, ?_, ?_, ?_, ?_, ?_, decodeAlu_lea, ?_, ?_, ?_, ?_, ?_, ?_, ?_, ?_,
    decodeAlu_unlisted⟩
  -- the function codes of one instruction each
  all_goals
    intro h
    simp only [decodeAlu, fldN_eq_bits w 10 0, show bits w 10 0 = _ from h, fld_eq_extractLsb', d, a, b]

end Sys2Proof

namespace Sys2Proof.Machine

/-! ### Comparisons, shifts and rotations (R102) -/

theorem boolWord_slt (x y : Word) : boolWord (x.slt y) = if x.toInt < y.toInt then 1 else 0 := by
  simp only [boolWord, BitVec.slt_iff_toInt_lt]

theorem boolWord_ult (x y : Word) : boolWord (x.ult y) = if x.toNat < y.toNat then 1 else 0 := by
  simp only [boolWord, BitVec.ult_iff_toNat_lt]

theorem min_signed (x y : Word) : (if y.slt x then y else x) = if x.toInt ≤ y.toInt then x else y := by
  simp only [BitVec.slt_iff_toInt_lt, ← Int.not_le, ite_not]

theorem min_unsigned (x y : Word) : (if y.ult x then y else x) = if x.toNat ≤ y.toNat then x else y := by
  simp only [BitVec.ult_iff_toNat_lt, ← Nat.not_le, ite_not]

/-- Of operands that are the same word either is the greater one. -/
theorem ite_lt_eq_ite_le {x y : Word} {lt le : Prop} [Decidable lt] [Decidable le] (h : le ↔ lt ∨ x = y) :
    (if lt then y else x) = if le then y else x := by
  by_cases hlt : lt
  · rw [if_pos hlt, if_pos (h.mpr (.inl hlt))]
  · by_cases heq : x = y
    · rw [heq, ite_self, ite_self]
    · rw [if_neg hlt, if_neg fun hle => (h.mp hle).elim hlt heq]

theorem max_signed (x y : Word) : (if x.slt y then y else x) = if x.toInt ≤ y.toInt then y else x := by
  apply ite_lt_eq_ite_le
  rw [BitVec.slt_iff_toInt_lt, ← BitVec.toInt_inj]
  omega

theorem max_unsigned (x y : Word) : (if x.ult y then y else x) = if x.toNat ≤ y.toNat then y else x := by
  apply ite_lt_eq_ite_le
  rw [BitVec.ult_iff_toNat_lt, ← BitVec.toNat_inj]
  omega

theorem shamt_lt (y : Word) : shamt y < 64 := Nat.mod_lt _ (by decide)

theorem rotl_eq_rotateLeft (x : Word) {n : Nat} (h : n < 64) : rotl x n = x.rotateLeft n :=
  (BitVec.rotateLeft_eq_rotateLeftAux_of_lt h).symm

theorem shiftLeft_eq_mul (y : Word) (n : Nat) : y <<< n = y * BitVec.ofNat 64 (2 ^ n) := by
  have hpow : BitVec.twoPow 64 n = BitVec.ofNat 64 (2 ^ n) := BitVec.eq_of_toNat_eq (BitVec.toNat_twoPow 64 n)
  rw [BitVec.shiftLeft_eq_mul_twoPow, hpow]

/-! ### Counts of bits (R102) -/

theorem clzN_le (v : Nat) : clzN 64 v ≤ 64 := by
  unfold clzN
  split <;> omega

/-- Counted from the top, the bits before the count are 0, and the next one is 1. -/
theorem clzN_bits (x : Word) :
    (∀ i, i < clzN 64 x.toNat → x.getLsbD (63 - i) = false) ∧
      (clzN 64 x.toNat < 64 → x.getLsbD (63 - clzN 64 x.toNat) = true) := by
  by_cases h0 : x.toNat = 0
  · simp [clzN, BitVec.getLsbD, h0]
  · have hlog : Nat.log2 x.toNat < 64 := (Nat.log2_lt h0).mpr x.isLt
    have hn : clzN 64 x.toNat = 63 - Nat.log2 x.toNat := if_neg h0
    rw [hn]
    refine ⟨fun i hi => Nat.testBit_lt_two_pow ?_, fun _ => ?_⟩
    · exact (Nat.log2_lt h0).mp (by omega)
    · rw [show 63 - (63 - Nat.log2 x.toNat) = Nat.log2 x.toNat by omega]
      exact Nat.testBit_log2 h0

theorem ctzN_le (n v : Nat) : ctzN n v ≤ n := by
  induction n generalizing v with
  | zero => exact Nat.le_refl 0
  | succ n ih =>
    have := ih (v / 2)
    unfold ctzN
    split <;> omega

/-- Below the count the bits are 0, and the bit at it is 1. -/
theorem ctzN_bits (n v : Nat) :
    (∀ i, i < ctzN n v → v.testBit i = false) ∧ (ctzN n v < n → v.testBit (ctzN n v) = true) := by
  induction n generalizing v with
  | zero => simp [ctzN]
  | succ n ih =>
    obtain ⟨hbelow, hat⟩ := ih (v / 2)
    by_cases hodd : v % 2 = 1
    · simp [ctzN, hodd, Nat.testBit_zero]
    · rw [ctzN, if_neg hodd, Nat.add_comm 1]
      refine ⟨fun i hi => ?_, fun h => ?_⟩
      · cases i with
        | zero => simp [Nat.testBit_zero, hodd]
        | succ i => exact (Nat.testBit_succ v i).trans (hbelow i (by omega))
      · exact (Nat.testBit_succ v _).trans (hat (by omega))

theorem popCountN_eq (n v : Nat) : popCountN n v = ((List.range n).filter v.testBit).length := by
  induction n generalizing v with
  | zero => rfl
  | succ n ih =>
    have hshift : v.testBit ∘ Nat.succ = (v / 2).testBit := funext fun i => Nat.testBit_succ v i
    rw [popCountN, ih, List.range_succ_eq_map, List.filter_cons, List.filter_map, hshift]
    rcases Nat.mod_two_eq_zero_or_one v with h | h <;> simp [Nat.testBit_zero, h, Nat.add_comm]

/-! ### The byte swap (R102) -/

/-- Byte i of the value of a run of bytes is the i-th of them (R5). -/
theorem byte_fromBytes {l : List Byte} {i : Nat} (h : i < l.length) : BitVec.ofNat 8 (fromBytes l / 2 ^ (8 * i)) = l[i] := by
  induction l generalizing i with
  | nil => simp at h
  | cons b l ih =>
    cases i with
    | zero =>
      apply BitVec.eq_of_toNat_eq
      have := b.isLt
      simp only [fromBytes, BitVec.toNat_ofNat, List.getElem_cons_zero]
      omega
    | succ i =>
      have hrest : fromBytes (b :: l) / 2 ^ (8 * (i + 1)) = fromBytes l / 2 ^ (8 * i) := by
        have := b.isLt
        rw [Nat.mul_succ, Nat.add_comm, Nat.pow_add, ← Nat.div_div_eq_div_mul, fromBytes]
        congr 1
        omega
      rw [hrest]
      exact ih _

theorem extractLsb'_toWord (n : Nat) {lo len : Nat} (h : lo + len ≤ 64) :
    (toWord n).extractLsb' lo len = BitVec.ofNat len (n / 2 ^ lo) := by
  apply BitVec.eq_of_getLsbD_eq
  intro i hi
  rw [BitVec.getLsbD_extractLsb', toWord, BitVec.getLsbD_ofNat, BitVec.getLsbD_ofNat, Nat.testBit_div_two_pow, Nat.add_comm i lo]
  simp [hi, show lo + i < 64 by omega]

theorem bswapWord_byte (x : Word) {k : Nat} (h : k < 8) :
    (bswapWord x).extractLsb' (8 * (7 - k)) 8 = x.extractLsb' (8 * k) 8 := by
  have hlen : ((toBytes 8 x.toNat).reverse).length = 8 := by simp
  rw [bswapWord, extractLsb'_toWord _ (by omega), byte_fromBytes (by omega), List.getElem_reverse]
  simp only [toBytes_length, toBytes_getElem, extractLsb'_eq_ofNat]
  rw [show 8 - 1 - (7 - k) = k by omega, Nat.pow_mul]

end Sys2Proof.Machine

namespace Sys2Proof.Safety

open Sys2Proof.Machine

/-! ### An instruction that writes a register from its operands (R100) -/

section
variable {i : Instr} {s : State} {d a b : BitVec 5} {v : Word}

theorem writesX_rr {f : Word → Word → Word} (hr : s.latch.rep = none) (e : exec i s = .next (rr f d a b s))
    (hv : f (s.c.getX a) (s.c.getX b) = v) : WritesX i s d v := hv ▸ writesX_of hr e

theorem writesX_r1 {f : Word → Word} (hr : s.latch.rep = none) (e : exec i s = .next (r1 f d a s)) (hv : f (s.c.getX a) = v) :
    WritesX i s d v := hv ▸ writesX_of hr e

end

theorem registerOperations : Sys2Proof.Claims.RegisterOperations := by
  intro s d a b sh hr x y n
  refine ⟨?add, ?sub, ?and, ?or, ?xor, ?andn, ?orn, ?sll, ?srl, ?sra, ?rol, ?slt, ?sltu, ?min, ?max, ?minu, ?maxu, ?lea,
    ?sextB, ?sextH, ?sextW, ?zextW⟩
  case add => exact writesX_rr hr (exec_add d a b s) rfl
  case sub => exact writesX_rr hr (exec_sub d a b s) rfl
  case and => exact writesX_rr hr (exec_and d a b s) rfl
  case or => exact writesX_rr hr (exec_or d a b s) rfl
  case xor => exact writesX_rr hr (exec_xor d a b s) rfl
  case andn => exact writesX_rr hr (exec_andn d a b s) rfl
  case orn => exact writesX_rr hr (exec_orn d a b s) rfl
  case sll => exact writesX_rr hr (exec_sll d a b s) rfl
  case srl => exact writesX_rr hr (exec_srl d a b s) rfl
  case sra => exact writesX_rr hr (exec_sra d a b s) rfl
  case rol => exact writesX_rr hr (exec_rol d a b s) (rotl_eq_rotateLeft x (shamt_lt y))
  case slt => exact writesX_rr hr (exec_slt d a b s) (boolWord_slt x y)
  case sltu => exact writesX_rr hr (exec_sltu d a b s) (boolWord_ult x y)
  case min => exact writesX_rr hr (exec_min d a b s) (min_signed x y)
  case max => exact writesX_rr hr (exec_max d a b s) (max_signed x y)
  case minu => exact writesX_rr hr (exec_minu d a b s) (min_unsigned x y)
  case maxu => exact writesX_rr hr (exec_maxu d a b s) (max_unsigned x y)
  case lea => exact writesX_rr hr (exec_lea d a b sh s) (congrArg (x + ·) (shiftLeft_eq_mul y sh.toNat))
  case sextB =>
    exact writesX_r1 hr (exec_sextB d a s) (congrArg (BitVec.signExtend 64) (BitVec.setWidth_eq_extractLsb' (by decide)))
  case sextH =>
    exact writesX_r1 hr (exec_sextH d a s) (congrArg (BitVec.signExtend 64) (BitVec.setWidth_eq_extractLsb' (by decide)))
  case sextW =>
    exact writesX_r1 hr (exec_sextW d a s) (congrArg (BitVec.signExtend 64) (BitVec.setWidth_eq_extractLsb' (by decide)))
  case zextW =>
    exact writesX_r1 hr (exec_zextW d a s) (congrArg (BitVec.setWidth 64) (BitVec.setWidth_eq_extractLsb' (by decide)))

theorem bitCounts : Sys2Proof.Claims.BitCounts := by
  intro s d a hr x
  refine ⟨⟨_, clzN_le x.toNat, writesX_r1 hr (exec_clz d a s) rfl, clzN_bits x⟩,
    ⟨_, ctzN_le 64 x.toNat, writesX_r1 hr (exec_ctz d a s) rfl, ctzN_bits 64 x.toNat⟩,
    writesX_r1 hr (exec_popc d a s) (congrArg toWord (popCountN_eq 64 x.toNat)),
    ⟨_, writesX_r1 hr (exec_bswap d a s) rfl, fun k hk => bswapWord_byte x hk⟩⟩

/-- Settles O1: each operation is the function of its operands that R102 gives, and the decoder's table that of R102. -/
theorem registerOperationsWriteTheirResult : Obligations.RegisterOperationsWriteTheirResult :=
  ⟨registerOperations, bitCounts, registerEncodings⟩

end Sys2Proof.Safety
end

section
/-! PROOF. Majors 0x02 to 0x09: the immediate operations, the shifts by an immediate, and their encodings (R103, R105). -/

namespace Sys2Proof

theorem decode_major09 {w : Insn} (h : bits w 31 26 = 9) : decode w = decodeShiftImm w := by
  rw [decode, fldN_eq_bits w 31 26, h]
  rfl

theorem decodeShiftImm_unlisted {w : Insn} (h : 3 < bits w 15 8) : decodeShiftImm w = .illegal := by
  rw [← fldN_eq_bits w 15 8] at h
  unfold decodeShiftImm
  split
  case h_5 => rfl
  all_goals
    next e => exact absurd h (by rw [e]; decide)

theorem immediateEncodings : Sys2Proof.Claims.ImmediateEncodings := by
  intro w op d a i sh sel
  refine ⟨?_, ?_, ?_, ?_, ?_, ?_, ?_, ?slli, ?srli, ?srai, ?roli,
    fun h hs => (decode_major09 h).trans (decodeShiftImm_unlisted hs)⟩
  case slli | srli | srai | roli =>
    intro h hs
    rw [decode_major09 h]
    simp only [decodeShiftImm, fldN_eq_bits w 15 8, show bits w 15 8 = _ from hs, fld_eq_extractLsb', d, a, sh]
  -- the majors of one instruction each
  all_goals
    intro h
    simp only [decode, fldN_eq_bits w 31 26, show bits w 31 26 = _ from h, fld_eq_extractLsb', d, a, i]

end Sys2Proof

namespace Sys2Proof.Safety

open Sys2Proof.Machine

theorem writesX_ri {i : Instr} {s : State} {d a : BitVec 5} {imm v : Word} {f : Word → Word → Word} (hr : s.latch.rep = none)
    (e : exec i s = .next (ri f d a imm s)) (hv : f (s.c.getX a) imm = v) : WritesX i s d v := hv ▸ writesX_of hr e

theorem immediateOperations : Sys2Proof.Claims.ImmediateOperations := by
  intro s d a i h hr x se ze
  refine ⟨?addi, ?andi, ?ori, ?xori, ?slti, ?sltiu, ?lih, ?slli, ?srli, ?srai, ?roli⟩
  case addi => exact writesX_ri hr (exec_addi d a i s) rfl
  case andi => exact writesX_ri hr (exec_andi d a i s) rfl
  case ori => exact writesX_ri hr (exec_ori d a i s) rfl
  case xori => exact writesX_ri hr (exec_xori d a i s) rfl
  case slti => exact writesX_ri hr (exec_slti d a i s) (boolWord_slt x se)
  case sltiu => exact writesX_ri hr (exec_sltiu d a i s) (boolWord_ult x se)
  case lih => exact writesX_ri hr (exec_lih d a i s) rfl
  case slli => exact writesX_r1 hr (exec_slli d a h s) rfl
  case srli => exact writesX_r1 hr (exec_srli d a h s) rfl
  case srai => exact writesX_r1 hr (exec_srai d a h s) rfl
  case roli => exact writesX_r1 hr (exec_roli d a h s) (rotl_eq_rotateLeft x h.isLt)

/-- Settles O2: the operations of R103 and R105 on the extended immediate, and their rows of the decoder. -/
theorem immediateOperationsWriteTheirResult : Obligations.ImmediateOperationsWriteTheirResult :=
  ⟨immediateOperations, immediateEncodings⟩

end Sys2Proof.Safety
end

section
/-! PROOF. Major 0x0A: products, quotients, remainders, how long a division keeps its context busy, and their encodings (R101,
R106). -/

namespace Sys2Proof

theorem decode_major0A {w : Insn} (h : w.extractLsb' 26 6 = 0x0A) : decode w = decodeMulDiv w := by
  rw [decode, fldN_eq_toNat, h]
  rfl

theorem decodeMulDiv_unlisted {w : Insn} (h : 7 < bits w 10 0) : decodeMulDiv w = .illegal := by
  rw [← fldN_eq_bits w 10 0] at h
  unfold decodeMulDiv
  split
  case h_9 => rfl
  all_goals
    next e => exact absurd h (by rw [e]; decide)

theorem multiplyEncodings : Sys2Proof.Claims.MultiplyEncodings := by
  intro w hw d a b fn
  rw [decode_major0A hw]
  refine ⟨?_, ?_, ?_, ?_, ?_, ?_, ?_, ?_, decodeMulDiv_unlisted⟩
  all_goals
    intro h
    simp only [decodeMulDiv, fldN_eq_bits w 10 0, show bits w 10 0 = _ from h, fld_eq_extractLsb', d, a, b]

end Sys2Proof

namespace Sys2Proof.Machine

/-! ### Products and quotients (R106) -/

theorem highHalf_unsigned (m n : Nat) : highHalf ((m : Int) * (n : Int)) = BitVec.ofNat 64 (m * n / 2 ^ 64) := by
  rw [highHalf, ← BitVec.ofInt_natCast]
  norm_cast

@[simp] theorem divS_zero (x : Word) : divS x 0 = allOnes := rfl
@[simp] theorem divU_zero (x : Word) : divU x 0 = allOnes := rfl
@[simp] theorem remS_zero (x : Word) : remS x 0 = x := rfl
@[simp] theorem remU_zero (x : Word) : remU x 0 = x := rfl

/-- By any other divisor, the signed quotient is the library's, which wraps only for the least word by -1. -/
theorem divS_eq_sdiv (x : Word) {y : Word} (h : y ≠ 0) : divS x y = x.sdiv y := by
  apply BitVec.eq_of_toInt_eq
  rw [divS, if_neg h, BitVec.toInt_ofInt, BitVec.toInt_sdiv]

theorem remS_eq_srem (x : Word) {y : Word} (h : y ≠ 0) : remS x y = x.srem y := by
  rw [remS, if_neg h, ← BitVec.toInt_srem, BitVec.ofInt_toInt]

theorem divU_eq_udiv (x : Word) {y : Word} (h : y ≠ 0) : divU x y = x / y := by
  rw [divU, if_neg h, toWord, ← BitVec.toNat_udiv, BitVec.ofNat_toNat, BitVec.setWidth_eq]

theorem remU_eq_umod (x : Word) {y : Word} (h : y ≠ 0) : remU x y = x % y := by
  rw [remU, if_neg h, toWord, ← BitVec.toNat_umod, BitVec.ofNat_toNat, BitVec.setWidth_eq]

/-- The remainder is what the quotient leaves, for every divisor. -/
theorem mul_divS_add_remS (x y : Word) : x = y * divS x y + remS x y := by
  by_cases h : y = 0
  · rw [h, remS_zero, BitVec.ofNat_eq_ofNat, BitVec.zero_mul, BitVec.zero_add]
  · have hint := congrArg (BitVec.ofInt 64) (Int.mul_tdiv_add_tmod x.toInt y.toInt)
    rw [BitVec.ofInt_add, BitVec.ofInt_mul, BitVec.ofInt_toInt, BitVec.ofInt_toInt] at hint
    rw [divS, remS, if_neg h, if_neg h, hint]

theorem mul_divU_add_remU (x y : Word) : x = y * divU x y + remU x y := by
  by_cases h : y = 0
  · rw [h, remU_zero, BitVec.ofNat_eq_ofNat, BitVec.zero_mul, BitVec.zero_add]
  · have hnat := congrArg (BitVec.ofNat 64) (Nat.div_add_mod x.toNat y.toNat)
    rw [BitVec.ofNat_add, BitVec.ofNat_mul, BitVec.ofNat_toNat, BitVec.ofNat_toNat, BitVec.setWidth_eq,
      BitVec.setWidth_eq] at hnat
    rw [divU, remU, if_neg h, if_neg h, toWord, toWord, hnat]

/-- The quotient overflows for the least word by -1 only (R106). -/
theorem toInt_divS {x y : Word} (h : y ≠ 0) (ho : ¬(x = 0x8000_0000_0000_0000 ∧ y = 0xFFFF_FFFF_FFFF_FFFF)) :
    (divS x y).toInt = x.toInt.tdiv y.toInt := by
  rw [divS_eq_sdiv x h]
  exact BitVec.toInt_sdiv_of_ne_or_ne x y (Decidable.not_and_iff_not_or_not.mp ho)

theorem toInt_remS {x y : Word} (h : y ≠ 0) : (remS x y).toInt = x.toInt.tmod y.toInt := by
  rw [remS_eq_srem x h, BitVec.toInt_srem]

/-! ### A busy context (R101) -/

/-- A crest core has no bound on its divisions. -/
theorem State.busyFor_crest {s : State} (n : Nat) (xd vd : Option (BitVec 5)) (f : Ctx → Ctx) (h : isCrest s.cur = true) :
    s.busyFor n xd vd f = s.setCtx s.cur (f s.c) := if_pos h

/-- A facet's context is busy, with some undo record. -/
theorem State.busyFor_facet {s : State} (n : Nat) (xd vd : Option (BitVec 5)) (f : Ctx → Ctx) (h : isCrest s.cur = false) :
    ∃ u, s.busyFor n xd vd f = s.setCtx s.cur { f s.c with run := .busy (s.now + n), undo := u } :=
  ⟨_, if_neg (ne_true_of_eq_false h)⟩

end Sys2Proof.Machine

namespace Sys2Proof.Safety

open Sys2Proof.Machine

/-- What a context holds in its x registers is all that a claim on them is about. -/
theorem setsX_of_x {c c' : Ctx} {d : BitVec 5} {v : Word} (h : c'.x = (c.setX d v).x) : SetsX d v c c' := by
  intro r
  rw [← Ctx.getX_setX, Ctx.getX, Ctx.getX, h]

/-- Writing a register and retiring, outside REP (R91). -/
theorem setX_retire {s : State} (d : BitVec 5) (v : Word) (hr : s.latch.rep = none) :
    (s.c.setX d v).retire s.latch = { s.c with x := (s.c.setX d v).x, pc := follows s } := by
  rw [Ctx.retire, hr]
  dsimp only
  rw [setX_keeps_pc]
  exact setX_pc _ _ _ _

/-- The two cases of R101: a facet's context is busy for 24 tile cycles, a crest core's goes on. -/
theorem writesBusy_rrBusy {i : Instr} {s : State} {d a b : BitVec 5} {f : Word → Word → Word} (hr : s.latch.rep = none)
    (e : exec i s = .next (rrBusy f d a b s)) : WritesBusy 24 i s d (f (s.c.getX a) (s.c.getX b)) := by
  rw [rrBusy] at e
  cases h : isCrest s.cur with
  | true =>
    rw [State.busyFor_crest _ _ _ _ h, setX_retire _ _ hr] at e
    refine ⟨_, e, onlyIssuer_setCtx s _, ?_, ?_⟩
    · exact setsX_of_x (by simp)
    · simp [h]
  | false =>
    obtain ⟨u, hu⟩ := State.busyFor_facet 24 (some d) none (fun c => (c.setX d (f (c.getX a) (c.getX b))).retire s.latch) h
    rw [hu, setX_retire _ _ hr] at e
    refine ⟨_, e, onlyIssuer_setCtx s _, ?_, ?_⟩
    · exact setsX_of_x (by simp)
    · simp [h]

theorem multiplyAndDivide : Sys2Proof.Claims.MultiplyAndDivide := by
  intro s d a b hr x y
  refine ⟨?mul, ?mulh, ?mulhu, ?mulhsu, ?signed, ?unsigned⟩
  case mul => exact writesX_rr hr (exec_mul d a b s) rfl
  case mulh => exact writesX_rr hr (exec_mulh d a b s) rfl
  case mulhu => exact writesX_rr hr (exec_mulhu d a b s) (highHalf_unsigned x.toNat y.toNat)
  case mulhsu => exact writesX_rr hr (exec_mulhsu d a b s) rfl
  case signed =>
    refine ⟨divS x y, remS x y, writesBusy_rrBusy hr (exec_div d a b s), writesBusy_rrBusy hr (exec_rem d a b s),
      mul_divS_add_remS x y, ?zero, ?overflow, fun h ho => ⟨toInt_divS h ho, toInt_remS h⟩⟩
    case zero =>
      intro h
      rw [h]
      exact ⟨divS_zero x, remS_zero x⟩
    case overflow =>
      intro hx hy
      rw [hx, hy]
      decide
  case unsigned =>
    refine ⟨divU x y, remU x y, writesBusy_rrBusy hr (exec_divu d a b s), writesBusy_rrBusy hr (exec_remu d a b s),
      mul_divU_add_remU x y, ?zero, ?nonzero⟩
    case zero =>
      intro h
      rw [h]
      exact ⟨divU_zero x, remU_zero x⟩
    case nonzero =>
      intro h
      rw [divU_eq_udiv x h, remU_eq_umod x h]
      exact ⟨BitVec.toNat_udiv, BitVec.toNat_umod⟩

/-- Settles O3: the quotient and the remainder of each pair fit together for every divisor, and the decoder's
table is that of R106. -/
theorem multiplyAndDivideResults : Obligations.MultiplyAndDivideResults := ⟨multiplyAndDivide, multiplyEncodings⟩

end Sys2Proof.Safety
end

section
/-! PROOF. Branches and jumps: where they go, what stops them, and their encodings (R86, R107 to R110). -/

namespace Sys2Proof

theorem decode_major0B {w : Insn} (h : bits w 31 26 = 0x0B) : decode w = decodeBranch w := by
  rw [decode, fldN_eq_bits w 31 26, h]
  rfl

theorem decode_major0F {w : Insn} (h : bits w 31 26 = 0x0F) : decode w = decodeJumpReg w := by
  rw [decode, fldN_eq_bits w 31 26, h]
  rfl

theorem decodeBranch_unlisted {w : Insn} (h : bits w 15 12 ∈ [6, 7, 11, 12, 13, 14, 15]) : decodeBranch w = .illegal := by
  rw [← fldN_eq_bits w 15 12] at h
  unfold decodeBranch
  split
  case h_10 => rfl
  all_goals
    next e => exact absurd h (by rw [e]; decide)

theorem decodeJumpReg_unlisted {w : Insn} (h : 1 < bits w 10 0) : decodeJumpReg w = .illegal := by
  rw [← fldN_eq_bits w 10 0] at h
  unfold decodeJumpReg
  split
  case h_3 => rfl
  all_goals
    next e => exact absurd h (by rw [e]; decide)

theorem branchEncodings : Sys2Proof.Claims.BranchEncodings := by
  intro w op a b i j cond
  refine ⟨?_, ?_, ?_, ?_, ?_, ?_, ?_, ?_, ?_, fun h hc => (decode_major0B h).trans (decodeBranch_unlisted hc),
    ?j, ?jl, ?jr, ?jlr, fun h hf => (decode_major0F h).trans (decodeJumpReg_unlisted hf)⟩
  case j | jl =>
    intro h
    simp only [decode, fldN_eq_bits w 31 26, show bits w 31 26 = _ from h, fld_eq_extractLsb', j]
  case jr | jlr =>
    intro h hf
    rw [decode_major0F h]
    simp only [decodeJumpReg, fldN_eq_bits w 10 0, hf, fld_eq_extractLsb', a, b]
  -- the conditions
  all_goals
    intro h hc
    rw [decode_major0B h]
    simp only [decodeBranch, fldN_eq_bits w 15 12, show bits w 15 12 = _ from hc, fld_eq_extractLsb', a, b, i]

end Sys2Proof

namespace Sys2Proof.Safety

open Sys2Proof.Machine

/-! ### Branches (R107, R108) -/

theorem not_ult_eq_decide (x y : Word) : (!x.ult y) = decide (y.toNat ≤ x.toNat) := by
  rw [BitVec.ult_eq_decide, ← decide_not, decide_eq_decide, Nat.not_lt]

/-- Where a branch goes: to its own address and the scaled displacement, or on in line. -/
def branchTarget (s : State) (disp : BitVec 12) (taken : Bool) : Word :=
  if taken then s.c.pc + 4 * disp.signExtend 64 else s.c.pc + 4

section
variable {i : Instr} {s : State} {a b : BitVec 5} {disp : BitVec 12} {f : Word → Word → Bool} {taken : Bool}

theorem goesTo_branchIf (hr : s.latch.rep = none) (hl : s.latch.len = 4) (e : exec i s = .next (branchIf taken disp s)) :
    GoesTo i s (branchTarget s disp taken) := by
  cases taken with
  | true => exact goesTo_of e
  | false =>
    have h := goesOn_of hr e
    rwa [follows, hl] at h

theorem goesTo_branchX (hr : s.latch.rep = none) (hl : s.latch.len = 4) (e : exec i s = .next (branchX f a b disp s))
    (hf : f (s.c.getX a) (s.c.getX b) = taken) : GoesTo i s (branchTarget s disp taken) := hf ▸ goesTo_branchIf hr hl e

theorem maskFields_iff (a b : BitVec 5) : (maskField a && maskField b) = true ↔ a.toNat ≤ 7 ∧ b.toNat ≤ 7 := by
  simp [maskField]

/-- A mask test on fields that name mask registers. -/
theorem goesTo_branchK (hr : s.latch.rep = none) (hl : s.latch.len = 4) (ha : a.toNat ≤ 7) (hb : b.toNat ≤ 7)
    (e : exec i s = .next (branchK f a b disp s)) :
    GoesTo i s (branchTarget s disp (f (s.c.getK (a.setWidth 3)) (s.c.getK (b.setWidth 3)))) := by
  rw [branchK, needLimits_ok _ ((maskFields_iff a b).mpr ⟨ha, hb⟩)] at e
  exact goesTo_branchIf hr hl e

/-- One on a field above 7 (R86). -/
theorem traps_branchK (hr : s.latch.rep = none) (h : 7 < a.toNat ∨ 7 < b.toNat) (e : exec i s = .next (branchK f a b disp s)) :
    Traps i s Code.illegal (s.latch.word.setWidth 64) := by
  have hbad : (maskField a && maskField b) = false := by
    rw [Bool.eq_false_iff, Ne, maskFields_iff]
    omega
  rw [branchK, needLimits_bad _ hbad] at e
  exact traps_of hr e

end

theorem branches : Sys2Proof.Claims.Branches := by
  intro s a b i hr hl x y k m go
  refine ⟨?eq, ?ne, ?lt, ?ge, ?ltu, ?geu, fun ha hb => ⟨?kany, ?kall, ?knone⟩⟩
  case eq => exact goesTo_branchX hr hl (exec_bEq a b i s) rfl
  case ne => exact goesTo_branchX hr hl (exec_bNe a b i s) rfl
  case lt => exact goesTo_branchX hr hl (exec_bLt a b i s) BitVec.slt_eq_decide
  case ge => exact goesTo_branchX hr hl (exec_bGe a b i s) (BitVec.sle_eq_not_slt.symm.trans BitVec.sle_eq_decide)
  case ltu => exact goesTo_branchX hr hl (exec_bLtu a b i s) BitVec.ult_eq_decide
  case geu => exact goesTo_branchX hr hl (exec_bGeu a b i s) (not_ult_eq_decide x y)
  case kany => exact goesTo_branchK hr hl ha hb (exec_bKany a b i s)
  case kall => exact goesTo_branchK hr hl ha hb (exec_bKall a b i s)
  case knone => exact goesTo_branchK hr hl ha hb (exec_bKnone a b i s)

/-! ### Jumps (R109, R110) -/

/-- A jump that writes a link: the register and the pc, and nothing else. -/
theorem links_of {i : Instr} {s : State} {d : BitVec 5} {link target : Word}
    (e : exec i s = .next (s.mod fun c => { c.setX d link with pc := target })) :
    Completes i s fun t => OnlyIssuer s t ∧ SetsX d link s.c t.c ∧ t.c = { s.c with x := t.c.x, pc := target } := by
  refine completes_of e ⟨onlyIssuer_mod s _, setsX_of_x ?_, ?_⟩
  · rw [State.c_mod]
  · rw [State.c_mod]
    exact setX_pc _ _ _ _

/-- The register jumps to a multiple of 4, and to any other target. -/
theorem exec_jr_aligned {s : State} {a : BitVec 5} (h : (s.c.getX a).toNat % 4 = 0) :
    exec (.jr a) s = .next (s.mod fun c => { c with pc := s.c.getX a }) := by
  rw [exec_jr, execJr, if_neg (not_not_intro h)]

theorem exec_jlr_aligned {s : State} {a : BitVec 5} (d : BitVec 5) (h : (s.c.getX a).toNat % 4 = 0) :
    exec (.jlr d a) s = .next (s.mod fun c => { c.setX d (c.pc + 4) with pc := s.c.getX a }) := by
  rw [exec_jlr, execJlr, if_neg (not_not_intro h)]

theorem exec_jr_misaligned {s : State} {a : BitVec 5} (h : (s.c.getX a).toNat % 4 ≠ 0) :
    exec (.jr a) s = .next (s.trap Code.align (s.c.getX a)) := by
  rw [exec_jr, execJr, if_pos h]

theorem exec_jlr_misaligned {s : State} {a : BitVec 5} (d : BitVec 5) (h : (s.c.getX a).toNat % 4 ≠ 0) :
    exec (.jlr d a) s = .next (s.trap Code.align (s.c.getX a)) := by
  rw [exec_jlr, execJlr, if_pos h]

theorem jumps : Sys2Proof.Claims.Jumps := by
  intro s d a i x
  refine ⟨?j, ?jl, fun h => ⟨?jr, ?jlr⟩⟩
  case j => exact goesTo_of (exec_j i s)
  case jl => exact links_of (exec_jl i s)
  case jr => exact goesTo_of (exec_jr_aligned h)
  case jlr => exact links_of (exec_jlr_aligned d h)

theorem fieldAndTargetTraps : Sys2Proof.Claims.FieldAndTargetTraps := by
  intro s d a b i hr word target
  refine ⟨fun h => ⟨?kany, ?kall, ?knone⟩, fun h => ⟨?jr, ?jlr⟩⟩
  case kany => exact traps_branchK hr h (exec_bKany a b i s)
  case kall => exact traps_branchK hr h (exec_bKall a b i s)
  case knone => exact traps_branchK hr h (exec_bKnone a b i s)
  case jr => exact traps_of hr (exec_jr_misaligned h)
  case jlr => exact traps_of hr (exec_jlr_misaligned d h)

/-- Settles O4: a branch goes to its `branchTarget` or traps on its mask fields, a jump to its target or traps
on its alignment. -/
theorem branchesAndJumpsGoToTheirTarget : Obligations.BranchesAndJumpsGoToTheirTarget :=
  ⟨branches, jumps, fieldAndTargetTraps, branchEncodings⟩

end Sys2Proof.Safety
end

section
/-! PROOF. Loads, stores and atomics of a facet on its own local memory (R36, R51, R119, R121, R123, R125, R126). -/

namespace Sys2Proof.Machine

theorem two_pow_eight_mul (n : Nat) : 2 ^ (8 * n) = 256 ^ n := Nat.pow_mul 2 8 n

/-- A read of n bytes is a number of n bytes. -/
theorem Memory.read_lt (m : Memory) (a n : Nat) : m.read a n < 256 ^ n := by
  induction n generalizing a with
  | zero => exact Nat.zero_lt_one
  | succ n ih =>
    have hsplit := m.read_append a 1 n
    have hone := m.read_one_lt a
    have hrest := ih (a + 1)
    rw [Nat.add_comm n 1, hsplit, Nat.pow_add, Nat.pow_one]
    omega

/-- The signed value of the low n bits is the library's (R6). -/
theorem signedN_eq_toInt (v n : Nat) : signedN v n = (BitVec.ofNat n v).toInt := by
  simp only [signedN, BitVec.toInt, BitVec.toNat_ofNat]
  push_cast
  rfl

/-- What a load writes is the loaded value as the claims have it (R119). -/
theorem loadValue_eq_loaded (n : Nat) (signed : Bool) (v : Nat) : loadValue n signed v = Safety.loaded n signed v := by
  cases signed with
  | false => rfl
  | true => exact congrArg (BitVec.ofInt 64) (signedN_eq_toInt v (8 * n))

/-! ### Size codes (R85, R119) -/

/-- The seven sizes of a load. -/
theorem load_sizes : ∀ p ∈ ([(0, 1, true), (1, 1, false), (2, 2, true), (3, 2, false), (4, 4, true), (5, 4, false),
    (6, 8, false)] : List (BitVec 3 × Nat × Bool)),
    loadSize p.1 = true ∧ sizeBytes p.1 = p.2.1 ∧ sizeSigned p.1 = p.2.2 ∧ 0 < p.2.1 := by decide

/-- The four sizes of a store. -/
theorem store_sizes : ∀ p ∈ ([(0, 1), (2, 2), (4, 4), (6, 8)] : List (BitVec 3 × Nat)),
    storeSize p.1 = true ∧ sizeBytes p.1 = p.2 ∧ 0 < p.2 := by decide

/-! ### What an atomic stores (R125, R126) -/

/-- An atomic on n-byte operands stores a number of n bytes. -/
theorem amoNew_lt {op : Amo} {n m y e w : Nat} (hm : m < 256 ^ n) (hy : y < 256 ^ n) (h : amoNew op n m y e = some w) :
    w < 256 ^ n := by
  have hpow := two_pow_eight_mul n
  cases op with
  | add =>
    obtain rfl := Option.some.inj h
    rw [hpow]
    exact Nat.mod_lt _ (Nat.zero_lt_of_lt hm)
  | swap =>
    obtain rfl := Option.some.inj h
    exact hy
  | cas =>
    obtain ⟨-, hw⟩ := Option.ite_none_right_eq_some.mp h
    exact Option.some.inj hw ▸ hy
  | min | max | minu | maxu =>
    obtain rfl := Option.some.inj h
    split
    · assumption
    · assumption
  | and =>
    obtain rfl := Option.some.inj h
    exact Nat.lt_of_le_of_lt Nat.and_le_left hm
  | or =>
    obtain rfl := Option.some.inj h
    rw [← hpow] at hm hy ⊢
    exact Nat.or_lt_two_pow hm hy
  | xor =>
    obtain rfl := Option.some.inj h
    rw [← hpow] at hm hy ⊢
    exact Nat.xor_lt_two_pow hm hy

/-! ### The checks of a local access (R36, R37, R121) -/

/-- An address inside local memory is its own offset there. -/
theorem bits_of_local {va : Word} (h : va.toNat < 0x40_0000) :
    bits va 63 60 = 0 ∧ bits va 59 22 = 0 ∧ bits va 21 0 = va.toNat := by
  simp only [bits, bitsN]
  omega

/-- The device's own space is the local alias's. -/
theorem State.checkSpace_local {s : State} {space : Byte} (a : Agent) (va : Word) (place : Nat)
    (h : space = 0 ∨ space = s.mgmt.domain) : s.checkSpace a space va false place = .ok (.loc place) := by
  have hown : s.ownSpace space = true := by simpa [State.ownSpace] using h
  simp [State.checkSpace, hown]

/-- Soft errors of other granules do not strike an access (R24). -/
theorem State.takeSoftError_apart {s : State} {loc n : Nat}
    (h : ∀ e ∈ s.softErrors, e.1 < loc / 8 ∨ (loc + n - 1) / 8 < e.1) : s.takeSoftError loc n = (s, false) := by
  have hnone : s.softErrors.filter (fun e => decide (loc / 8 ≤ e.1) && decide (e.1 ≤ (loc + n - 1) / 8)) = [] := by
    rw [List.filter_eq_nil_iff]
    intro e he
    have := h e he
    simp only [Bool.and_eq_true, decide_eq_true_eq]
    omega
  simp [State.takeSoftError, hnone]

end Sys2Proof.Machine

namespace Sys2Proof.Safety

open Sys2Proof.Machine

/-! ### One access of a facet to its own local memory -/

/-- A facet context in issue may make an access of a kind to n bytes of its own local memory. -/
structure LocalAccess (s : State) (t : Fin 900) (f : Fin 4) (k : Fin 11) (space : Byte) (kind : AccKind) (va : Word) (n : Nat) :
    Prop where
  cur : s.cur = .facet t f k
  pos : 0 < n
  reads : LocalRead s t space va n
  writes : kind = .load ∨ LocalWrite s t space va n

section
variable {s : State} {t : Fin 900} {f : Fin 4} {k : Fin 11} {space : Byte} {kind : AccKind} {va : Word} {n : Nat}

theorem LocalAccess.lt (h : LocalAccess s t f k space kind va n) : va.toNat < 0x40_0000 := by
  obtain ⟨-, hpos, ⟨hend, -⟩, -⟩ := h
  omega

/-- Write protection does not stop it (R182). -/
theorem LocalAccess.unprotected (h : LocalAccess s t f k space kind va n) :
    ¬((kind.number = 1 ∨ kind.number = 2) ∧ (s.tile t.val).wp = true ∧ 0x3C_0000 < va.toNat + n ∧
      va.toNat < 0x3C_4000) := by
  rintro ⟨hkind, hwp, hlo, hhi⟩
  rcases h.writes with rfl | ⟨-, hclear⟩
  · simp [AccKind.number] at hkind
  · have := hclear hwp
    omega

/-- The issuer's checks find its place (R121). -/
theorem LocalAccess.check (h : LocalAccess s t f k space kind va n) :
    s.check s.cur space va n kind.number s.c.kernel = .ok (.loc (lmLoc t.val va.toNat)) := by
  obtain ⟨hnib, hhi, hoff⟩ := bits_of_local h.lt
  have hprot := h.unprotected
  obtain ⟨hend, -, huser, hspace, -⟩ := h.reads
  have hrange : ¬(0x40_0000 < va.toNat + n) := by omega
  have hreserve : ¬((!s.c.kernel && decide (0x3C_0000 < va.toNat + n)) = true) := by
    simp only [Bool.and_eq_true, Bool.not_eq_true', decide_eq_true_eq]
    rintro ⟨hu, hlo⟩
    have := huser hu
    omega
  have hcode : ¬((s.c.kernel && (decide (kind.number = 1) || decide (kind.number = 2)) && (s.tile t.val).wp &&
      decide (0x3C_0000 < va.toNat + n) && decide (va.toNat < 0x3C_4000)) = true) := by
    simp only [Bool.and_eq_true, Bool.or_eq_true, decide_eq_true_eq]
    rintro ⟨⟨⟨⟨-, hk⟩, hwp⟩, hlo⟩, hhi⟩
    exact hprot ⟨hk, hwp, hlo, hhi⟩
  simp only [State.check, hnib, h.cur, hhi, hoff, hreserve, hcode, State.checkSpace_local _ _ _ hspace]
  simp [hrange]

/-- Its one element is placed, with nothing refused late (R121). -/
theorem LocalAccess.placed (h : LocalAccess s t f k space kind va n) (data : Nat) :
    s.placeAll false space kind.number s.c.kernel [(0, va, n, data)] [] =
        .ok [⟨0, va, .loc (lmLoc t.val va.toNat), n, data⟩] ∧
      s.lateOf space kind.number s.c.kernel [(0, va, n, data)] = none := by
  obtain ⟨-, halign, -⟩ := h.reads
  simp [State.placeAll, State.lateOf, h.check, halign]

/-- It is performed as it is issued, its value written back, and the instruction retires (R43, R46). -/
theorem LocalAccess.access (h : LocalAccess s t f k space kind va n) {data v : Nat} {u : State} (back : Writeback)
    (hp : s.performAt kind (lmLoc t.val va.toNat) n data = (u, .ok v)) :
    s.access space kind back [(0, va, n, data)] = u.mod fun c => (c.writeBack back [(0, v)]).retire u.latch := by
  obtain ⟨hnib, -⟩ := bits_of_local h.lt
  obtain ⟨hplace, hlate⟩ := h.placed data
  have hnote : s.noteTranslation s.cur space va = s := by simp [State.noteTranslation, h.cur, isCrest]
  have hnow : ∀ d, s.performedNow s.cur ⟨0, va, .loc (lmLoc t.val va.toNat), n, d⟩ = true := by
    intro d
    simp [State.performedNow, h.cur, isCrest, hnib]
  have hperform : s.performNow s.cur kind [⟨0, va, .loc (lmLoc t.val va.toNat), n, data⟩] [] none = (u, [(0, v)], none) := by
    simp [State.performNow, h.cur, performBy_facet, hnib, hp]
  simp only [State.access, State.accessWith, hplace, hlate, List.foldl, hnote, State.issueAccess, hnow, List.filter,
    List.takeWhile, List.dropWhile, ite_self, hperform, lowerRefused, belowRefused, State.closeRing, Bool.not_true]

/-- No soft error strikes it (R24). -/
theorem LocalAccess.noSoftError (h : LocalAccess s t f k space kind va n) :
    s.takeSoftError (lmLoc t.val va.toNat) n = (s, false) := by
  obtain ⟨-, -, -, -, hsoft⟩ := h.reads
  exact State.takeSoftError_apart hsoft

end

/-! ### Loads (R119, R123) -/

section
variable {s : State} {t : Fin 900} {f : Fin 4} {k : Fin 11} {space : Byte} {va : Word} {n : Nat}

/-- What ends in a load of a facet's own local memory writes the loaded value. -/
theorem writesX_load {i : Instr} {d : BitVec 5} {z : BitVec 3} (hr : s.latch.rep = none) (hz : loadSize z = true)
    (h : LocalAccess s t f k space .load va (sizeBytes z)) (e : exec i s = .next (s.load d space va z)) :
    WritesX i s d (loaded (sizeBytes z) (sizeSigned z) (s.mem.read (lmLoc t.val va.toNat) (sizeBytes z))) := by
  have hp : s.performAt .load (lmLoc t.val va.toNat) (sizeBytes z) 0 =
      (s, .ok (s.mem.read (lmLoc t.val va.toNat) (sizeBytes z))) := by
    simp only [State.performAt, h.noSoftError]
  rw [State.load, needLimits_ok _ hz, h.access _ hp] at e
  rw [← loadValue_eq_loaded]
  exact writesX_of hr e

end

theorem localLoads : Sys2Proof.Claims.LocalLoads := by
  intro s t f k d a b i z n sg hc hr hz value va
  obtain ⟨hlimit, hbytes, hsigned, hpos⟩ := load_sizes _ hz
  obtain rfl : sizeBytes z = n := hbytes
  obtain rfl : sizeSigned z = sg := hsigned
  refine ⟨fun h => ?ld, fun h => ?ldx, fun h => ?ldAcq⟩
  case ld => exact writesX_load hr hlimit ⟨hc, hpos, h, .inl rfl⟩ (exec_ld d a z i s)
  case ldx => exact writesX_load hr hlimit ⟨hc, hpos, h, .inl rfl⟩ (exec_ldx d a b z s)
  case ldAcq => exact writesX_load hr hlimit ⟨hc, hpos, h, .inl rfl⟩ (exec_ldAcq d a z s)

/-! ### Stores (R51, R119, R123) -/

/-- Writing n bytes of memory and then changing the context in issue changes nothing else. -/
theorem onlyIssuerAnd_poke (s : State) (l n v : Nat) (g : Ctx → Ctx) : OnlyIssuerAnd l n s ((s.poke l n v).mod g) :=
  ⟨rfl, fun _ h => State.ctx_modCtx_other _ _ h, fun _ h => Memory.byte_write_out _ _ _ _ _ h⟩

/-- Neither does changing that context alone. -/
theorem onlyIssuerAnd_mod (s : State) (l n : Nat) (g : Ctx → Ctx) : OnlyIssuerAnd l n s (s.mod g) :=
  ⟨rfl, fun _ h => State.ctx_modCtx_other _ _ h, fun _ _ => rfl⟩

/-- Reading back n bytes that have been written. -/
theorem read_poke (s : State) (l n v : Nat) : (s.poke l n v).mem.read l n = v % 256 ^ n := by
  rw [← two_pow_eight_mul]
  exact Memory.read_write s.mem l n v

section
variable {s : State} {t : Fin 900} {f : Fin 4} {k : Fin 11} {space : Byte} {va : Word}

/-- What ends in a store to a facet's own local memory stores the low bytes of its register. -/
theorem stores_store {i : Instr} {d : BitVec 5} {z : BitVec 3} (hr : s.latch.rep = none)
    (h : LocalAccess s t f k space .store va (sizeBytes z)) (e : exec i s = .next (s.store d space va z)) :
    Stores i s t va (sizeBytes z) (s.c.getX d).toNat := by
  have hp : s.performAt .store (lmLoc t.val va.toNat) (sizeBytes z) (storeData (s.c.getX d) z) =
      (s.poke (lmLoc t.val va.toNat) (sizeBytes z) (storeData (s.c.getX d) z), .ok 0) := by
    simp only [State.performAt, h.noSoftError]
  rw [State.store, h.access _ hp] at e
  refine ⟨_, e, onlyIssuerAnd_poke .., ?_, ?_⟩
  · rw [State.mod_mem, read_poke, storeData, two_pow_eight_mul, Nat.mod_mod]
  · rw [State.c_mod, State.poke_latch, Ctx.retire, hr]
    rfl

end

theorem localStores : Sys2Proof.Claims.LocalStores := by
  intro s t f k d a b i z n hc hr hz va
  obtain ⟨hlimit, hbytes, hpos⟩ := store_sizes _ hz
  obtain rfl : sizeBytes z = n := hbytes
  refine ⟨fun h => ?st, fun h => ?stx, fun h => ?stRel⟩
  case st =>
    refine stores_store hr ⟨hc, hpos, h.1, .inr h⟩ ?_
    rw [exec_st, execSt, needLimits_ok _ hlimit]
    rfl
  case stx =>
    refine stores_store hr ⟨hc, hpos, h.1, .inr h⟩ ?_
    rw [exec_stx, execStx, needLimits_ok _ hlimit]
  case stRel =>
    have ⟨⟨_, halign, _⟩, _⟩ := h
    have e : exec (.stRel d a z) s = .next (s.afterRelease fun s => s.store d s.c.spc (s.c.getX a) z) := by
      rw [exec_stRel, execStRel, needLimits_ok _ hlimit, needAligned_ok _ halign]
    refine ⟨fun hrel => ?_, fun hopen => ?_⟩
    · rw [afterRelease_done _ hrel] at e
      exact stores_store hr ⟨hc, hpos, h.1, .inr h⟩ e
    · rw [afterRelease_waits _ hopen] at e
      exact parks_of e

/-- Settles O11: a local access is performed as it is issued (`LocalAccess.access`), and a release only waits before it. -/
theorem localLoadsAndStores : Obligations.LocalLoadsAndStores := ⟨localLoads, localStores⟩

/-! ### Atomics (R125, R126) -/

/-- The bytes that an atomic accesses. -/
def amoBytes (w : BitVec 1) : Nat := if w = 1 then 8 else 4

theorem amoBytes_pos (w : BitVec 1) : 0 < amoBytes w := by
  unfold amoBytes
  split <;> decide

/-- With its alignment and its ordering met, an atomic makes its access. -/
theorem amo_eq {s : State} {a : BitVec 5} {o : BitVec 2} {w : BitVec 1} (op : Amo) (d b : BitVec 5)
    (ha : (s.c.getX a).toNat % amoBytes w = 0) (ho : o.toNat < 2 ∨ Releases s) :
    s.amo op d a b o w = s.access s.c.spc (.amo op ((s.c.getX d).toNat % 256 ^ amoBytes w)) (.scalar d (amoBytes w) true)
      [(0, s.c.getX a, amoBytes w, (s.c.getX b).toNat % 256 ^ amoBytes w)] := by
  have hn : (if w = 1 then 8 else 4) = amoBytes w := rfl
  simp only [State.amo, hn, two_pow_eight_mul]
  rw [needAligned_ok _ ha]
  rcases ho with hlow | hrel
  · have hord : ¬((decide (o = 2) || decide (o = 3)) = true) := by
      simp only [Bool.or_eq_true, decide_eq_true_eq]
      rintro (rfl | rfl) <;> exact absurd hlow (by decide)
    exact if_neg hord
  · rw [afterRelease_done _ hrel]
    exact ite_self _

/-- An atomic answers the old value, and stores the new one if there is one (R126). -/
theorem performAt_amo_some {s : State} {op : Amo} {l n y e x : Nat} (hs : s.takeSoftError l n = (s, false))
    (h : amoNew op n (s.mem.read l n) y e = some x) :
    s.performAt (.amo op e) l n y = (s.poke l n x, .ok (s.mem.read l n)) := by
  simp only [State.performAt, hs, h]

theorem performAt_amo_none {s : State} {op : Amo} {l n y e : Nat} (hs : s.takeSoftError l n = (s, false))
    (h : amoNew op n (s.mem.read l n) y e = none) : s.performAt (.amo op e) l n y = (s, .ok (s.mem.read l n)) := by
  simp only [State.performAt, hs, h]

/-- What leaves n bytes exchanged, writes the old ones back and retires is an exchange. -/
theorem exchanges_of {i : Instr} {s u : State} {t : Fin 900} {va : Word} {n : Nat} {d : BitVec 5} {v : Nat → Nat}
    (hr : s.latch.rep = none) (hframe : ∀ g, OnlyIssuerAnd (lmLoc t.val va.toNat) n s (u.mod g)) (hc : u.c = s.c)
    (hl : u.latch = s.latch) (hread : u.mem.read (lmLoc t.val va.toNat) n = v (s.mem.read (lmLoc t.val va.toNat) n))
    (e : exec i s = .next (u.mod fun c =>
      (c.writeBack (.scalar d n true) [(0, s.mem.read (lmLoc t.val va.toNat) n)]).retire u.latch)) :
    Exchanges i s t va n d v := by
  have hback : (s.c.writeBack (.scalar d n true) [(0, s.mem.read (lmLoc t.val va.toNat) n)]) =
      s.c.setX d (loaded n true (s.mem.read (lmLoc t.val va.toNat) n)) := by
    rw [← loadValue_eq_loaded]
    rfl
  refine ⟨_, e, hframe _, hread, setsX_of_x ?_, ?_⟩
  · rw [State.c_mod, hc, hl, hback, setX_retire _ _ hr]
  · rw [State.c_mod, hc, hl, hback, setX_retire _ _ hr]

section
variable {i : Instr} {s : State} {t : Fin 900} {f : Fin 4} {k : Fin 11} {d a b : BitVec 5} {o : BitVec 2} {w : BitVec 1}
  {op : Amo} {v : Nat → Nat}

/-- An atomic on a facet's own local memory exchanges its bytes for what its operation makes of them; where it makes nothing,
they stay. -/
theorem exchanges_amo (hr : s.latch.rep = none) (hc : s.cur = .facet t f k) (ho : o.toNat < 2 ∨ Releases s)
    (hw : LocalWrite s t s.c.spc (s.c.getX a) (amoBytes w)) (e : exec i s = .next (s.amo op d a b o w))
    (hv : ∀ m, m < 256 ^ amoBytes w → (amoNew op (amoBytes w) m ((s.c.getX b).toNat % 256 ^ amoBytes w)
      ((s.c.getX d).toNat % 256 ^ amoBytes w)).getD m = v m) :
    Exchanges i s t (s.c.getX a) (amoBytes w) d v := by
  have ⟨⟨_, halign, _⟩, _⟩ := hw
  have hacc : LocalAccess s t f k s.c.spc (.amo op ((s.c.getX d).toNat % 256 ^ amoBytes w)) (s.c.getX a) (amoBytes w) :=
    ⟨hc, amoBytes_pos w, hw.1, .inr hw⟩
  have hm := s.mem.read_lt (lmLoc t.val (s.c.getX a).toNat) (amoBytes w)
  have hy : (s.c.getX b).toNat % 256 ^ amoBytes w < 256 ^ amoBytes w := Nat.mod_lt _ (Nat.pow_pos (by decide))
  rw [amo_eq op d b halign ho] at e
  have hnew := hv _ hm
  cases h : amoNew op (amoBytes w) (s.mem.read (lmLoc t.val (s.c.getX a).toNat) (amoBytes w))
      ((s.c.getX b).toNat % 256 ^ amoBytes w) ((s.c.getX d).toNat % 256 ^ amoBytes w) with
  | none =>
    rw [hacc.access _ (performAt_amo_none hacc.noSoftError h)] at e
    rw [h] at hnew
    exact exchanges_of hr (onlyIssuerAnd_mod s _ _) rfl rfl hnew e
  | some x =>
    rw [hacc.access _ (performAt_amo_some hacc.noSoftError h)] at e
    rw [h] at hnew
    refine exchanges_of hr (onlyIssuerAnd_poke s _ _ _) rfl rfl ?_ e
    rw [read_poke, Nat.mod_eq_of_lt (amoNew_lt hm hy h)]
    exact hnew

end

/-- A signed number of n bytes (R6). -/
theorem signedN_bytes {n v : Nat} (h : v < 256 ^ n) :
    signedN v (8 * n) = if 2 * v < 256 ^ n then (v : Int) else (v : Int) - 256 ^ n := by
  simp only [signedN]
  have hpow : (2 : Int) ^ (8 * n) = 256 ^ n := Int.pow_mul
  rw [two_pow_eight_mul, Nat.mod_eq_of_lt h, hpow]

theorem localAtomics : Sys2Proof.Claims.LocalAtomics := by
  intro s t f k d a b o w hc hr ho n va y e signed hw
  have hy : y < 256 ^ n := Nat.mod_lt _ (Nat.pow_pos (by decide))
  have hsigned : ∀ v, v < 256 ^ n → signedN v (8 * n) = signed v := fun v hv => signedN_bytes hv
  refine ⟨?add, ?swap, ?cas, ?min, ?max, ?minu, ?maxu, ?and, ?or, ?xor⟩
  case add =>
    refine exchanges_amo hr hc ho hw (exec_amoAdd d a b o w s) fun m _ => ?_
    exact congrArg ((m + y) % ·) (two_pow_eight_mul n)
  case swap => exact exchanges_amo hr hc ho hw (exec_amoSwap d a b o w s) fun m _ => rfl
  case cas =>
    refine exchanges_amo hr hc ho hw (exec_amoCas d a b o w s) fun m _ => ?_
    exact apply_ite (Option.getD · m) (m = e) (some y) none
  case min =>
    refine exchanges_amo hr hc ho hw (exec_amoMin d a b o w s) fun m hm => ?_
    show (if signedN m (8 * n) ≤ signedN y (8 * n) then m else y) = _
    rw [hsigned m hm, hsigned y hy]
  case max =>
    refine exchanges_amo hr hc ho hw (exec_amoMax d a b o w s) fun m hm => ?_
    show (if signedN y (8 * n) ≤ signedN m (8 * n) then m else y) = _
    rw [hsigned m hm, hsigned y hy]
  case minu => exact exchanges_amo hr hc ho hw (exec_amoMinu d a b o w s) fun m _ => Nat.min_def.symm
  case maxu =>
    refine exchanges_amo hr hc ho hw (exec_amoMaxu d a b o w s) fun m _ => ?_
    exact Nat.max_def.symm.trans (Nat.max_comm y m)
  case and => exact exchanges_amo hr hc ho hw (exec_amoAnd d a b o w s) fun m _ => rfl
  case or => exact exchanges_amo hr hc ho hw (exec_amoOr d a b o w s) fun m _ => rfl
  case xor => exact exchanges_amo hr hc ho hw (exec_amoXor d a b o w s) fun m _ => rfl

/-- Settles O12: the ten atomics are one exchange (`exchanges_amo`) with ten functions of the old value. -/
theorem localAtomicsExchange : Obligations.LocalAtomicsExchange := localAtomics

end Sys2Proof.Safety
end

section
/-! PROOF. raddr: the aperture address of an offset in the tile of a rank (R124). -/

namespace Sys2Proof.Machine

/-! ### Fields of an address -/

/-- Below a multiple of a power of two, an or adds. -/
theorem or_eq_add {x y : Word} (i : Nat) (hx : x.toNat % 2 ^ i = 0) (hy : y.toNat < 2 ^ i) : x ||| y = x + y := by
  apply BitVec.eq_of_toNat_eq
  obtain ⟨q, hq⟩ := Nat.dvd_of_mod_eq_zero hx
  have hor : x.toNat ||| y.toNat = x.toNat + y.toNat := by rw [hq, Nat.two_pow_add_eq_or_of_lt hy]
  have hlt := (x ||| y).isLt
  rw [BitVec.toNat_or, hor] at hlt
  rw [BitVec.toNat_or, hor, BitVec.toNat_add, Nat.mod_eq_of_lt hlt]

/-- The address that no tile has (R124). -/
theorem noTile_address (off : Word) :
    0xF000_0000_FFC0_0000 ||| toWord (bits off 21 0) = toWord (0xF000_0000_FFC0_0000 + off.toNat % 2 ^ 22) := by
  have hoff : bits off 21 0 = off.toNat % 2 ^ 22 := by simp [bits, bitsN]
  have hlt : off.toNat % 2 ^ 22 < 2 ^ 22 := Nat.mod_lt _ (by decide)
  rw [hoff, or_eq_add 22 (by decide)]
  · exact (BitVec.ofNat_add _ _).symm
  · rw [toWord, BitVec.toNat_ofNat]
    omega

/-- The aperture address of an offset in a tile (R36). -/
theorem tile_address {tile off : Word} (ht : tile.toNat < 900) (ho : off.toNat < 2 ^ 22) :
    0xF000_0000_0000_0000 ||| (tile <<< 22) ||| off = toWord (15 * 2 ^ 60 + tile.toNat * 2 ^ 22 + off.toNat) := by
  have hshift : (tile <<< 22).toNat = tile.toNat * 2 ^ 22 := by
    rw [BitVec.toNat_shiftLeft, Nat.shiftLeft_eq]
    omega
  have hhigh : (0xF000_0000_0000_0000 ||| (tile <<< 22) : Word) = 0xF000_0000_0000_0000 + tile <<< 22 :=
    or_eq_add 32 (by decide) (by omega)
  have hsum : (0xF000_0000_0000_0000 + tile <<< 22 : Word).toNat = 15 * 2 ^ 60 + tile.toNat * 2 ^ 22 := by
    rw [BitVec.toNat_add, hshift]
    show (15 * 2 ^ 60 + _) % _ = _
    omega
  rw [hhigh, or_eq_add 22 (by omega) ho]
  apply BitVec.eq_of_toNat_eq
  rw [BitVec.toNat_add, hsum, toWord, BitVec.toNat_ofNat]

/-! ### The tile of a rank (R124) -/

/-- The difference of two words, where it is none below 0. -/
theorem toNat_toWord_sub {n : Nat} {x : Word} (hn : n < 2 ^ 64) (h : x.toNat ≤ n) : (toWord n - x).toNat = n - x.toNat := by
  have hx := x.isLt
  rw [toWord, BitVec.toNat_sub, BitVec.toNat_ofNat]
  omega

/-- A gang with no width, a rank outside it, and an offset in the kernel reserve. -/
theorem raddrOf_outside (xy : Nat × Nat) (rank : Word) {w h off r : Word}
    (hout : w.toNat = 0 ∨ w.toNat * h.toNat ≤ r.toNat ∨ 0x3C_0000 ≤ off.toNat) :
    raddrOf xy rank w h off r = toWord (0xF000_0000_FFC0_0000 + off.toNat % 2 ^ 22) := by
  have hcond : (decide (w = 0) || decide (w.toNat * h.toNat ≤ r.toNat) || decide (0x3C_0000 ≤ off.toNat)) = true := by
    simpa [← BitVec.toNat_inj, or_assoc] using hout
  rw [raddrOf, if_pos hcond, noTile_address]

/-- The tile at rank r, whose column and row are r % w and r / w from the gang's origin. The executing tile's own column and row
less those of its rank give that origin. -/
theorem raddrOf_inside {col row : Nat} {rank w h off r : Word} (hw : 0 < w.toNat) (hr : r.toNat < w.toNat * h.toNat)
    (ho : off.toNat < 0x3C_0000) (hcol : rank.toNat % w.toNat ≤ col) (hright : col - rank.toNat % w.toNat + w.toNat ≤ 30)
    (hrow : rank.toNat / w.toNat ≤ row) (hdown : row - rank.toNat / w.toNat + h.toNat ≤ 30)
    (hcol' : col < 30) (hrow' : row < 30) :
    raddrOf (col, row) rank w h off r = toWord (15 * 2 ^ 60 + (30 * (row - rank.toNat / w.toNat + r.toNat / w.toNat) +
      (col - rank.toNat % w.toNat + r.toNat % w.toNat)) * 2 ^ 22 + off.toNat) := by
  have hcond : ¬(decide (w = 0) || decide (w.toNat * h.toNat ≤ r.toNat) || decide (0x3C_0000 ≤ off.toNat)) = true := by
    have hw0 : w ≠ 0 := by
      rintro rfl
      exact absurd hw (by decide)
    simp only [hw0, decide_false, Bool.false_or, Bool.or_eq_true, decide_eq_true_eq]
    omega
  have hx := toNat_toWord_sub (x := rank % w) (n := col) (by omega) (by rwa [BitVec.toNat_umod])
  have hy := toNat_toWord_sub (x := rank / w) (n := row) (by omega) (by rwa [BitVec.toNat_udiv])
  rw [BitVec.toNat_umod] at hx
  rw [BitVec.toNat_udiv] at hy
  have hrx : r.toNat % w.toNat < w.toNat := Nat.mod_lt _ hw
  have hry : r.toNat / w.toNat < h.toNat := Nat.div_lt_of_lt_mul hr
  have htile : ((toWord row - rank / w + r / w) * 30 + (toWord col - rank % w) + r % w).toNat =
      30 * (row - rank.toNat / w.toNat + r.toNat / w.toNat) + (col - rank.toNat % w.toNat + r.toNat % w.toNat) := by
    have h30 : (30 : Word).toNat = 30 := rfl
    simp only [BitVec.toNat_add, BitVec.toNat_mul, BitVec.toNat_udiv, BitVec.toNat_umod, hx, hy, h30]
    omega
  rw [raddrOf, if_neg hcond]
  dsimp only
  rw [tile_address (by omega) (by omega), htile]

end Sys2Proof.Machine

namespace Sys2Proof.Safety

open Sys2Proof.Machine

theorem remoteAddresses : Sys2Proof.Claims.RemoteAddresses := by
  intro s t f k d a b hc hr c off r w
  have hxy : ownXY s.cur = (t.val % 30, t.val / 30) := by rw [hc]; rfl
  have e : ∀ v, raddrOf (t.val % 30, t.val / 30) c.rank c.gangw c.gangh (c.getX a) (c.getX b) = v →
      WritesX (.raddr d a b) s d v := by
    rintro v rfl
    rw [← hxy]
    exact writesX_of hr (exec_raddr d a b s)
  refine ⟨fun h => e _ ?_, fun hw hlt ho hcol hright hrow hdown => e _ ?_⟩
  · exact raddrOf_outside _ _ h
  · exact raddrOf_inside hw hlt ho hcol hright hrow hdown (by omega) (by omega)

/-- Settles O14: outside the gang `raddrOf` gives `noTile_address`, inside it `tile_address` of the tile at the rank. -/
theorem raddrFormsAnApertureAddress : Obligations.RaddrFormsAnApertureAddress := remoteAddresses

end Sys2Proof.Safety
end

section
/-! PROOF. Synchronisation inside a tile: what an instruction leaves of its tile and its context, and mutexes and semaphores (R128
to R131). -/

namespace Sys2Proof.Machine

/-! ### A tile's own synchronisation (R129) -/

theorem State.onTile_facet {s : State} {t : Fin 900} {f : Fin 4} {k : Fin 11} (g : Nat → State → State)
    (hc : s.cur = .facet t f k) : s.onTile g = g t.val s := by
  rw [State.onTile, hc]

theorem mutexOp_facet {s : State} {t : Fin 900} {f : Fin 4} {k : Fin 11} {b : BitVec 5} {m : Fin 16}
    (g : Nat → Nat → State → State) (hc : s.cur = .facet t f k) (hb : b.toNat = m.val) :
    mutexOp b g s = g m.val t.val s := by
  have hm := m.isLt
  rw [mutexOp, hb, Safety.needLimits_ok _ (decide_eq_true hm), State.onTile_facet _ hc]

theorem tileCtxid_facet (t : Fin 900) (f : Fin 4) (k : Fin 11) :
    tileCtxid (.facet t f k) = BitVec.ofNat 6 (16 * f.val + k.val) := by
  rw [tileCtxid, ctxid, Nat.mul_comm]

/-! ### Mutexes, semaphores and channels by number (R128, R133) -/

theorem Tile.mutex_fin (x : Tile) (m : Fin 16) : x.mutex m.val = x.mutexes[m] := by
  simp only [Tile.mutex, Nat.mod_eq_of_lt m.isLt]
  rfl

theorem Tile.setMutex_fin (x : Tile) (m : Fin 16) (y : Mutex) :
    x.setMutex m.val y = { x with mutexes := x.mutexes.set m.val y } := by
  simp only [Tile.setMutex, Nat.mod_eq_of_lt m.isLt]

theorem Tile.sem_field (x : Tile) (b : BitVec 5) : x.sem b.toNat = x.sems[b.toNat]'b.isLt := by
  simp only [Tile.sem, Nat.mod_eq_of_lt (show b.toNat < 32 from b.isLt)]

theorem Tile.setSem_field (x : Tile) (b : BitVec 5) (y : Sem) :
    x.setSem b.toNat y = { x with sems := x.sems.set b.toNat y b.isLt } := by
  simp only [Tile.setSem, Nat.mod_eq_of_lt (show b.toNat < 32 from b.isLt)]

/-! ### Permits (R131) -/

theorem Sem.free_iff (x : Sem) : x.free = true ↔ x.count ≠ 0 ∧ x.waiters = [] := by simp [Sem.free]

/-- A semaphore after a V that nobody waits for: the count rises, or at 65,535 the permit is lost and the overflow bit set. -/
def Sem.given (x : Sem) : Sem :=
  { x with count := if x.count = 0xFFFF then x.count else x.count + 1, ovf := x.ovf || x.count = 0xFFFF }

theorem Sem.given_eq (x : Sem) :
    (if x.count = 0xFFFF then { x with ovf := true } else { x with count := x.count + 1 }) = x.given := by
  by_cases h : x.count = 0xFFFF
  · simp only [Sem.given, h, if_true, decide_true, Bool.or_true]
  · simp only [Sem.given, h, if_false, decide_false, Bool.or_false]

end Sys2Proof.Machine

namespace Sys2Proof.Safety

open Sys2Proof.Machine

/-! ### A tile that changes, and its context (R91, R129) -/

/-- Of the whole state only contexts and tile t are different, and the tile is x. -/
def OnlyCtxsTile (s u : State) (t : Nat) (x : Tile) : Prop :=
  u = { s with ctxs := u.ctxs, tiles := u.tiles } ∧ OtherTiles s u t ∧ u.tile t = x

theorem onlyCtxsTile_mod (s : State) (t : Nat) (g : Tile → Tile) (h : Ctx → Ctx) :
    OnlyCtxsTile s ((s.modTile t g).mod h) t (g (s.tile t)) :=
  ⟨rfl, fun _ hm => State.tile_modTile_other _ _ hm, State.tile_modTile_same _ _ _⟩

/-- The context that has retired an instruction, outside REP (R91). -/
theorem retire_c {s : State} (hr : s.latch.rep = none) : s.retire.c = { s.c with pc := follows s } := by
  rw [State.retire, State.c_mod, Ctx.retire, hr]
  rfl

section
variable {i : Instr} {s : State} {t : Nat} {g : Tile → Tile}

/-- A tile changes and the context in issue with it. -/
theorem completes_tile {h : Ctx → Ctx} (e : exec i s = .next ((s.modTile t g).mod h)) :
    Completes i s fun u => OnlyCtxsTile s u t (g (s.tile t)) ∧ OtherCtxs s u s.cur ∧ u.c = h s.c :=
  ⟨_, e, onlyCtxsTile_mod s t g h, fun _ hb => State.ctx_modCtx_other _ _ hb, State.c_mod _ _⟩

/-- The tile changes, and the instruction goes on in line. -/
theorem goesOn_tile (hr : s.latch.rep = none) (e : exec i s = .next (s.modTile t g).retire) :
    Completes i s fun u => OnlyCtxsTile s u t (g (s.tile t)) ∧ OtherCtxs s u s.cur ∧ u.c = { s.c with pc := follows s } := by
  have h := completes_tile e
  simp only [State.modTile_latch, Ctx.retire, hr] at h
  exact h

/-- The tile changes, and the context parks. -/
theorem parks_tile {why : Park} (e : exec i s = .next ((s.modTile t g).park why)) :
    Completes i s fun u =>
      OnlyCtxsTile s u t (g (s.tile t)) ∧ OtherCtxs s u s.cur ∧ u.c = { s.c with run := .parked why } := completes_tile e

/-- The tile changes, and the instruction writes a register and goes on in line. -/
theorem writesX_tile {d : BitVec 5} {v : Word} (hr : s.latch.rep = none)
    (e : exec i s = .next ((s.modTile t g).setXRetire d v)) :
    Completes i s fun u => OnlyCtxsTile s u t (g (s.tile t)) ∧ OtherCtxs s u s.cur ∧ SetsX d v s.c u.c ∧
      u.c = { s.c with x := u.c.x, pc := follows s } := by
  obtain ⟨u, e, ht, hc, h⟩ := completes_tile e
  rw [State.modTile_latch, setX_retire d v hr] at h
  exact ⟨u, e, ht, hc, setsX_of_x (by rw [h]), by rw [h]⟩

/-- The tile changes, the instruction goes on in line, and the head waiter goes on past its own (R130, R131). -/
theorem goesOn_tile_finish {w : Agent} (hr : s.latch.rep = none) (hw : w ≠ s.cur)
    (e : exec i s = .next ((s.retire.modTile t g).finish w id)) :
    Completes i s fun u => OnlyCtxsTile s u t (g (s.tile t)) ∧ u.c = { s.c with pc := follows s } ∧
      u.ctx w = { s.ctx w with pc := (s.ctx w).pc + 4, run := .ready } ∧ ∀ a, a ≠ s.cur → a ≠ w → u.ctx a = s.ctx a := by
  have hother : ∀ a, a ≠ s.cur → (s.retire.modTile t g).ctx a = s.ctx a := fun a ha => State.ctx_modCtx_other _ _ ha
  have htile : OnlyCtxsTile s ((s.retire.modTile t g).finish w id) t (g (s.tile t)) :=
    ⟨rfl, fun _ hm => State.tile_modTile_other _ _ hm, State.tile_modTile_same _ _ _⟩
  refine ⟨_, e, htile, ?_, ?_, fun a hc ha => ?_⟩
  · exact (State.ctx_modCtx_other _ _ hw.symm).trans (retire_c hr)
  · rw [State.finish, State.ctx_modCtx_same, hother w hw]
    rfl
  · exact (State.ctx_modCtx_other _ _ ha).trans (hother a hc)

end

/-! ### Mutexes (R130) -/

section
variable {s : State} {t m : Nat}

theorem lockMutex_own (h : ((s.tile t).mutex m).owner = some (tileCtxid s.cur)) :
    lockMutex m t s = s.trap Code.prot (toWord m) := if_pos h

theorem lockMutex_free (h : ((s.tile t).mutex m).owner = none) :
    lockMutex m t s =
      (s.modTile t fun x => x.setMutex m { (s.tile t).mutex m with owner := some (tileCtxid s.cur) }).retire := by
  simp [lockMutex, h]

theorem lockMutex_owned {o : BitVec 6} (h : ((s.tile t).mutex m).owner = some o) (ho : o ≠ tileCtxid s.cur) :
    lockMutex m t s =
      (s.modTile t fun x => x.setMutex m { (s.tile t).mutex m with waiters := ((s.tile t).mutex m).waiters ++ [s.cur] }).park
        (.mutex m) := by
  simp [lockMutex, h, ho]

theorem tryMutex_free (d : BitVec 5) (h : ((s.tile t).mutex m).owner = none) (hw : ((s.tile t).mutex m).waiters = []) :
    tryMutex d m t s =
      (s.modTile t fun x => x.setMutex m { (s.tile t).mutex m with owner := some (tileCtxid s.cur) }).setXRetire d 1 := by
  simp [tryMutex, h, hw]

theorem tryMutex_owned (d : BitVec 5) (h : ((s.tile t).mutex m).owner ≠ none) : tryMutex d m t s = s.setXRetire d 0 := by
  simp [tryMutex, h]

theorem unlockMutex_other (h : ((s.tile t).mutex m).owner ≠ some (tileCtxid s.cur)) :
    unlockMutex m t s = s.trap Code.prot (toWord m) := if_pos h

theorem unlockMutex_own (h : ((s.tile t).mutex m).owner = some (tileCtxid s.cur)) :
    unlockMutex m t s = s.afterRelease fun s => s.retire.passMutex t m := if_neg (not_not_intro h)

theorem passMutex_free (h : ((s.tile t).mutex m).waiters = []) :
    s.retire.passMutex t m = (s.modTile t fun x => x.setMutex m { (s.tile t).mutex m with owner := none }).retire := by
  have h' : ((s.retire.tile t).mutex m).waiters = [] := h
  simp only [State.passMutex, h', h]
  rfl

theorem passMutex_head {w : Agent} {rest : List Agent} (h : ((s.tile t).mutex m).waiters = w :: rest) :
    s.retire.passMutex t m = (s.retire.modTile t fun x => x.setMutex m ⟨some (tileCtxid w), rest⟩).finish w id := by
  have h' : ((s.retire.tile t).mutex m).waiters = w :: rest := h
  simp only [State.passMutex, h']

end

theorem mutexes : Sys2Proof.Claims.Mutexes := by
  intro s t f k d b m hc hr hb x me becomes on
  have hme : tileCtxid s.cur = me := hc ▸ tileCtxid_facet t f k
  have hx : (s.tile t.val).mutex m.val = x := Tile.mutex_fin _ m
  have hset : ∀ y, (s.tile t.val).setMutex m.val y = { s.tile t.val with mutexes := (s.tile t.val).mutexes.set m.val y } :=
    Tile.setMutex_fin _ m
  have hown : ((s.tile t.val).mutex m.val).owner = some (tileCtxid s.cur) ↔ x.owner = some me := by rw [hx, hme]
  have elock : exec (.mtxLock b) s = .next (lockMutex m.val t.val s) := by
    rw [exec_mtxLock, execMtxLock, mutexOp_facet _ hc hb]
  have etry : exec (.mtxTry d b) s = .next (tryMutex d m.val t.val s) := by
    rw [exec_mtxTry, execMtxTry, mutexOp_facet _ hc hb]
  have eunlock : exec (.mtxUnlock b) s = .next (unlockMutex m.val t.val s) := by
    rw [exec_mtxUnlock, execMtxUnlock, mutexOp_facet _ hc hb]
  refine ⟨fun h => ?lockFree, fun o h ho => ?lockOwned, fun h => ?lockOwn, fun h hw => ?tryFree, fun h => ?tryOwned,
    fun h hw hrel => ?unlockFree, fun w rest h hw hne hrel => ?unlockHead, fun h hopen => ?unlockWaits, fun h => ?unlockOther⟩
  case lockFree =>
    rw [lockMutex_free (hx ▸ h)] at elock
    have := goesOn_tile hr elock
    rwa [hset, hx, hme] at this
  case lockOwned =>
    rw [lockMutex_owned (hx ▸ h) (hme ▸ ho)] at elock
    have := parks_tile elock
    rwa [hset, hx] at this
  case lockOwn =>
    rw [lockMutex_own (hown.mpr h)] at elock
    exact traps_of hr elock
  case tryFree =>
    rw [tryMutex_free d (hx ▸ h) (hx ▸ hw)] at etry
    have := writesX_tile hr etry
    rwa [hset, hx, hme] at this
  case tryOwned =>
    rw [tryMutex_owned d (hx ▸ h)] at etry
    exact writesX_of hr etry
  case unlockFree =>
    rw [unlockMutex_own (hown.mpr h), afterRelease_done _ hrel, passMutex_free (hx ▸ hw)] at eunlock
    have := goesOn_tile hr eunlock
    rwa [hset, hx] at this
  case unlockHead =>
    rw [unlockMutex_own (hown.mpr h), afterRelease_done _ hrel, passMutex_head (hx ▸ hw)] at eunlock
    have := goesOn_tile_finish hr hne eunlock
    rwa [hset] at this
  case unlockWaits =>
    rw [unlockMutex_own (hown.mpr h), afterRelease_waits _ hopen] at eunlock
    exact parks_of eunlock
  case unlockOther =>
    rw [unlockMutex_other (mt hown.mp h)] at eunlock
    exact traps_of hr eunlock

/-- Settles O18, by the equation of each of the three instructions for a mutex that is free, owned or the context's own. -/
theorem mutexesPassToTheHeadWaiter : Obligations.MutexesPassToTheHeadWaiter := mutexes

/-! ### Semaphores (R131) -/

section
variable {s : State} {t n : Nat}

theorem semTake_free (h : ((s.tile t).sem n).free = true) :
    semTake n t s = (s.modTile t fun x => x.setSem n { (s.tile t).sem n with count := ((s.tile t).sem n).count - 1 }).retire :=
  if_pos h

theorem semTake_waits (h : ¬((s.tile t).sem n).free = true) :
    semTake n t s =
      (s.modTile t fun x => x.setSem n { (s.tile t).sem n with waiters := ((s.tile t).sem n).waiters ++ [s.cur] }).park
        (.semaphore n) := if_neg h

theorem semTryTake_free (d : BitVec 5) (h : ((s.tile t).sem n).free = true) :
    semTryTake d n t s =
      (s.modTile t fun x => x.setSem n { (s.tile t).sem n with count := ((s.tile t).sem n).count - 1 }).setXRetire d 1 :=
  if_pos h

theorem semTryTake_none (d : BitVec 5) (h : ¬((s.tile t).sem n).free = true) : semTryTake d n t s = s.setXRetire d 0 := if_neg h

theorem semGive_unwaited (h : ((s.tile t).sem n).waiters = []) :
    s.retire.semGive t n = (s.modTile t fun x => x.setSem n ((s.tile t).sem n).given).retire := by
  have h' : ((s.retire.tile t).sem n).waiters = [] := h
  rw [← Sem.given_eq]
  simp only [State.semGive, h', h]
  rfl

theorem semGive_head {w : Agent} {rest : List Agent} (h : ((s.tile t).sem n).waiters = w :: rest) :
    s.retire.semGive t n = (s.retire.modTile t fun x => x.setSem n { (s.tile t).sem n with waiters := rest }).finish w id := by
  have h' : ((s.retire.tile t).sem n).waiters = w :: rest := h
  simp only [State.semGive, h']
  rfl

end

theorem semaphores : Sys2Proof.Claims.Semaphores := by
  intro s t f k d b hc hr x becomes on
  have hx : (s.tile t.val).sem b.toNat = x := Tile.sem_field _ b
  have hfree : ((s.tile t.val).sem b.toNat).free = true ↔ x.count ≠ 0 ∧ x.waiters = [] := hx ▸ Sem.free_iff x
  have hset : ∀ y, (s.tile t.val).setSem b.toNat y =
      { s.tile t.val with sems := (s.tile t.val).sems.set b.toNat y b.isLt } := Tile.setSem_field _ b
  have hnone : ¬((s.tile t.val).sem b.toNat).free = true ↔ x.count = 0 ∨ x.waiters ≠ [] := by
    rw [hfree, Decidable.not_and_iff_not_or_not, Decidable.not_not]
  have ep : exec (.semP b) s = .next (semTake b.toNat t.val s) := by rw [exec_semP, execSemP, State.onTile_facet _ hc]
  have etry : exec (.semTry d b) s = .next (semTryTake d b.toNat t.val s) := by
    rw [exec_semTry, execSemTry, State.onTile_facet _ hc]
  have ev : exec (.semV b) s = .next (s.afterRelease fun s => s.retire.semGive t.val b.toNat) := by
    rw [exec_semV, execSemV, State.onTile_facet _ hc]
  have erd : exec (.semRd d b) s = .next ((s.modTile t.val fun y => y.setSem b.toNat
      { (s.tile t.val).sem b.toNat with ovf := false }).setXRetire d ((s.tile t.val).sem b.toNat).word) := by
    rw [exec_semRd, execSemRd, State.onTile_facet _ hc]
  refine ⟨fun hcount hw => ⟨?take, ?tryTake⟩, fun h => ⟨?wait, ?tryNone⟩, fun hrel hw => ?give,
    fun w rest hrel hw hne => ?giveHead, fun hopen => ?giveWaits, ?read⟩
  case take =>
    rw [semTake_free (hfree.mpr ⟨hcount, hw⟩)] at ep
    have := goesOn_tile hr ep
    rwa [hset, hx] at this
  case tryTake =>
    rw [semTryTake_free d (hfree.mpr ⟨hcount, hw⟩)] at etry
    have := writesX_tile hr etry
    rwa [hset, hx] at this
  case wait =>
    rw [semTake_waits (hnone.mpr h)] at ep
    have := parks_tile ep
    rwa [hset, hx] at this
  case tryNone =>
    rw [semTryTake_none d (hnone.mpr h)] at etry
    exact writesX_of hr etry
  case give =>
    rw [afterRelease_done _ hrel, semGive_unwaited (hx ▸ hw)] at ev
    have := goesOn_tile hr ev
    rwa [hset, hx] at this
  case giveHead =>
    rw [afterRelease_done _ hrel, semGive_head (hx ▸ hw)] at ev
    have := goesOn_tile_finish hr hne ev
    rwa [hset, hx] at this
  case giveWaits =>
    rw [afterRelease_waits _ hopen] at ev
    exact parks_of ev
  case read =>
    obtain ⟨u, e, htile, hother, hset', hc'⟩ := writesX_tile hr erd
    rw [hset, hx] at htile
    rw [hx] at hset'
    exact ⟨u, e, htile, hother, hc', hset'⟩

/-- Settles O19: a permit is taken or waited for (`Sem.free_iff`), and a V goes to the head waiter or to the count. -/
theorem semaphoresCountPermits : Obligations.SemaphoresCountPermits := semaphores

end Sys2Proof.Safety
end

section
/-! PROOF. The summit barrier: its instructions, and the phase that completes at every tile of a gang (R133 to R135, R183). -/

namespace Sys2Proof.Machine

/-! ### Channels (R133 to R135) -/

theorem Tile.channel_fin (x : Tile) (ch : Fin 16) : x.channel ch.val = x.channels[ch] := by
  simp only [Tile.channel, Nat.mod_eq_of_lt ch.isLt]
  rfl

theorem Tile.setChannel_fin (x : Tile) (ch : Fin 16) (y : Channel) :
    x.setChannel ch.val y = { x with channels := x.channels.set ch.val y } := by
  simp only [Tile.setChannel, Nat.mod_eq_of_lt ch.isLt]

theorem barOp_facet {s : State} {t : Fin 900} {f : Fin 4} {k : Fin 11} {b : BitVec 5} {ch : Fin 16}
    (g : Nat → Nat → State → State) (hc : s.cur = .facet t f k) (hb : b.toNat = ch.val) :
    barOp b g s = g ch.val t.val s := by
  have hlt := ch.isLt
  rw [barOp, hb, Safety.needLimits_ok _ (decide_eq_true hlt), State.onTile_facet _ hc]

/-- No facet of the tile is fenced, so none is in its mask (R163). -/
theorem State.fencedMask_none {s : State} {t : Fin 900} (h : ∀ g, (s.facet t g).fenced = false) : s.fencedMask t.val = 0 := by
  have hrange : List.range 4 = [(0 : Fin 4).val, (1 : Fin 4).val, (2 : Fin 4).val, (3 : Fin 4).val] := rfl
  have hf : ∀ g : Fin 4, (s.facets.get Facet.initial (t.val * 4 + g.val)).fenced = false := h
  rw [State.fencedMask, hrange]
  simp only [List.map, hf]
  rfl

/-- Who may arrive: a member of the open phase, and once it is reported one of the next (R135). -/
theorem Channel.mayArrive_iff (x : Channel) (f : Nat) : x.mayArrive.getLsbD f = true ↔
    x.members.getLsbD f = true ∨ x.reported = true ∧ (x.next.getD 0).getLsbD f = true := by
  cases h : x.reported <;> simp [Channel.mayArrive, h]

/-- Who waits for the open phase: a facet that has arrived, and one that it does not wait for (R134, log entry 62). -/
theorem Channel.mustWait_iff (x : Channel) (f : Nat) : x.mustWait f = true ↔
    x.arrived.getLsbD f = true ∨ x.reported = true ∧ x.members.getLsbD f = false := by
  simp [Channel.mustWait]

/-- The tile has reported once every member has arrived, where no facet is fenced (R133). -/
theorem Channel.report_unfenced (x : Channel) :
    x.report 0 = { x with reported := x.reported || decide (x.arrived &&& x.members = x.members) } := by
  have hall : x.arrived &&& ~~~(0 : BitVec 4) = x.arrived := BitVec.and_allOnes
  rw [Channel.report, hall]

/-- bar.cfg acts from the first phase not reported (R135). -/
theorem Channel.configure_unfenced (x : Channel) (members : BitVec 4) : x.configure members 0 =
    if x.reported then { x with next := some members }
    else { x with members := members, reported := decide (x.arrived &&& members = members) } := by
  cases h : x.reported with
  | true => simp [Channel.configure, h]
  | false =>
    rw [Channel.configure, h, if_neg Bool.false_ne_true, if_neg Bool.false_ne_true, Channel.report_unfenced]
    dsimp only
    rw [Bool.false_or]

theorem membersOf_eq {mode : Nat} (h : mode ≤ 4) : membersOf mode = (if mode = 4 then 0xF else 1 <<< mode : BitVec 4) := by
  have hmodes : ∀ m : Fin 5, membersOf m.val = (if m.val = 4 then 0xF else 1 <<< m.val : BitVec 4) := by decide
  exact hmodes ⟨mode, by omega⟩

theorem phaseComplete_iff (c p : BitVec 32) :
    phaseComplete c p = true ↔ 1 ≤ (c - p).toNat ∧ (c - p).toNat ≤ 2 ^ 31 := by simp [phaseComplete]

/-! ### bar.arrive (R134) -/

section
variable {s : State} {t ch f : Nat} (d : BitVec 5)

theorem barArrive_stranger (h : ¬((s.tile t).channel ch).mayArrive.getLsbD f = true) :
    barArrive d ch t f s = s.trap Code.prot (toWord ch) := by
  simp [barArrive, h]

theorem barArrive_waits (h : ((s.tile t).channel ch).mayArrive.getLsbD f = true)
    (hw : ((s.tile t).channel ch).mustWait f = true) : barArrive d ch t f s = s.park (.arrive ch) := by
  simp [barArrive, h, hw]

theorem barArrive_arrives (h : ((s.tile t).channel ch).mayArrive.getLsbD f = true)
    (hw : ¬((s.tile t).channel ch).mustWait f = true) :
    let x := (s.tile t).channel ch
    barArrive d ch t f s = s.afterRelease fun s =>
      (s.modTile t fun y => y.setChannel ch (Channel.report { x with arrived := x.arrived ||| (1 <<< f) }
        (s.fencedMask t))).setXRetire d (x.count.setWidth 64) := by
  simp [barArrive, h, hw]

end

/-! ### bar.cfg (R135, R160) -/

section
variable {s : State} {t : Fin 900} {f : Fin 4} {k : Fin 11} {a b : BitVec 5}

theorem execBarCfg_bead (hc : s.cur = .facet t f k) (hk : k ≠ 0) : execBarCfg a b s = .next (s.trapWord Code.prot) := by
  have hbead : isBead (.facet t f k) = true := decide_eq_true fun h => hk (Fin.ext h)
  simp only [execBarCfg, hc, hbead, if_true]

/-- A control context comes to the operand limits. -/
theorem execBarCfg_limits (hc : s.cur = .facet t f 0) :
    execBarCfg a b s = .next (s.needLimits (b.toNat < 16 && a.toNat ≤ 4) fun s =>
      (s.modTile t.val fun x => x.setChannel b.toNat (((s.tile t.val).channel b.toNat).configure (membersOf a.toNat)
        (s.fencedMask t.val))).retire) := by
  have hbead : isBead (.facet t f 0) = false := rfl
  simp only [execBarCfg, hc, hbead, Bool.false_eq_true, if_false]

/-- Where a mode above 4 traps ILLEGAL. -/
theorem execBarCfg_illegal (hc : s.cur = .facet t f 0) (ha : 4 < a.toNat) :
    execBarCfg a b s = .next (s.trapWord Code.illegal) := by
  rw [execBarCfg_limits hc, Safety.needLimits_bad]
  rw [Bool.and_eq_false_iff, decide_eq_false_iff_not, decide_eq_false_iff_not]
  omega

theorem execBarCfg_control (hc : s.cur = .facet t f 0) (hb : b.toNat < 16) (ha : a.toNat ≤ 4) :
    execBarCfg a b s = .next (s.modTile t.val fun x => x.setChannel b.toNat
      (((s.tile t.val).channel b.toNat).configure (membersOf a.toNat) (s.fencedMask t.val))).retire := by
  rw [execBarCfg_limits hc, Safety.needLimits_ok]
  rw [Bool.and_eq_true, decide_eq_true_eq, decide_eq_true_eq]
  exact ⟨hb, ha⟩

end

/-! ### The completion of a phase (R133, R183) -/

/-- The tiles of a gang that is not saved, row by row (R29). -/
theorem Gang.tiles_of_held {g : Gang} (h : g.phase ≠ .saved) :
    g.tiles = (List.range g.h).flatMap fun y => (List.range g.w).map fun x => 30 * (g.y0 + y) + g.x0 + x := by
  simp only [Gang.tiles, if_neg h, Nat.mul_comm]

/-- Where its rows fit the grid of 30 columns, each is listed once. -/
theorem grid_nodup {x0 y0 w h : Nat} (hw : x0 + w ≤ 30) :
    ((List.range h).flatMap fun y => (List.range w).map fun x => 30 * (y0 + y) + x0 + x).Nodup := by
  rw [List.Nodup, List.pairwise_flatMap]
  refine ⟨fun y _ => ?_, ?_⟩
  · rw [List.pairwise_map]
    exact List.pairwise_lt_range.imp fun hlt => by omega
  · refine List.pairwise_lt_range.imp fun hlt u hu v hv => ?_
    obtain ⟨x, hx, rfl⟩ := List.mem_map.mp hu
    obtain ⟨x', hx', rfl⟩ := List.mem_map.mp hv
    rw [List.mem_range] at hx hx'
    omega

/-- Changing the tiles of a list changes tiles only: each that the list names, and no other. -/
theorem foldl_modTile_only (g : Tile → Tile) (l : List Nat) (s : State) :
    l.foldl (fun s t => s.modTile t g) s = { s with tiles := (l.foldl (fun s t => s.modTile t g) s).tiles } := by
  induction l generalizing s with
  | nil => rfl
  | cons t l ih => exact ih _

theorem tile_foldl_modTile_out (g : Tile → Tile) {l : List Nat} (s : State) {u : Nat} (h : u ∉ l) :
    (l.foldl (fun s t => s.modTile t g) s).tile u = s.tile u := by
  induction l generalizing s with
  | nil => rfl
  | cons t l ih =>
    obtain ⟨hne, hl⟩ := not_or.mp (mt List.mem_cons.mpr h)
    exact (ih _ hl).trans (State.tile_modTile_other _ _ hne)

theorem tile_foldl_modTile_in (g : Tile → Tile) {l : List Nat} (s : State) {u : Nat} (hl : l.Nodup) (h : u ∈ l) :
    (l.foldl (fun s t => s.modTile t g) s).tile u = g (s.tile u) := by
  induction l generalizing s with
  | nil => simp at h
  | cons t l ih =>
    obtain ⟨ht, hl⟩ := List.nodup_cons.mp hl
    rw [List.foldl_cons]
    rcases List.mem_cons.mp h with rfl | hmem
    · rw [tile_foldl_modTile_out g _ ht, State.tile_modTile_same]
    · have hne : u ≠ t := fun e => ht (e ▸ hmem)
      rw [ih _ hl hmem, State.tile_modTile_other _ _ hne]

section
variable {s : State} {slot ch : Nat} {g : Gang}

/-- Every tile of the gang has reported the phase, and none is spilled. -/
theorem completePhase_done (hg : s.gangs.find slot = some g)
    (h : ∀ t ∈ g.tiles, ((s.tile t).channel ch).reported = true ∧ (s.tile t).spilled = false) :
    s.completePhase slot ch =
      g.tiles.foldl (fun s t => s.modTile t fun x => x.setChannel ch (x.channel ch).completed) s := by
  have hall : (g.tiles.all fun t => ((s.tile t).channel ch).reported && !(s.tile t).spilled) = true := by
    rw [List.all_eq_true]
    intro t ht
    obtain ⟨hreported, hspilled⟩ := h t ht
    rw [hreported, hspilled]
    rfl
  simp only [State.completePhase, hg, hall, if_true]

/-- Some tile stands in its way. -/
theorem completePhase_stays (hg : s.gangs.find slot = some g)
    (h : ∃ t ∈ g.tiles, ((s.tile t).channel ch).reported = false ∨ (s.tile t).spilled = true) :
    s.completePhase slot ch = s := by
  obtain ⟨t, ht, hstop⟩ := h
  have hall : ¬(g.tiles.all fun t => ((s.tile t).channel ch).reported && !(s.tile t).spilled) = true := by
    rw [List.all_eq_true]
    intro hall
    have := hall t ht
    rcases hstop with hstop | hstop <;> simp [hstop] at this
  simp only [State.completePhase, hg, if_neg hall]

end

end Sys2Proof.Machine

namespace Sys2Proof.Safety

open Sys2Proof.Machine

theorem barrierInstructions : Sys2Proof.Claims.BarrierInstructions := by
  intro s t f k d a b ch hc hr hb hfence x becomes on phase complete arrived joins
  have hx : (s.tile t.val).channel ch.val = x := Tile.channel_fin _ ch
  have hset : ∀ y, (s.tile t.val).setChannel ch.val y = { s.tile t.val with channels := (s.tile t.val).channels.set ch.val y } :=
    Tile.setChannel_fin _ ch
  have hmask : s.fencedMask t.val = 0 := State.fencedMask_none hfence
  have earrive : exec (.barArrive d b) s = .next (barArrive d ch.val t.val f.val s) := by
    rw [exec_barArrive, execBarArrive, barOp_facet _ hc hb, hc]
    rfl
  have ewait : exec (.barWait a b) s =
      .next (if phaseComplete x.count phase then s.retire else s.park (.barrier ch.val phase)) := by
    rw [exec_barWait, execBarWait, barOp_facet _ hc hb, hx]
    rfl
  have etest : exec (.barTest d a b) s = .next (s.setXRetire d (boolWord (phaseComplete x.count phase))) := by
    rw [exec_barTest, execBarTest, barOp_facet _ hc hb, hx]
    rfl
  have hmay : ((s.tile t.val).channel ch.val).mayArrive.getLsbD f.val = true ↔ x.members.getLsbD f.val = true ∨ joins := by
    rw [hx]
    exact x.mayArrive_iff f.val
  have hwait : ((s.tile t.val).channel ch.val).mustWait f.val = true ↔
      x.arrived.getLsbD f.val = true ∨ x.reported = true ∧ x.members.getLsbD f.val = false := by
    rw [hx]
    exact x.mustWait_iff f.val
  have hdone : phaseComplete x.count phase = true ↔ complete := phaseComplete_iff x.count phase
  have hgo (hm : x.members.getLsbD f.val = true) (ha : x.arrived.getLsbD f.val = false) :
      ¬((s.tile t.val).channel ch.val).mustWait f.val = true := by
    rw [hwait, hm, ha]
    simp
  refine ⟨fun hm ha hrel => ?arrives, fun hm ha hopen => ?releases, fun hm ha => ?again, fun hm hj => ?next,
    fun hm hj => ?stranger, fun h => ⟨?goesOn, ?testDone⟩, fun h => ⟨?waits, ?testOpen⟩, fun hk ha => ?cfg,
    fun hk ha => ?cfgMode, fun hk => ?cfgBead⟩
  case arrives =>
    rw [barArrive_arrives d (hmay.mpr (.inl hm)) (hgo hm ha), afterRelease_done _ hrel, hmask, hx,
      Channel.report_unfenced] at earrive
    obtain ⟨u, e, ⟨hs, htiles, htile⟩, hother, hset', hc'⟩ := writesX_tile hr earrive
    rw [hset] at htile
    exact ⟨u, e, ⟨hs, htiles, hother, htile⟩, hset', hc'⟩
  case releases =>
    rw [barArrive_arrives d (hmay.mpr (.inl hm)) (hgo hm ha), afterRelease_waits _ hopen] at earrive
    exact parks_of earrive
  case again =>
    rw [barArrive_waits d (hmay.mpr (.inl hm)) (hwait.mpr (.inl ha))] at earrive
    exact parks_of earrive
  case next =>
    rw [barArrive_waits d (hmay.mpr (.inr hj)) (hwait.mpr (.inr ⟨hj.1, hm⟩))] at earrive
    exact parks_of earrive
  case stranger =>
    rw [barArrive_stranger d (by rw [hmay, hm]; exact not_or_intro Bool.false_ne_true hj)] at earrive
    exact traps_of hr earrive
  case goesOn =>
    rw [if_pos (hdone.mpr h)] at ewait
    exact goesOn_of hr ewait
  case testDone =>
    rw [hdone.mpr h] at etest
    exact writesX_of hr etest
  case waits =>
    rw [if_neg (mt hdone.mp h)] at ewait
    exact parks_of ewait
  case testOpen =>
    rw [Bool.eq_false_iff.mpr (mt hdone.mp h)] at etest
    exact writesX_of hr etest
  case cfg =>
    subst hk
    have e := execBarCfg_control hc (hb ▸ ch.isLt) ha
    rw [hb, hx, hmask, Channel.configure_unfenced, membersOf_eq ha] at e
    obtain ⟨u, e, ⟨hs, htiles, htile⟩, hother, hc'⟩ := goesOn_tile (i := .barCfg a b) hr e
    rw [hset] at htile
    exact ⟨u, e, ⟨hs, htiles, hother, htile⟩, hc'⟩
  case cfgMode =>
    subst hk
    exact traps_of hr (execBarCfg_illegal hc ha)
  case cfgBead => exact traps_of hr (execBarCfg_bead hc hk)

theorem barrierPhase : Sys2Proof.Claims.BarrierPhase := by
  intro s slot ch g hg hw hphase tiles
  have htiles : g.tiles = tiles := Gang.tiles_of_held hphase
  have hchannel : ∀ x : Tile, x.channel ch.val = x.channels[ch] := fun x => Tile.channel_fin x ch
  refine ⟨fun h => ?done, fun h => ?stays⟩
  case done =>
    have e : exec (.barrierPhaseComplete slot ch) s = .next (tiles.foldl (fun s t => s.modTile t fun x =>
        x.setChannel ch.val (x.channel ch.val).completed) s) := by
      rw [exec_barrierPhaseComplete, execBarrierPhaseComplete, completePhase_done hg, htiles]
      rw [htiles]
      simpa only [hchannel] using h
    refine ⟨_, e, foldl_modTile_only _ _ _, fun t ht => ?_, fun t ht => tile_foldl_modTile_out _ _ ht⟩
    rw [tile_foldl_modTile_in _ _ (grid_nodup hw) ht, Tile.setChannel_fin, hchannel]
    rfl
  case stays =>
    rw [exec_barrierPhaseComplete, execBarrierPhaseComplete, completePhase_stays hg]
    rw [htiles]
    simpa only [hchannel] using h

/-- Settles O20: an arrival is by who may arrive and who must wait, and a phase completes at each tile of the gang once. -/
theorem barriersCompletePhases : Obligations.BarriersCompletePhases := ⟨barrierInstructions, barrierPhase⟩

end Sys2Proof.Safety
end
